-- ==== Sys2Proof/Word.lean ====
section
/-! DEFINITION. The word types of the WB4120: bytes of frames, texts of 16 characters, and the numbers by
which records are named (00_scope.md, "Rooms, kitchens, lines and nodes"). -/

namespace Sys2Proof

/-- One byte of a server frame or a line frame (R184). -/
abbrev Byte := BitVec 8

/-- A text field of 16 characters, "stored and returned as the bytes supplied" (chapter 11, Coding of fields). -/
abbrev Text := Vector Byte 16

/-- A room number 0..383 (R31); a plain room and a combined room alike. -/
abbrev RoomNo := Fin 384

/-- A slot number 0..32,767 of the record pool (R14). -/
abbrev SlotNo := Fin 32768

/-- A kitchen number 0..7 (R100). -/
abbrev KitchenNo := Fin 8

/-- A panel line: 0 for A to 3 for D (R146, R186). -/
abbrev LineNo := Fin 4

/-- A node entry of a line; the node NUMBER of entry `n` is `n + 1`, 1..100 (R147). -/
abbrev NodeNo := Fin 100

end Sys2Proof
end

