-- ==== Sys2Proof/Config.lean ====
section
/-! DEFINITION. The fixed sizes of the part and its FREE VALUES: constants without a body, for the few values that
the manual leaves unstated. Nothing can be proved of a free value, so a claim holds whatever it is. -/

namespace Sys2Proof.Config

/-- The last campus minute, day 11,650, 20:15 (00_scope.md, Campus time; R4). -/
def maxMinute : Nat := 16777215

/-- The number of slots of the record pool (R14). -/
def poolSlots : Nat := 32768

/-- The number of entries of a kitchen's window ring (R110). -/
def ringSize : Nat := 336

/-- The greatest value of a stamp counter, where it stays (R100). -/
def maxStamp : Nat := 4294967295

/-- FREE VALUE (log entry 12): the code or tag byte that the response to a BAD_FRAME echoes when the transaction
ended before that byte was received. R178 echoes the bytes "as they were received"; none was. -/
opaque freeByte : Nat → Byte

/-- FREE VALUE (log entry 13): whether an item whose presence byte is neither 0 nor 1 is taken as present. R186
gives a meaning to 0 and to 1 alone. -/
opaque presence : Byte → Bool

/-- FREE VALUE (log entry 14): the three-byte minute sent for a minute that lies outside 0..16,777,215 (a
turnaround-until or a hold expiry past the end of the campus range, a free-until before its beginning). -/
opaque minuteOutside : Int → Nat

end Sys2Proof.Config
end

