-- ==== Sys2Proof/Syntax.lean ====
section
/-! DEFINITION. The commands and events of the part: one constructor of `Instr` for each row of
spec/opcode_table.json, with the operands it carries. Operands of server commands are the RAW field values of the
payload (R186), so that an out-of-range value reaches the refusal its rule gives. -/

namespace Sys2Proof

/-- A handle as it travels (R185): a kind byte (1 BOOKING, 2 ORDER), a generation byte and a 16-bit slot field. -/
structure Handle where
  kind : Byte
  gen  : Byte
  slot : Nat
  deriving DecidableEq, Repr

/-- The notice kinds of a room's set, in the order of the notice table (chapter 11, Notices). -/
inductive RoomNotice where
  | noShow | vacated | doorRelease | holdExpired | walkup | extended | orderShed | orderPromoted | orderLapsed
  | orderDone | panelSilent | panelBack | closeDone
  deriving DecidableEq, Repr

/-- The notice kinds of a kitchen's set. -/
inductive KitchenNotice where
  | terminalSilent | terminalBack | levelChanged
  deriving DecidableEq, Repr

/-- The notice kinds of the part-wide set. -/
inductive PartNotice where
  | poolLow | clockEnd
  deriving DecidableEq, Repr

/-- A notice raised by a block, with the set it is raised in (R181). -/
inductive RaisedNotice where
  | room (r : RoomNo) (n : RoomNotice)
  | kitchen (k : KitchenNo) (n : KitchenNotice)
  | part (n : PartNotice)
  deriving DecidableEq, Repr

/-- The attributes carried by WRITE_ROOM in its ordinary form (R33, R186). -/
structure WriteRoomArgs where
  room : Nat
  name : Text
  building : Nat
  seats : Nat
  kitchen : Option Nat
  gap : Nat
  lead : Nat
  grace : Nat
  vacate : Nat
  flags : Byte
  memberCount : Nat
  memberFields : Vector Nat 4
  deriving DecidableEq, Repr

/-- The content of HOLD and BOOK (R58); HOLD carries a hold time beside it. -/
structure BookArgs where
  room : Nat
  start : Nat
  stop : Nat
  cls : Nat
  attendees : Nat
  organizer : Nat
  title : Text
  deriving DecidableEq, Repr

/-- The items of AMEND, each of which may be absent (R63). -/
structure AmendArgs where
  handle : Handle
  start : Option Nat
  stop : Option Nat
  attendees : Option Nat
  title : Option Text
  deriving DecidableEq, Repr

/-- The need carried by FIND_ROOMS; `building = none` stands for ANY (R96). -/
structure FindArgs where
  building : Option Nat
  seats : Nat
  start : Nat
  stop : Nat
  fromRoom : Nat
  combined : Bool
  deriving DecidableEq, Repr

/-- The items of AMEND_ORDER, each of which may be absent (R133). -/
structure AmendOrderArgs where
  handle : Handle
  headcount : Option Nat
  menuClass : Option Nat
  delivery : Option Nat
  deriving DecidableEq, Repr

/-- A terminal report: the kitchen whose terminal gives it and the staffing level 0..7 that it carries (R102). -/
structure TerminalReportArgs where
  kitchen : KitchenNo
  level : Fin 8
  deriving DecidableEq, Repr

/-- A read-out: how many bytes are clocked, the marker's byte included, and whether a command frame was discarded between
the sampling of the header's flags and the last of those bytes (R177, R180). -/
structure ReadOutArgs where
  clocked : Nat
  discarded : Bool
  deriving DecidableEq, Repr

/-- The commands and events. The first group are the part's own steps and the events on its pins and lines; the
second are the server's commands, each with the tag of its frame. -/
inductive Instr where
  | hardReset
  | poolInitComplete
  | elapsedSecond
  | secondPulse (l : LineNo)
  | bkeMinuteAdvance
  | minuteWalkStep
  | windowRoll (k : KitchenNo)
  | sheddingStep (k : KitchenNo)
  | promotingStep (k : KitchenNo)
  | closeWalkStep (r : RoomNo)
  | clearSlotVisit
  | clearAllComplete
  | findRoomsScanStep
  | visitStart (l : LineNo)
  | panelAnswer (l : LineNo) (frame : List Byte)
  | terminalAnswer (l : LineNo) (frame : List Byte)
  | badAnswer (l : LineNo) (frame : List Byte)
  | visitTimeout (l : LineNo)
  | frameDiscarded (l : LineNo) (frame : List Byte)
  | motionReport (l : LineNo) (n : NodeNo)
  | motionCheckIn (l : LineNo) (n : NodeNo)
  | checkIn (l : LineNo) (n : NodeNo)
  | extend (l : LineNo) (n : NodeNo)
  | release (l : LineNo) (n : NodeNo)
  | walkUp (l : LineNo) (n : NodeNo)
  | requestResult (l : LineNo) (n : NodeNo)
  | terminalReport (a : TerminalReportArgs)
  | terminalLoss (k : KitchenNo)
  | noticeRaise (n : RaisedNotice)
  | commandWrite (bytes : List Byte)
  | overrun (bytes : List Byte)
  | readOut (a : ReadOutArgs)
  | ignoredTransaction (bytes : List Byte)
  | setClock (tag : Byte) (v : Nat)
  | readClock (tag : Byte)
  | poolStatus (tag : Byte)
  | setReserve (tag : Byte) (floor : Nat)
  | setHorizon (tag : Byte) (days : Nat)
  | clearAll (tag : Byte)
  | writeRoom (tag : Byte) (a : WriteRoomArgs)
  | writeRoomRemove (tag : Byte) (room : Nat)
  | readRoom (tag : Byte) (room : Nat)
  | setRoomService (tag : Byte) (inService : Bool) (room : Nat)
  | closeAndCancel (tag : Byte) (room : Nat)
  | hold (tag : Byte) (a : BookArgs) (holdTime : Nat)
  | book (tag : Byte) (a : BookArgs)
  | confirm (tag : Byte) (h : Handle) (cls : Option Nat)
  | amend (tag : Byte) (a : AmendArgs)
  | cancel (tag : Byte) (h : Handle)
  | readBooking (tag : Byte) (h : Handle)
  | lookupAt (tag : Byte) (room minute : Nat)
  | listRoom (tag : Byte) (room count : Nat) (after : Option Nat)
  | findRooms (tag : Byte) (a : FindArgs)
  | writeMenuClass (tag : Byte) (cls weight setup lead : Nat)
  | writeBanks (tag : Byte) (kitchen : Nat) (banks : Vector Nat 8)
  | writeKitchen (tag : Byte) (kitchen opens closes fallback : Nat)
  | setStaffing (tag : Byte) (kitchen : Nat) (level : Option Nat)
  | readKitchen (tag : Byte) (kitchen : Nat)
  | readWindow (tag : Byte) (kitchen window : Nat)
  | order (tag : Byte) (h : Handle) (menuClass headcount delivery : Nat)
  | amendOrder (tag : Byte) (a : AmendOrderArgs)
  | cancelOrder (tag : Byte) (h : Handle)
  | readOrder (tag : Byte) (h : Handle)
  | setLine (tag : Byte) (line state timeout refresh : Nat)
  | restartLine (tag : Byte) (line : Nat)
  | writeNode (tag : Byte) (line node kind target : Nat)
  | readNode (tag : Byte) (line node : Nat)
  | readNotices (tag : Byte) (indicator number : Nat)
  | setNoticeMask (tag : Byte) (masks : Vector Byte 18)
  | noticeSummary (tag : Byte)
  deriving DecidableEq, Repr

end Sys2Proof
end

