-- ==== Sys2Proof/WellFormed.lean ====
section
/-! DEFINITION. When a server command's operands fit the fields of its payload (R185, R186), so that the command
can be framed at all. A value that fits its field but lies outside the range its rule gives is well-formed: the
owner of the command refuses it. -/

namespace Sys2Proof

/-- A handle fits its four bytes (R185). -/
def Handle.wellFormed (h : Handle) : Bool := decide (h.slot < 65536)

/-- An item that may be absent fits when its value does. -/
def fitsIn (bound : Nat) (v : Option Nat) : Bool :=
  match v with
  | none => true
  | some x => decide (x < bound)

/-- The fields of WRITE_ROOM fit (R186). -/
def WriteRoomArgs.wellFormed (a : WriteRoomArgs) : Bool :=
  decide (a.room < 65536) && decide (a.building < 256) && decide (a.seats < 65536) && fitsIn 256 a.kitchen &&
  decide (a.gap < 256) && decide (a.lead < 256) && decide (a.grace < 256) && decide (a.vacate < 256) &&
  decide (a.memberCount < 256) && a.memberFields.toList.all fun m => decide (m < 65536)

/-- The fields of HOLD and BOOK fit (R186). -/
def BookArgs.wellFormed (a : BookArgs) : Bool :=
  decide (a.room < 65536) && decide (a.start < 4294967296) && decide (a.stop < 4294967296) && decide (a.cls < 256) &&
  decide (a.attendees < 65536) && decide (a.organizer < 4294967296)

/-- The fields of AMEND fit (R186). -/
def AmendArgs.wellFormed (a : AmendArgs) : Bool :=
  a.handle.wellFormed && fitsIn 4294967296 a.start && fitsIn 4294967296 a.stop && fitsIn 65536 a.attendees

/-- The fields of FIND_ROOMS fit; the building byte 255 means ANY and is no building (R186). -/
def FindArgs.wellFormed (a : FindArgs) : Bool :=
  fitsIn 255 a.building && decide (a.seats < 65536) && decide (a.start < 4294967296) &&
  decide (a.stop < 4294967296) && decide (a.fromRoom < 65536)

/-- The fields of AMEND_ORDER fit (R186). -/
def AmendOrderArgs.wellFormed (a : AmendOrderArgs) : Bool :=
  a.handle.wellFormed && fitsIn 65536 a.headcount && fitsIn 256 a.menuClass && fitsIn 4294967296 a.delivery

/-- A command is well-formed when every operand fits its field. The part's own steps and the events of its pins and
lines carry nothing that could fail to fit, but a read-out, which clocks at least its marker byte (R177). -/
def Instr.wellFormed (i : Instr) : Bool :=
  match i with
  | .hardReset => true
  | .poolInitComplete => true
  | .elapsedSecond => true
  | .secondPulse _ => true
  | .bkeMinuteAdvance => true
  | .minuteWalkStep => true
  | .windowRoll _ => true
  | .sheddingStep _ => true
  | .promotingStep _ => true
  | .closeWalkStep _ => true
  | .clearSlotVisit => true
  | .clearAllComplete => true
  | .findRoomsScanStep => true
  | .visitStart _ => true
  | .panelAnswer _ _ => true
  | .terminalAnswer _ _ => true
  | .badAnswer _ _ => true
  | .visitTimeout _ => true
  | .frameDiscarded _ _ => true
  | .motionReport _ _ => true
  | .motionCheckIn _ _ => true
  | .checkIn _ _ => true
  | .extend _ _ => true
  | .release _ _ => true
  | .walkUp _ _ => true
  | .requestResult _ _ => true
  | .terminalReport _ => true
  | .terminalLoss _ => true
  | .noticeRaise _ => true
  | .commandWrite _ => true
  | .overrun _ => true
  | .readOut a => decide (0 < a.clocked)
  | .ignoredTransaction _ => true
  | .setClock _ v => decide (v < 4294967296)
  | .readClock _ => true
  | .poolStatus _ => true
  | .setReserve _ f => decide (f < 65536)
  | .setHorizon _ d => decide (d < 256)
  | .clearAll _ => true
  | .writeRoom _ a => a.wellFormed
  | .writeRoomRemove _ r => decide (r < 65536)
  | .readRoom _ r => decide (r < 65536)
  | .setRoomService _ _ r => decide (r < 65536)
  | .closeAndCancel _ r => decide (r < 65536)
  | .hold _ a t => a.wellFormed && decide (t < 256)
  | .book _ a => a.wellFormed
  | .confirm _ h c => h.wellFormed && fitsIn 256 c
  | .amend _ a => a.wellFormed
  | .cancel _ h => h.wellFormed
  | .readBooking _ h => h.wellFormed
  | .lookupAt _ r m => decide (r < 65536) && decide (m < 4294967296)
  | .listRoom _ r c a => decide (r < 65536) && decide (c < 256) && fitsIn 4294967296 a
  | .findRooms _ a => a.wellFormed
  | .writeMenuClass _ c w s l => decide (c < 256) && decide (w < 256) && decide (s < 256) && decide (l < 256)
  | .writeBanks _ k b => decide (k < 256) && b.toList.all fun c => decide (c < 65536)
  | .writeKitchen _ k o c f => decide (k < 256) && decide (o < 65536) && decide (c < 65536) && decide (f < 256)
  | .setStaffing _ k l => decide (k < 256) && fitsIn 256 l
  | .readKitchen _ k => decide (k < 256)
  | .readWindow _ k w => decide (k < 256) && decide (w < 16777216)
  | .order _ h c n d => h.wellFormed && decide (c < 256) && decide (n < 65536) && decide (d < 4294967296)
  | .amendOrder _ a => a.wellFormed
  | .cancelOrder _ h => h.wellFormed
  | .readOrder _ h => h.wellFormed
  | .setLine _ l st t r => decide (l < 256) && decide (st < 256) && decide (t < 256) && decide (r < 256)
  | .restartLine _ l => decide (l < 256)
  | .writeNode _ l n k t => decide (l < 256) && decide (n < 256) && decide (k < 256) && decide (t < 65536)
  | .readNode _ l n => decide (l < 256) && decide (n < 256)
  | .readNotices _ i n => decide (i < 256) && decide (n < 65536)
  | .setNoticeMask _ _ => true
  | .noticeSummary _ => true

end Sys2Proof
end

