-- ==== Sys2Proof/Decode.lean ====
section
/-! DEFINITION. The coding of frames: numbers as bytes, the check sequence (R184), the payload of every server
command in both directions (R185, R186), and the judgement of a command frame (R178). The opcode table gives no row
any bits, so `decodeTableWord` answers none for every word. -/

namespace Sys2Proof

/-- `len` bytes of a number, most significant byte first (chapter 11, Coding of fields). -/
def be : Nat → Nat → List Byte
  | 0, _ => []
  | len + 1, v => BitVec.ofNat 8 (v / 256 ^ len) :: be len v

/-- The number that bytes spell, most significant byte first. -/
def ofBytes (bs : List Byte) : Nat := bs.foldl (fun n b => n * 256 + b.toNat) 0

/-- One bit entering the check register: generator x^16 + x^12 + x^5 + 1 (R184). -/
def crcShift (reg : BitVec 16) : BitVec 16 :=
  if reg.getLsbD 15 then (reg <<< 1) ^^^ 0x1021#16 else reg <<< 1

/-- One byte entering the check register, most significant bit first, nothing reflected (R184). -/
def crcByte (reg : BitVec 16) (b : Byte) : BitVec 16 :=
  let r := reg ^^^ (b.zeroExtend 16 <<< 8)
  crcShift (crcShift (crcShift (crcShift (crcShift (crcShift (crcShift (crcShift r)))))))

/-- The check sequence of the bytes it covers: the register starts with all ones, no final exclusive-or (R184). -/
def crc (bs : List Byte) : BitVec 16 := bs.foldl crcByte 0xFFFF#16

/-- The two check bytes, high byte first (R184). -/
def crcBytes (bs : List Byte) : List Byte := be 2 (crc bs).toNat

/-- A frame: its marker or address byte, which the check does not cover, the covered bytes, the check (R184). -/
def sealFrame (lead : Byte) (covered : List Byte) : List Byte := lead :: covered ++ crcBytes covered

/-- The `len`-byte number at offset `off` of a payload. -/
def numAt (p : List Byte) (off len : Nat) : Nat := ofBytes ((p.drop off).take len)

/-- The byte at offset `off` of a payload. -/
def byteAt (p : List Byte) (off : Nat) : Byte := p.getD off 0

/-- The first 16 bytes of a list as a text; a shorter list is filled with bytes 0. -/
def textOf (bs : List Byte) : Text :=
  ⟨((bs ++ List.replicate 16 0).take 16).toArray, by simp⟩

/-- The text field at offset `off`. -/
def textAt (p : List Byte) (off : Nat) : Text := textOf (p.drop off)

/-- Whether a presence byte says that its item is present (R186): 0 absent, 1 present, any other value FREE (log
entry 13). -/
def isPresent (b : Byte) : Bool :=
  if b = 0 then false else if b = 1 then true else Config.presence b

/-- An optional number: a presence byte at `off` and then `len` bytes (R186). -/
def optAt (p : List Byte) (off len : Nat) : Option Nat :=
  if isPresent (byteAt p off) then some (numAt p (off + 1) len) else none

/-- The handle at offset `off` (R185). -/
def handleAt (p : List Byte) (off : Nat) : Handle :=
  { kind := byteAt p off, gen := byteAt p (off + 1), slot := numAt p (off + 2) 2 }

/-- What the judgement of a command frame gives (R178). -/
inductive Judged where
  | badFrame
  | badCommand
  | command (i : Instr)
  deriving DecidableEq, Repr

/-- The payload length test of R178 for a command's form. -/
def form (p : List Byte) (len : Nat) (i : Instr) : Judged :=
  if p.length = len then .command i else .badFrame

/-- The attributes of WRITE_ROOM's ordinary form, read from its 38-byte payload (R186). -/
def writeRoomArgsOf (p : List Byte) : WriteRoomArgs :=
  { room := numAt p 1 2, name := textAt p 3, building := numAt p 19 1, seats := numAt p 20 2,
    kitchen := optAt p 22 1, gap := numAt p 24 1, lead := numAt p 25 1, grace := numAt p 26 1,
    vacate := numAt p 27 1, flags := byteAt p 28, memberCount := numAt p 29 1,
    memberFields := #v[numAt p 30 2, numAt p 32 2, numAt p 34 2, numAt p 36 2] }

/-- The content common to HOLD and BOOK (R186). -/
def bookArgsOf (p : List Byte) : BookArgs :=
  { room := numAt p 0 2, start := numAt p 2 4, stop := numAt p 6 4, cls := numAt p 10 1,
    attendees := numAt p 11 2, organizer := numAt p 13 4, title := textAt p 17 }

/-- The items of AMEND (R186). -/
def amendArgsOf (p : List Byte) : AmendArgs :=
  { handle := handleAt p 0, start := optAt p 4 4, stop := optAt p 9 4, attendees := optAt p 14 2,
    title := if isPresent (byteAt p 17) then some (textAt p 18) else none }

/-- The need of FIND_ROOMS: building byte 255 means ANY, include-combined byte 0 means no (R186). -/
def findArgsOf (p : List Byte) : FindArgs :=
  { building := if byteAt p 0 = 255 then none else some (numAt p 0 1), seats := numAt p 1 2,
    start := numAt p 3 4, stop := numAt p 7 4, fromRoom := numAt p 11 2, combined := byteAt p 13 != 0 }

/-- The items of AMEND_ORDER (R186). -/
def amendOrderArgsOf (p : List Byte) : AmendOrderArgs :=
  { handle := handleAt p 0, headcount := optAt p 4 2, menuClass := optAt p 7 1, delivery := optAt p 9 4 }

/-- The command that a code and a payload spell: the command index and the payload table (R178, R186). -/
def decodeCommand (code tag : Byte) (p : List Byte) : Judged :=
  match code.toNat with
  | 1 => form p 4 (.setClock tag (numAt p 0 4))
  | 2 => form p 0 (.readClock tag)
  | 16 => form p 0 (.poolStatus tag)
  | 17 => form p 2 (.setReserve tag (numAt p 0 2))
  | 18 => form p 1 (.setHorizon tag (numAt p 0 1))
  | 19 => form p 0 (.clearAll tag)
  | 32 =>
    match numAt p 0 1 with
    | 0 => form p 38 (.writeRoom tag (writeRoomArgsOf p))
    | 1 => form p 3 (.writeRoomRemove tag (numAt p 1 2))
    | _ => .badFrame
  | 33 => form p 2 (.readRoom tag (numAt p 0 2))
  | 34 =>
    match numAt p 0 1 with
    | 0 => form p 3 (.setRoomService tag true (numAt p 1 2))
    | 1 => form p 3 (.setRoomService tag false (numAt p 1 2))
    | 2 => form p 3 (.closeAndCancel tag (numAt p 1 2))
    | _ => .badFrame
  | 48 => form p 34 (.hold tag (bookArgsOf p) (numAt p 33 1))
  | 49 => form p 33 (.book tag (bookArgsOf p))
  | 50 => form p 6 (.confirm tag (handleAt p 0) (optAt p 4 1))
  | 51 => form p 34 (.amend tag (amendArgsOf p))
  | 52 => form p 4 (.cancel tag (handleAt p 0))
  | 53 => form p 4 (.readBooking tag (handleAt p 0))
  | 64 => form p 6 (.lookupAt tag (numAt p 0 2) (numAt p 2 4))
  | 65 => form p 8 (.listRoom tag (numAt p 0 2) (numAt p 2 1) (optAt p 3 4))
  | 66 => form p 14 (.findRooms tag (findArgsOf p))
  | 80 => form p 4 (.writeMenuClass tag (numAt p 0 1) (numAt p 1 1) (numAt p 2 1) (numAt p 3 1))
  | 81 =>
    form p 17 (.writeBanks tag (numAt p 0 1)
      #v[numAt p 1 2, numAt p 3 2, numAt p 5 2, numAt p 7 2, numAt p 9 2, numAt p 11 2, numAt p 13 2, numAt p 15 2])
  | 82 => form p 6 (.writeKitchen tag (numAt p 0 1) (numAt p 1 2) (numAt p 3 2) (numAt p 5 1))
  | 83 => form p 3 (.setStaffing tag (numAt p 0 1) (if byteAt p 1 = 1 then none else some (numAt p 2 1)))
  | 84 => form p 1 (.readKitchen tag (numAt p 0 1))
  | 85 => form p 4 (.readWindow tag (numAt p 0 1) (numAt p 1 3))
  | 96 => form p 11 (.order tag (handleAt p 0) (numAt p 4 1) (numAt p 5 2) (numAt p 7 4))
  | 97 => form p 14 (.amendOrder tag (amendOrderArgsOf p))
  | 98 => form p 4 (.cancelOrder tag (handleAt p 0))
  | 99 => form p 4 (.readOrder tag (handleAt p 0))
  | 112 => form p 4 (.setLine tag (numAt p 0 1) (numAt p 1 1) (numAt p 2 1) (numAt p 3 1))
  | 113 => form p 1 (.restartLine tag (numAt p 0 1))
  | 114 => form p 5 (.writeNode tag (numAt p 0 1) (numAt p 1 1) (numAt p 2 1) (numAt p 3 2))
  | 115 => form p 2 (.readNode tag (numAt p 0 1) (numAt p 1 1))
  | 128 => form p 3 (.readNotices tag (numAt p 0 1) (numAt p 1 2))
  | 129 => form p 18 (.setNoticeMask tag
      #v[byteAt p 0, byteAt p 1, byteAt p 2, byteAt p 3, byteAt p 4, byteAt p 5, byteAt p 6, byteAt p 7, byteAt p 8,
        byteAt p 9, byteAt p 10, byteAt p 11, byteAt p 12, byteAt p 13, byteAt p 14, byteAt p 15, byteAt p 16,
        byteAt p 17])
  | 130 => form p 0 (.noticeSummary tag)
  | _ => .badCommand

/-- The judgement of a command frame, marker byte included, in the order of R178: the check and the number of bytes,
then the code, then the payload length of the command's form. -/
def judgeFrame (bytes : List Byte) : Judged :=
  match bytes with
  | _ :: code :: tag :: lenHigh :: lenLow :: rest =>
    let len := ofBytes [lenHigh, lenLow]
    if rest.length = len + 2 ∧ rest.drop len = crcBytes (code :: tag :: lenHigh :: lenLow :: rest.take len) then
      decodeCommand code tag (rest.take len)
    else .badFrame
  | _ => .badFrame

/-- An item that may be absent: its presence byte and then its bytes, all 0 when it is absent (R186). -/
def optBytes (len : Nat) (v : Option Nat) : List Byte :=
  match v with
  | none => 0 :: List.replicate len 0
  | some x => 1 :: be len x

/-- A handle as it travels (R185). -/
def handleBytes (h : Handle) : List Byte := h.kind :: h.gen :: be 2 h.slot

/-- The payload of HOLD and BOOK up to the title (R186). -/
def bookArgsBytes (a : BookArgs) : List Byte :=
  be 2 a.room ++ be 4 a.start ++ be 4 a.stop ++ be 1 a.cls ++ be 2 a.attendees ++ be 4 a.organizer ++ a.title.toList

/-- The payload of WRITE_ROOM's ordinary form (R186). -/
def writeRoomArgsBytes (a : WriteRoomArgs) : List Byte :=
  be 1 0 ++ be 2 a.room ++ a.name.toList ++ be 1 a.building ++ be 2 a.seats ++ optBytes 1 a.kitchen ++ be 1 a.gap ++
  be 1 a.lead ++ be 1 a.grace ++ be 1 a.vacate ++ [a.flags] ++ be 1 a.memberCount ++
  a.memberFields.toList.flatMap (be 2)

/-- A server command's code in the command index, its tag and its payload (R186); none for the part's own steps and
for the events of its pins and lines, which are no commands of the server. -/
def Instr.wire (i : Instr) : Option (Byte × Byte × List Byte) :=
  match i with
  | .setClock t v => some (1, t, be 4 v)
  | .readClock t => some (2, t, [])
  | .poolStatus t => some (16, t, [])
  | .setReserve t f => some (17, t, be 2 f)
  | .setHorizon t d => some (18, t, be 1 d)
  | .clearAll t => some (19, t, [])
  | .writeRoom t a => some (32, t, writeRoomArgsBytes a)
  | .writeRoomRemove t r => some (32, t, be 1 1 ++ be 2 r)
  | .readRoom t r => some (33, t, be 2 r)
  | .setRoomService t true r => some (34, t, be 1 0 ++ be 2 r)
  | .setRoomService t false r => some (34, t, be 1 1 ++ be 2 r)
  | .closeAndCancel t r => some (34, t, be 1 2 ++ be 2 r)
  | .hold t a h => some (48, t, bookArgsBytes a ++ be 1 h)
  | .book t a => some (49, t, bookArgsBytes a)
  | .confirm t h c => some (50, t, handleBytes h ++ optBytes 1 c)
  | .amend t a =>
    some (51, t, handleBytes a.handle ++ optBytes 4 a.start ++ optBytes 4 a.stop ++ optBytes 2 a.attendees ++
      (match a.title with
        | none => 0 :: List.replicate 16 0
        | some x => 1 :: x.toList))
  | .cancel t h => some (52, t, handleBytes h)
  | .readBooking t h => some (53, t, handleBytes h)
  | .lookupAt t r m => some (64, t, be 2 r ++ be 4 m)
  | .listRoom t r c a => some (65, t, be 2 r ++ be 1 c ++ optBytes 4 a)
  | .findRooms t a =>
    some (66, t, be 1 (a.building.getD 255) ++ be 2 a.seats ++ be 4 a.start ++ be 4 a.stop ++ be 2 a.fromRoom ++
      [if a.combined then 1 else 0])
  | .writeMenuClass t c w s l => some (80, t, be 1 c ++ be 1 w ++ be 1 s ++ be 1 l)
  | .writeBanks t k b => some (81, t, be 1 k ++ b.toList.flatMap (be 2))
  | .writeKitchen t k o c f => some (82, t, be 1 k ++ be 2 o ++ be 2 c ++ be 1 f)
  | .setStaffing t k none => some (83, t, be 1 k ++ [1, 0])
  | .setStaffing t k (some l) => some (83, t, be 1 k ++ 0 :: be 1 l)
  | .readKitchen t k => some (84, t, be 1 k)
  | .readWindow t k w => some (85, t, be 1 k ++ be 3 w)
  | .order t h c n d => some (96, t, handleBytes h ++ be 1 c ++ be 2 n ++ be 4 d)
  | .amendOrder t a =>
    some (97, t, handleBytes a.handle ++ optBytes 2 a.headcount ++ optBytes 1 a.menuClass ++ optBytes 4 a.delivery)
  | .cancelOrder t h => some (98, t, handleBytes h)
  | .readOrder t h => some (99, t, handleBytes h)
  | .setLine t l st ms r => some (112, t, be 1 l ++ be 1 st ++ be 1 ms ++ be 1 r)
  | .restartLine t l => some (113, t, be 1 l)
  | .writeNode t l n k g => some (114, t, be 1 l ++ be 1 n ++ be 1 k ++ be 2 g)
  | .readNode t l n => some (115, t, be 1 l ++ be 1 n)
  | .readNotices t i n => some (128, t, be 1 i ++ be 2 n)
  | .setNoticeMask t m => some (129, t, m.toList)
  | .noticeSummary t => some (130, t, [])
  | .hardReset | .poolInitComplete | .elapsedSecond | .secondPulse _ | .bkeMinuteAdvance | .minuteWalkStep
  | .windowRoll _ | .sheddingStep _ | .promotingStep _ | .closeWalkStep _ | .clearSlotVisit | .clearAllComplete
  | .findRoomsScanStep | .visitStart _ | .panelAnswer _ _ | .terminalAnswer _ _ | .badAnswer _ _ | .visitTimeout _
  | .frameDiscarded _ _ | .motionReport _ _ | .motionCheckIn _ _ | .checkIn _ _ | .extend _ _ | .release _ _
  | .walkUp _ _ | .requestResult _ _ | .terminalReport _ | .terminalLoss _ | .noticeRaise _ | .commandWrite _
  | .overrun _ | .readOut _ | .ignoredTransaction _ => none

/-- The command frame of a server command: marker 165, code, tag, payload length, payload, check (R184, R186). -/
def encodeFrame (i : Instr) : Option (List Byte) :=
  i.wire.map fun w => sealFrame 165 (w.1 :: w.2.1 :: be 2 w.2.2.length ++ w.2.2)

/-- The command that a word spells by the bits of spec/opcode_table.json. No row of the table has bits. -/
def decodeTableWord (_nbits _w : Nat) : Option Instr := none

end Sys2Proof
end

