-- ==== Sys2Proof/Machine/State.lean ====
section
/-! DEFINITION. The state of the part, block by block, as plain data, and `State.reset`, the part right after hard
reset. Each structure cites the table of the manual whose rows its fields are. A link from a record to the next on
its list (a free slot's next-slot, a booking's next, an order's annex link and kitchen link) is held as the order of
that list (log entry 3). -/

namespace Sys2Proof.Machine

open Sys2Proof

/-! ## CLK, the campus clock (R1) -/

/-- The clock states (R1). -/
inductive ClockState where
  | unset | running | stopped
  deriving DecidableEq, Repr

/-- The items of CLK (R1): its state, the campus minute "now", the seconds within the minute and the last jump.
`uncounted` is the model's own: the elapsed second that completes a minute arrived with the SET_CLOCK just taken, and is
not counted when it is taken (R7; log entry 31). -/
structure Clock where
  state : ClockState
  minute : Nat
  seconds : Nat
  lastJump : Option (Nat × Nat)
  uncounted : Bool := false
  deriving DecidableEq, Repr

/-- CLK after hard reset (R1). -/
def Clock.reset : Clock := { state := .unset, minute := 0, seconds := 0, lastJump := none }

/-! ## The records held in pool slots (R48, R127) -/

/-- The priority classes, highest first (00_scope.md, Priority classes). -/
inductive Prio where
  | executive | standard | casual | walkup
  deriving DecidableEq, Repr

/-- The states of a booking (R49). -/
inductive BookingState where
  | held | booked | arriving | inUse
  deriving DecidableEq, Repr

/-- A booking record (R48). Its generation is the slot's; its `next` is the order of its room's chain; `annex` is
the annex chain. `stop` is the manual's "end". -/
structure Booking where
  room : RoomNo
  start : Nat
  stop : Nat
  cls : Prio
  state : BookingState
  checkedIn : Bool
  checkInMinute : Option Nat
  holdExpiry : Option Nat
  extensions : Nat
  attendees : Nat
  organizer : Nat
  title : Text
  annex : List SlotNo
  deriving DecidableEq, Repr

/-- The states of an order (R127, R128). -/
inductive OrderState where
  | waitlisted | confirmed | queued | ticketed | accepted | done | lapsed | voiding
  deriving DecidableEq, Repr

/-- Why an order waits (R127). -/
inductive WaitReason where
  | noFit | shed | pass
  deriving DecidableEq, Repr

/-- An order record (R127). `shares` is empty where the manual has them absent; `wait` is the waitlist stamp with
the reason, present in WAITLISTED. -/
structure Order where
  owner : Option Handle
  room : RoomNo
  kitchen : KitchenNo
  menuClass : Fin 16
  headcount : Nat
  delivery : Nat
  load : Nat
  prepStart : Nat
  shares : List (Nat × Nat)
  admission : Option Nat
  wait : Option (Nat × WaitReason)
  state : OrderState
  deriving DecidableEq, Repr

/-! ## RPL, the record pool (R14) -/

/-- What a slot holds; the constructor is the slot's kind (R14). -/
inductive SlotBody where
  | free
  | booking (b : Booking)
  | order (o : Order)
  deriving DecidableEq, Repr

/-- A slot of the pool: its generation and what it holds (R14). -/
structure Slot where
  gen : Byte
  body : SlotBody
  deriving DecidableEq, Repr

/-- A slot after hard reset: kind FREE, generation 0 (R14, R22). -/
def Slot.reset : Slot := { gen := 0, body := .free }

/-- The pool states (R22); CLEARING carries the next slot that CLEAR_ALL will visit and the records returned so far,
bookings and orders (R25, R27). DESIGN CHOICE: the three are held in CLEARING alone (log entry 24). -/
inductive PoolState where
  | initializing
  | ready
  | clearing (next bookings orders : Nat)
  deriving DecidableEq, Repr

/-- The items of RPL (table "Slots" of chapter 2). `freeList` runs from its head. -/
structure Pool where
  state : PoolState
  slots : Vector Slot 32768
  freeList : List SlotNo
  freeCount : Nat
  floor : Nat
  lowArmed : Bool
  horizon : Nat
  deriving DecidableEq, Repr

/-- The slot numbers `start`, `start + 1`, …: `count` of them. -/
def slotsFrom : (count start : Nat) → List SlotNo
  | 0, _ => []
  | count + 1, start => Fin.ofNat 32768 start :: slotsFrom count (start + 1)

/-- Every slot in ascending order, slot 0 at the head (R22, R27). -/
def allSlots : List SlotNo := slotsFrom 32768 0

/-- RPL after hard reset (R22): INITIALIZING, every slot FREE with generation 0, free count 0 while linking. -/
def Pool.reset : Pool :=
  { state := .initializing, slots := Vector.replicate 32768 Slot.reset, freeList := allSlots, freeCount := 0,
    floor := 256, lowArmed := true, horizon := 60 }

/-! ## RTB, the room table (R31) -/

/-- The service states of a room (R31). -/
inductive Service where
  | undefined | inService | outOfService | closing
  deriving DecidableEq, Repr

/-- The reasons of retirement (R68). -/
inductive Reason where
  | ended | skipped | holdExpired | noShow | vacated | doorRelease | cancelled | closed
  deriving DecidableEq, Repr

/-- The attributes of a room, written whole by WRITE_ROOM (R31, R34). -/
structure RoomAttrs where
  name : Text
  building : Nat
  seats : Nat
  kitchen : Option KitchenNo
  gap : Nat
  lead : Nat
  grace : Nat
  vacate : Nat
  autoRelease : Bool
  motionCheckIn : Bool
  compact : Bool
  members : Option (List RoomNo)
  deriving DecidableEq, Repr

/-- The attributes after hard reset (R31). -/
def RoomAttrs.reset : RoomAttrs :=
  { name := Vector.replicate 16 32, building := 0, seats := 1, kitchen := none, gap := 0, lead := 5, grace := 10,
    vacate := 0, autoRelease := false, motionCheckIn := false, compact := false, members := none }

/-- A room entry (R31). `chain` is the room's booking chain, its head first; the notice set is in `Notices`. -/
structure Room where
  attrs : RoomAttrs
  service : Service
  memberships : List RoomNo
  chain : List SlotNo
  turnaround : Option Nat
  lastRelease : Option (Reason × Nat)
  lastMotion : Option Nat
  deriving DecidableEq, Repr

/-- A room entry after hard reset (R31). -/
def Room.reset : Room :=
  { attrs := RoomAttrs.reset, service := .undefined, memberships := [], chain := [], turnaround := none,
    lastRelease := none, lastMotion := none }

/-! ## KLU, the kitchens (R100, R104) -/

/-- An entry of the menu class table (R104). -/
structure MenuClass where
  weight : Nat
  setup : Nat
  lead : Nat
  deriving DecidableEq, Repr

/-- A menu class after hard reset (R104). -/
def MenuClass.reset : MenuClass := { weight := 0, setup := 0, lead := 1 }

/-- An entry of a window ring (R110). -/
structure RingEntry where
  window : Option Nat
  units : Nat
  deriving DecidableEq, Repr

/-- The place of the last order examined by a PROMOTING walk: class, waitlist stamp and, for equal stamps, slot. -/
structure WaitPlace where
  cls : Prio
  stamp : Nat
  slot : SlotNo
  deriving DecidableEq, Repr

/-- The state of a pass engine with the cursor that belongs to it (R100, R117, R118). DESIGN CHOICE: the window cursor is
held in SHEDDING alone and the waitlist cursor in PROMOTING alone; in IDLE, and so after hard reset and CLEAR_ALL, where
R100 gives the two no value, there is none (log entry 24). -/
inductive PassState where
  | idle
  | shedding (cursor : Nat)
  | promoting (cursor : Option WaitPlace)
  deriving DecidableEq, Repr

/-- A kitchen record (R100). `opens` and `closes` are the manual's "open" and "close". -/
structure Kitchen where
  banks : Vector Nat 8
  opens : Nat
  closes : Nat
  fallback : Fin 8
  override : Option (Fin 8)
  reported : Option (Fin 8)
  terminal : Option (LineNo × NodeNo)
  online : Bool
  active : Fin 8
  ring : Vector RingEntry 336
  waitlist : List SlotNo
  pass : PassState
  restart : Bool
  again : Bool
  admissions : Nat
  waits : Nat
  deriving DecidableEq, Repr

/-- A kitchen record after hard reset (R100). -/
def Kitchen.reset : Kitchen :=
  { banks := Vector.replicate 8 0, opens := 0, closes := 1440, fallback := 0, override := none, reported := none,
    terminal := none, online := false, active := 0, ring := Vector.replicate 336 { window := none, units := 0 },
    waitlist := [], pass := .idle, restart := false, again := false, admissions := 0, waits := 0 }

/-! ## OTU, the ticket queues (R137) -/

/-- The kinds of frame that the part sends to a node (R146). -/
inductive FrameKind where
  | poll | page | ticket | voided
  deriving DecidableEq, Repr

/-- An entry of a ticket queue: an order's slot, waiting as a ticket or as a void (R137). -/
structure QueueEntry where
  slot : SlotNo
  asVoid : Bool
  deriving DecidableEq, Repr

/-- A kitchen's ticket queue: its entries from the head, and the frame in flight, the handle of the head entry and
whether a VOID was sent for it (R137). -/
structure TicketQueue where
  entries : List QueueEntry
  inFlight : Option (Handle × Bool)
  deriving DecidableEq, Repr

/-- A ticket queue after hard reset (R137). -/
def TicketQueue.reset : TicketQueue := { entries := [], inFlight := none }

/-! ## LCA to LCD, the line controllers (R146, R147) -/

/-- The results of the panel requests, with what each carries (chapter 5, Panel requests). -/
inductive PanelResult where
  | checkedIn | already | extended (newEnd : Nat) | extConflict | extLimit | released | booked (stop : Nat)
  | tooShort | turnaround | poolEmpty | nothing | closed | busy
  deriving DecidableEq, Repr

/-- The kind of a node with its target (R147). -/
inductive NodeKind where
  | unused
  | panel (r : RoomNo)
  | terminal (k : KitchenNo)
  deriving DecidableEq, Repr

/-- The node states (R147). -/
inductive NodeState where
  | unknown | online | silent
  deriving DecidableEq, Repr

/-- A node entry (R147). -/
structure Node where
  kind : NodeKind
  state : NodeState
  misses : Nat
  stale : Bool
  age : Nat
  pendingResult : Option PanelResult
  carried : Bool
  compact : Bool
  timeChange : Option Nat
  deriving DecidableEq, Repr

/-- A node entry after hard reset (R147). -/
def Node.reset : Node :=
  { kind := .unused, state := .unknown, misses := 0, stale := false, age := 0, pendingResult := none,
    carried := false, compact := false, timeChange := none }

/-- A visit in flight: the node, the kind of frame sent and the timeout the visit began with (R146, R148). -/
structure Visit where
  node : NodeNo
  frame : FrameKind
  timeout : Nat
  deriving DecidableEq, Repr

/-- A line with its node table (R146). `sent` is the model's record of the last frame driven on the line's
transmit pin (log entry 5). -/
structure Line where
  running : Bool
  timeout : Nat
  refresh : Nat
  sweepCount : Nat
  sweepPos : Option NodeNo
  visit : Option Visit
  nodes : Vector Node 100
  sent : List Byte
  deriving DecidableEq, Repr

/-- A line after hard reset (R146). -/
def Line.reset : Line :=
  { running := false, timeout := 5, refresh := 60, sweepCount := 0, sweepPos := none, visit := none,
    nodes := Vector.replicate 100 Node.reset, sent := [] }

/-! ## SVP: notices (R181) and the port (R177) -/

/-- The notice sets and masks kept by SVP and the NOTICE line (R181); a set lists its kinds in the order of the
notice table (log entry 33), `masks` is true for a masked kind. -/
structure Notices where
  rooms : Vector (List RoomNotice) 384
  kitchens : Vector (List KitchenNotice) 8
  part : List PartNotice
  masks : Vector Bool 18
  line : Bool
  deriving DecidableEq, Repr

/-- The notices after hard reset: every set empty, every kind masked, NOTICE low (R181). -/
def Notices.reset : Notices :=
  { rooms := Vector.replicate 384 [], kitchens := Vector.replicate 8 [], part := [],
    masks := Vector.replicate 18 true, line := false }

/-- The status codes of a response (chapter 11, Status codes). -/
inductive Status where
  | ok | clamped | warnSeats | waitlisted | started
  | busy | notReady | clockUnset | clockBackward | badFrame | badCommand | limit | badValue | badRoom | roomClosed
  | roomNotEmpty | badTime | conflict | poolLow | poolEmpty | stale | wrongKind | wrongState | ordersAttached | horizon
  | tooLate | noFit | noTerminal | badKitchen | passBusy | lineRunning | nodeInUse | badNode
  deriving DecidableEq, Repr

/-- A response waiting in the buffer: the code and tag it echoes, its status and its payload (R177, R184). -/
structure Response where
  code : Byte
  tag : Byte
  status : Status
  payload : List Byte
  deriving DecidableEq, Repr

/-- The port states (R177). EXECUTING names the command and whether its owner has taken it: not yet, between the
command write and the owner's event; yes, while a time-taking command runs (R179). -/
inductive PortState where
  | idle
  | executing (cmd : Instr) (taken : Bool)
  | answerReady
  deriving DecidableEq, Repr

/-- The items of the server port (R177, R180) with its output pins: READY, and the bytes of the last read-out on
MISO (log entry 5). -/
structure Port where
  state : PortState
  buffer : Option Response
  overrun : Bool
  fresh : Bool
  ready : Bool
  miso : List Byte
  deriving DecidableEq, Repr

/-- The port after hard reset (R177, R180). -/
def Port.reset : Port :=
  { state := .idle, buffer := none, overrun := false, fresh := true, ready := false, miso := [] }

/-! ## BKE's minute walk (R76), SRU's scan (R96) -/

/-- BKE's minute walk: `next` is the next room while WALKING and absent while IDLE (R76). DESIGN CHOICE: the next room is
held in WALKING alone, and its presence is the walk state; R76 gives it no value after hard reset and in IDLE, and there
is none (log entry 24). -/
structure Walk where
  next : Option RoomNo
  rewalk : Bool
  deriving DecidableEq, Repr

/-- The FIND_ROOMS scan in flight (R96). DESIGN CHOICE: its items are held while it is in flight alone (log entry 24). -/
structure Scan where
  start : Nat
  stop : Nat
  building : Option Nat
  seats : Nat
  combined : Bool
  next : RoomNo
  found : List RoomNo
  deriving DecidableEq, Repr

/-! ## What one block has handed to another and the other has not yet taken (log entry 4) -/

/-- The requests of a door panel (R174). -/
inductive Request where
  | checkIn | extend | release | walkUp
  deriving DecidableEq, Repr

/-- What a good panel answer hands on, for the room its node names (R156 step 4, R172, R173, R174). A motion count goes
with the minute at which the answer was taken, which is the minute set (R172). -/
inductive PanelItem where
  | motion (count minute : Nat)
  | motionCheckIn
  | request (q : Request)
  deriving DecidableEq, Repr

/-- A panel hand-off waiting at the room table or the booking engine. -/
structure PanelHandoff where
  line : LineNo
  node : NodeNo
  room : RoomNo
  item : PanelItem
  deriving DecidableEq, Repr

/-- A result handed back by the booking engine and waiting at the line controller (R161). -/
structure ResultHandoff where
  line : LineNo
  node : NodeNo
  room : RoomNo
  result : PanelResult
  deriving DecidableEq, Repr

/-- The hand-offs waiting to be taken, oldest first: the clock's minute advances (old, new) at BKE and at each
kitchen (R5), its second pulses at each line (R3), the items of panel answers, and the results of requests. What a
terminal answer or a loss hands KLU never waits: KLU acts in the same event (R158). -/
structure Mail where
  bkeAdvances : List (Nat × Nat)
  kluAdvances : Vector (List (Nat × Nat)) 8
  pulses : Vector Nat 4
  panel : List PanelHandoff
  results : List ResultHandoff
  deriving DecidableEq, Repr

/-- No hand-off waits after hard reset. -/
def Mail.reset : Mail :=
  { bkeAdvances := [], kluAdvances := Vector.replicate 8 [], pulses := Vector.replicate 4 0, panel := [],
    results := [] }

/-! ## The whole state -/

/-- The records that the events of several blocks share: pool, rooms, kitchens, ticket queues, lines and notices.
What an event does to them never touches the rest of the state. -/
structure Records where
  pool : Pool
  rooms : Vector Room 384
  kitchens : Vector Kitchen 8
  queues : Vector TicketQueue 8
  lines : Vector Line 4
  notices : Notices
  deriving DecidableEq, Repr

/-- The records after hard reset. -/
def Records.reset : Records :=
  { pool := Pool.reset, rooms := Vector.replicate 384 Room.reset, kitchens := Vector.replicate 8 Kitchen.reset,
    queues := Vector.replicate 8 TicketQueue.reset, lines := Vector.replicate 4 Line.reset, notices := Notices.reset }

/-- The whole part. `freeDraws` counts the free values drawn and `pending` is the queue of the commands that wait,
first in, first out; both are the model's own fields (log entries 2 and 12). -/
structure State where
  clk : Clock
  recs : Records
  menu : Vector MenuClass 16
  walk : Walk
  scan : Option Scan
  port : Port
  mail : Mail
  freeDraws : Nat
  pending : List Instr
  deriving DecidableEq, Repr

/-- The part right after hard reset, with no command waiting. -/
def State.reset : State :=
  { clk := Clock.reset, recs := Records.reset, menu := Vector.replicate 16 MenuClass.reset,
    walk := { next := none, rewalk := false }, scan := none, port := Port.reset, mail := Mail.reset, freeDraws := 0,
    pending := [] }

/-- The part raises no fault: every command it can receive has an effect the manual gives, a refusal being a
response status. The type is empty. -/
inductive Fault where
  deriving DecidableEq, Repr

/-- Why a command has no meaning in this model. -/
inductive Refusal where
  /-- Raised by an arm of `exec` for a command without a meaning; safe, since the machine stops. No arm raises it. -/
  | notModelled (mnemonic : String)
  deriving DecidableEq, Repr

end Sys2Proof.Machine
end

