-- ==== Sys2Proof/Machine/Operands.lean ====
section
/-! DEFINITION. The operand forms of the commands: the grain of times, the numbers that name rooms, kitchens, lines
and nodes, the class byte and the headcount. -/

namespace Sys2Proof.Machine

open Sys2Proof

/-- The greatest multiple of 5 not above `m` (R11). -/
def floor5 (m : Nat) : Nat := m / 5 * 5

/-- The least multiple of 5 not below `m` (R11). -/
def ceil5 (m : Nat) : Nat := (m + 4) / 5 * 5

/-- The catering window in which minute `m` lies (R12). -/
def windowOf (m : Nat) : Nat := m / 30

/-- The current window w0 (R12). -/
def Clock.w0 (c : Clock) : Nat := windowOf c.minute

/-- The room that a number names, if it is within 0..383. -/
def roomNo? (n : Nat) : Option RoomNo := if h : n < 384 then some ⟨n, h⟩ else none

/-- The kitchen that a number names, if it is within 0..7. -/
def kitchenNo? (n : Nat) : Option KitchenNo := if h : n < 8 then some ⟨n, h⟩ else none

/-- The line that a line byte names, 0 for A to 3 for D (R186). -/
def lineNo? (n : Nat) : Option LineNo := if h : n < 4 then some ⟨n, h⟩ else none

/-- The node entry that a node number 1..100 names (R147). -/
def nodeNo? (n : Nat) : Option NodeNo := if h : 1 ≤ n ∧ n ≤ 100 then some ⟨n - 1, by omega⟩ else none

/-- The slot that a handle's slot field names; a field above 32,767 names none (R185). -/
def slotNo? (n : Nat) : Option SlotNo := if h : n < 32768 then some ⟨n, h⟩ else none

/-- A staffing level 0..7. -/
def level? (n : Nat) : Option (Fin 8) := if h : n < 8 then some ⟨n, h⟩ else none

/-- A menu class 0..15. -/
def menuNo? (n : Nat) : Option (Fin 16) := if h : n < 16 then some ⟨n, h⟩ else none

/-- The class byte of HOLD, BOOK and CONFIRM: 0 EXECUTIVE, 1 STANDARD, 2 CASUAL (R186). -/
def prio? (n : Nat) : Option Prio :=
  if n = 0 then some .executive else if n = 1 then some .standard else if n = 2 then some .casual else none

/-- The rank of a class, 0 for the highest (00_scope.md, Priority classes). -/
def Prio.rank : Prio → Nat
  | .executive => 0
  | .standard => 1
  | .casual => 2
  | .walkup => 3

/-- The headcount stored for a supplied value, and whether it was clamped (R130): 0 takes the booking's attendees,
and a number above 250 is stored as 250. -/
def formHeadcount (supplied attendees : Nat) : Nat × Bool :=
  let n := if supplied = 0 then attendees else supplied
  (min n 250, decide (250 < n))

/-- Whether the rounded times [s, e) of a new booking are accepted with `now` and horizon `h` days (R59). -/
def newTimesOk (now h s e : Nat) : Bool :=
  decide (floor5 now ≤ s) && decide (s + 15 ≤ e) && decide (e ≤ s + 720) && decide (s < now + h * 1440)

/-- The booking state and class of a text field: "WALK-UP", filled with spaces (R48). -/
def walkupTitle : Text := #v[87, 65, 76, 75, 45, 85, 80, 32, 32, 32, 32, 32, 32, 32, 32, 32]

/-- The title shown for a HELD booking, "HELD" filled with spaces (R166; the fill: log entry 10). -/
def heldTitle : Text := #v[72, 69, 76, 68, 32, 32, 32, 32, 32, 32, 32, 32, 32, 32, 32, 32]

/-- The organizer tag is 32 bits and is not interpreted (R48). -/
def organizerTag (n : Nat) : Nat := n % 4294967296

/-- The handle of a slot's record: its kind byte, the slot's generation and the slot (R15, R185). -/
def handleFor (kind gen : Byte) (sl : SlotNo) : Handle := { kind := kind, gen := gen, slot := sl.val }

/-- The kind byte of a BOOKING handle (R185). -/
def bookingKind : Byte := 1

/-- The kind byte of an ORDER handle (R185). -/
def orderKind : Byte := 2

end Sys2Proof.Machine
end

