-- ==== Sys2Proof/Machine/Flags.lean ====
section
/-! DEFINITION. The sticky flags: the notice sets and the NOTICE line (R181), and the stale flags of the panel
nodes (R159), with the plain reads and writes of the record tables that these and all later operations use. -/

namespace Sys2Proof

/-- The room kinds in the order of the notice table. -/
def RoomNotice.all : List RoomNotice :=
  [.noShow, .vacated, .doorRelease, .holdExpired, .walkup, .extended, .orderShed, .orderPromoted, .orderLapsed,
   .orderDone, .panelSilent, .panelBack, .closeDone]

/-- The kitchen kinds in the order of the notice table. -/
def KitchenNotice.all : List KitchenNotice := [.terminalSilent, .terminalBack, .levelChanged]

/-- The part-wide kinds in the order of the notice table. -/
def PartNotice.all : List PartNotice := [.poolLow, .clockEnd]

/-- The number of a room kind in the notice table, 0..12. -/
def RoomNotice.num : RoomNotice → Fin 18
  | .noShow => 0 | .vacated => 1 | .doorRelease => 2 | .holdExpired => 3 | .walkup => 4 | .extended => 5
  | .orderShed => 6 | .orderPromoted => 7 | .orderLapsed => 8 | .orderDone => 9 | .panelSilent => 10
  | .panelBack => 11 | .closeDone => 12

/-- The number of a kitchen kind in the notice table, 13..15. -/
def KitchenNotice.num : KitchenNotice → Fin 18
  | .terminalSilent => 13 | .terminalBack => 14 | .levelChanged => 15

/-- The number of a part-wide kind in the notice table, 16 and 17. -/
def PartNotice.num : PartNotice → Fin 18
  | .poolLow => 16 | .clockEnd => 17

end Sys2Proof

namespace Sys2Proof.Machine

open Sys2Proof

/-! ## Reads and writes of the tables -/

/-- Room `r`'s entry. -/
def Records.room (b : Records) (r : RoomNo) : Room := b.rooms[r.val]

/-- Room `r`'s entry replaced. -/
def Records.setRoom (b : Records) (r : RoomNo) (x : Room) : Records := { b with rooms := b.rooms.set r.val x }

/-- Kitchen `k`'s record. -/
def Records.kitchen (b : Records) (k : KitchenNo) : Kitchen := b.kitchens[k.val]

/-- Kitchen `k`'s record replaced. -/
def Records.setKitchen (b : Records) (k : KitchenNo) (x : Kitchen) : Records :=
  { b with kitchens := b.kitchens.set k.val x }

/-- Kitchen `k`'s ticket queue. -/
def Records.queue (b : Records) (k : KitchenNo) : TicketQueue := b.queues[k.val]

/-- Kitchen `k`'s ticket queue replaced. -/
def Records.setQueue (b : Records) (k : KitchenNo) (x : TicketQueue) : Records :=
  { b with queues := b.queues.set k.val x }

/-- Line `l`. -/
def Records.line (b : Records) (l : LineNo) : Line := b.lines[l.val]

/-- Line `l` replaced. -/
def Records.setLine (b : Records) (l : LineNo) (x : Line) : Records := { b with lines := b.lines.set l.val x }

/-- Node `n` of a line. -/
def Line.node (l : Line) (n : NodeNo) : Node := l.nodes[n.val]

/-- Node `n` of a line replaced. -/
def Line.setNode (l : Line) (n : NodeNo) (x : Node) : Line := { l with nodes := l.nodes.set n.val x }

/-- Slot `sl` of the pool. -/
def Records.slot (b : Records) (sl : SlotNo) : Slot := b.pool.slots[sl.val]

/-- Slot `sl` given new contents, its generation kept (R14). -/
def Records.setBody (b : Records) (sl : SlotNo) (x : SlotBody) : Records :=
  { b with pool := { b.pool with slots := b.pool.slots.set sl.val { (b.slot sl) with body := x } } }

/-- The booking that slot `sl` holds, if it holds one. -/
def Records.booking? (b : Records) (sl : SlotNo) : Option Booking :=
  match (b.slot sl).body with
  | .booking k => some k
  | .free => none
  | .order _ => none

/-- The order that slot `sl` holds, if it holds one. -/
def Records.order? (b : Records) (sl : SlotNo) : Option Order :=
  match (b.slot sl).body with
  | .order o => some o
  | .free => none
  | .booking _ => none

/-- The handle of the booking in slot `sl` (R15). -/
def Records.bookingHandle (b : Records) (sl : SlotNo) : Handle := handleFor bookingKind (b.slot sl).gen sl

/-- The handle of the order in slot `sl` (R15). -/
def Records.orderHandle (b : Records) (sl : SlotNo) : Handle := handleFor orderKind (b.slot sl).gen sl

/-! ## Notices (R181) -/

/-- A set with a kind added: the kinds present, in the order of `all`; a kind already present adds nothing (R181).
DESIGN CHOICE: the spec gives no order for the kinds of a set in a response, and the model lists them ascending by the
notice table (R182; log entry 33). -/
def addKind {α : Type} [DecidableEq α] (all : List α) (k : α) (set : List α) : List α :=
  all.filter fun x => decide (x = k) || decide (x ∈ set)

/-- Whether a kind is unmasked (R181). -/
def Notices.unmasked (n : Notices) (kind : Fin 18) : Bool := !n.masks[kind.val]

/-- Whether some set holds an unmasked kind: the level of NOTICE (R181). -/
def Notices.level (n : Notices) : Bool :=
  n.part.any (fun p => n.unmasked p.num) || n.kitchens.toList.any (fun ks => ks.any fun k => n.unmasked k.num) ||
  n.rooms.toList.any (fun rs => rs.any fun r => n.unmasked r.num)

/-- NOTICE formed afresh (R181). -/
def Notices.form (n : Notices) : Notices := { n with line := n.level }

/-- A kind added to its set, and NOTICE formed afresh (R181). -/
def Notices.raise (n : Notices) (x : RaisedNotice) : Notices :=
  match x with
  | .room r k => ({ n with rooms := n.rooms.set r.val (addKind RoomNotice.all k n.rooms[r.val]) }).form
  | .kitchen c k => ({ n with kitchens := n.kitchens.set c.val (addKind KitchenNotice.all k n.kitchens[c.val]) }).form
  | .part k => ({ n with part := addKind PartNotice.all k n.part }).form

/-- A notice raised (R181). -/
def Records.raise (b : Records) (x : RaisedNotice) : Records := { b with notices := b.notices.raise x }

/-! ## Stale flags (R39, R159) -/

/-- Whether a node is a PANEL node that names one of `rs`. -/
def Node.shows (n : Node) (rs : List RoomNo) : Bool :=
  match n.kind with
  | .panel r => decide (r ∈ rs)
  | .unused => false
  | .terminal _ => false

/-- Whether a node is a PANEL node. -/
def Node.isPanel (n : Node) : Bool :=
  match n.kind with
  | .panel _ => true
  | .unused => false
  | .terminal _ => false

/-- A node with its stale flag set. -/
def Node.mark (n : Node) : Node := { n with stale := true }

/-- Every PANEL node, on every line, that names one of `rs` marked stale (R39). -/
def Records.markRooms (b : Records) (rs : List RoomNo) : Records :=
  { b with lines := b.lines.map fun l => { l with nodes := l.nodes.map fun n => if n.shows rs then n.mark else n } }

/-- Every PANEL node of a line marked stale. -/
def Line.markPanels (l : Line) : Line :=
  { l with nodes := l.nodes.map fun n => if n.isPanel then n.mark else n }

/-- Every PANEL node of every line marked stale (R24, R27, R169). -/
def Records.markAllPanels (b : Records) : Records := { b with lines := b.lines.map Line.markPanels }

/-- The rooms whose PANEL nodes show room `r`: itself and, when it is combined, its members (R39). -/
def Records.shownOn (b : Records) (r : RoomNo) : List RoomNo := r :: (b.room r).attrs.members.getD []

/-- The panels showing room `r` marked stale (R39). -/
def Records.markShowing (b : Records) (r : RoomNo) : Records := b.markRooms (b.shownOn r)

end Sys2Proof.Machine
end

