-- ==== Sys2Proof/Machine/Ops.lean ====
section
/-! DEFINITION. The shared operations over the pool, the rooms and their chains: allocation and return of slots, the
handle check, conflict sets, views, counting as retired, the reported state and the conflict test. -/

namespace Sys2Proof.Machine

open Sys2Proof

/-! ## The pool (R15, R16, R18, R19, R20) -/

/-- The kind byte of what a slot holds; none for a FREE slot. -/
def SlotBody.kind? : SlotBody → Option Byte
  | .free => none
  | .booking _ => some bookingKind
  | .order _ => some orderKind

/-- Whether the pool is READY. -/
def Pool.isReady (p : Pool) : Bool :=
  match p.state with
  | .ready => true
  | .initializing => false
  | .clearing _ _ _ => false

/-- Whether the pool is INITIALIZING. -/
def Pool.isInitializing (p : Pool) : Bool :=
  match p.state with
  | .initializing => true
  | .ready => false
  | .clearing _ _ _ => false

/-- Whether the pool is CLEARING. -/
def Pool.isClearing (p : Pool) : Bool :=
  match p.state with
  | .clearing _ _ _ => true
  | .initializing => false
  | .ready => false

/-- The low notice judged after an allocation: raised, and disarmed, when the count has reached the floor (R20). -/
def Records.lowAfterAllocation (b : Records) : Records :=
  if b.pool.lowArmed && decide (b.pool.freeCount = b.pool.floor) then
    { b with pool := { b.pool with lowArmed := false } }.raise (.part .poolLow)
  else b

/-- The head slot of the free list taken for a record (R15), when the pool is READY and the claim passes the reserve
rule (R19); otherwise the refusal. -/
def Records.allocate (b : Records) (privileged : Bool) (body : SlotBody) : Except Status (SlotNo × Records) :=
  if b.pool.isReady then
    if b.pool.freeCount = 0 then .error .poolEmpty
    else if b.pool.freeCount ≤ b.pool.floor ∧ privileged = false then .error .poolLow
    else
      match b.pool.freeList with
      | [] => .error .poolEmpty
      | sl :: rest =>
        let taken := { b with pool := { b.pool with freeList := rest, freeCount := b.pool.freeCount - 1 } }
        .ok (sl, (taken.setBody sl body).lowAfterAllocation)
  else .error .notReady

/-- A slot returned: generation up by one, kind FREE, pushed on the free list, the low notice judged (R16, R20). -/
def Records.returnSlot (b : Records) (sl : SlotNo) : Records :=
  let slots := b.pool.slots.set sl.val { gen := (b.slot sl).gen + 1, body := .free }
  let count := b.pool.freeCount + 1
  { b with pool := { b.pool with
      slots := slots, freeList := sl :: b.pool.freeList, freeCount := count,
      lowArmed := b.pool.lowArmed || decide (b.pool.floor + 64 < count) } }

/-- The handle check of R18 for the kind expected: the slot named, or the refusal of the first check that fails. -/
def Records.checkHandle (b : Records) (expected : Byte) (h : Handle) : Except Status SlotNo :=
  if h.kind ≠ expected then .error .wrongKind
  else
    match slotNo? h.slot with
    | none => .error .stale
    | some sl =>
      match (b.slot sl).body.kind? with
      | none => .error .stale
      | some k => if k ≠ expected then .error .wrongKind else if (b.slot sl).gen ≠ h.gen then .error .stale else .ok sl

/-- The elements of a list with their positions, of which `f` gives something. -/
def scanFrom {α β : Type} (f : Nat → α → Option β) : Nat → List α → List β
  | _, [] => []
  | i, a :: rest =>
    match f i a with
    | some x => x :: scanFrom f (i + 1) rest
    | none => scanFrom f (i + 1) rest

/-- The order records that satisfy `p`, with their slots, in ascending order of slot. -/
def Records.ordersWhere (b : Records) (p : Order → Bool) : List (SlotNo × Order) :=
  scanFrom (fun i (s : Slot) =>
    match s.body with
    | .order o => if p o then some (Fin.ofNat 32768 i, o) else none
    | .free => none
    | .booking _ => none) 0 b.pool.slots.toList

/-- The number of slots whose contents satisfy `p`. -/
def Records.countSlots (b : Records) (p : SlotBody → Bool) : Nat := b.pool.slots.toList.countP fun s => p s.body

/-! ## Rooms: bookable, conflict sets, views (R32, R38, R39) -/

/-- Whether a room is combined: it has a member list (R35). -/
def Room.isCombined (r : Room) : Bool := r.attrs.members.isSome

/-- Whether room `r` is IN_SERVICE. -/
def Records.inService (b : Records) (r : RoomNo) : Bool := decide ((b.room r).service = .inService)

/-- Whether room `r` is CLOSING. -/
def Records.isClosing (b : Records) (r : RoomNo) : Bool := decide ((b.room r).service = .closing)

/-- Whether room `r` is defined (R31). -/
def Records.isDefined (b : Records) (r : RoomNo) : Bool := decide ((b.room r).service ≠ .undefined)

/-- Whether room `r` is bookable: IN_SERVICE, and every member IN_SERVICE when it is combined (R32). -/
def Records.bookable (b : Records) (r : RoomNo) : Bool :=
  b.inService r && ((b.room r).attrs.members.getD []).all b.inService

/-- A room number placed in an ascending list without repeats. -/
def insertRoom (r : RoomNo) : List RoomNo → List RoomNo
  | [] => [r]
  | x :: xs => if r < x then r :: x :: xs else if r = x then x :: xs else x :: insertRoom r xs

/-- The rooms of a list, each once, ascending. -/
def roomSet (l : List RoomNo) : List RoomNo := l.foldr insertRoom []

/-- The conflict set of room `r`, ascending (R38): for a plain room, itself and its memberships; for a combined room,
itself, its members and every combined room that names one of them. -/
def Records.conflictSet (b : Records) (r : RoomNo) : List RoomNo :=
  match (b.room r).attrs.members with
  | none => roomSet (r :: (b.room r).memberships)
  | some ms => roomSet (r :: ms ++ ms.flatMap fun m => (b.room m).memberships)

/-- The rooms whose chains make up the view of room `r` (R39). -/
def Records.viewRooms (b : Records) (r : RoomNo) : List RoomNo :=
  match (b.room r).attrs.members with
  | none => r :: (b.room r).memberships
  | some _ => [r]

/-- A booking met on a chain: the room whose chain holds it, its slot and the record. -/
structure Seen where
  chainRoom : RoomNo
  slot : SlotNo
  booking : Booking
  deriving DecidableEq, Repr

/-- The bookings on room `q`'s chain, in chain order (R50). -/
def Records.chainOf (b : Records) (q : RoomNo) : List Seen :=
  (b.room q).chain.filterMap fun sl => (b.booking? sl).map fun k => { chainRoom := q, slot := sl, booking := k }

/-- A booking placed by its start. -/
def insertSeen (x : Seen) : List Seen → List Seen
  | [] => [x]
  | y :: ys => if x.booking.start < y.booking.start then x :: y :: ys else y :: insertSeen x ys

/-- The view of room `r`: its chains merged in ascending order of start (R39). -/
def Records.view (b : Records) (r : RoomNo) : List Seen :=
  ((b.viewRooms r).flatMap b.chainOf).foldl (fun l x => insertSeen x l) []

/-- Whether a booking counts as retired at `now` (R52). -/
def Booking.countsRetired (k : Booking) (now : Nat) : Bool :=
  decide (k.stop ≤ now) ||
  (decide (k.state = .held) &&
    match k.holdExpiry with
    | some e => decide (e ≤ now)
    | none => false)

/-- The view of room `r` without the bookings that count as retired (R52). -/
def Records.livingView (b : Records) (now : Nat) (r : RoomNo) : List Seen :=
  (b.view r).filter fun x => !x.booking.countsRetired now

/-! ## Chains (R50) -/

/-- A slot placed in a chain before the first booking that starts later than `start`, or at the tail (R50). -/
def Records.insertInChain (b : Records) (sl : SlotNo) (start : Nat) : List SlotNo → List SlotNo
  | [] => [sl]
  | x :: xs =>
    match b.booking? x with
    | some k => if start < k.start then sl :: x :: xs else x :: b.insertInChain sl start xs
    | none => x :: b.insertInChain sl start xs

/-- Booking `sl` linked into room `r`'s chain, the panels showing `r` marked stale (R50). -/
def Records.link (b : Records) (r : RoomNo) (sl : SlotNo) (start : Nat) : Records :=
  (b.setRoom r { (b.room r) with chain := b.insertInChain sl start (b.room r).chain }).markShowing r

/-- Booking `sl` unlinked from room `r`'s chain, the panels showing `r` marked stale (R50). -/
def Records.unlink (b : Records) (r : RoomNo) (sl : SlotNo) : Records :=
  (b.setRoom r { (b.room r) with chain := (b.room r).chain.filter fun x => decide (x ≠ sl) }).markShowing r

/-! ## Turnaround and motion (R40, R42) -/

/-- Room `r`'s turnaround-until made absent when it is at or before `now` (R40). -/
def Records.clearTurnaround (b : Records) (now : Nat) (r : RoomNo) : Records :=
  match (b.room r).turnaround with
  | some t => if t ≤ now then b.setRoom r { (b.room r) with turnaround := none } else b
  | none => b

/-- The same for every room of a list. -/
def Records.clearTurnarounds (b : Records) (now : Nat) (rs : List RoomNo) : Records :=
  rs.foldl (fun c r => c.clearTurnaround now r) b

/-- The turnaround-until fields of room `r`'s conflict set read at `now` by a conflict test with a new start: those at
or before now become absent (R40, R56). DEDUCED: the test reads every room of the set, also those behind the first
obstacle, and this absence is no change of a record that R57 excludes (log entry 27). -/
def Records.readTurnarounds (b : Records) (now : Nat) (r : RoomNo) : Records :=
  b.clearTurnarounds now (b.conflictSet r)

/-- The later of two minutes, each of which may be absent. -/
def laterOf (a c : Option Nat) : Option Nat :=
  match a, c with
  | some x, some y => some (max x y)
  | some x, none => some x
  | none, y => y

/-- Room `r`'s last motion: its own, or for a combined room the latest among its members (R42). -/
def Records.lastMotionOf (b : Records) (r : RoomNo) : Option Nat :=
  match (b.room r).attrs.members with
  | none => (b.room r).lastMotion
  | some ms => ms.foldl (fun a m => laterOf a (b.room m).lastMotion) none

/-- The quiet minutes of room `r` at `now`, 0..255 (R75). -/
def Records.quietMinutes (b : Records) (now : Nat) (r : RoomNo) : Nat :=
  match b.lastMotionOf r with
  | some m => min 255 (now - m)
  | none => 255

/-! ## The panel condition and the times of bringing a room up to date (R73, R74, R75) -/

/-- Whether some PANEL node that names one of `rs` is in state `st`. -/
def Records.somePanel (b : Records) (rs : List RoomNo) (st : NodeState) : Bool :=
  b.lines.toList.any fun l => l.nodes.toList.any fun n => n.shows rs && decide (n.state = st)

/-- The panel condition of a booking of room `r` (R73). -/
def Records.panelCondition (b : Records) (r : RoomNo) : Bool :=
  match (b.room r).attrs.members with
  | none => b.somePanel [r] .online
  | some ms => b.somePanel ms .online && !b.somePanel ms .silent

/-- The grace start of a booking: its start, or the last jump's minute when that is later (R74). -/
def Clock.graceStart (c : Clock) (k : Booking) : Nat :=
  match c.lastJump with
  | some j => max k.start j.2
  | none => k.start

/-- Whether the grace of an ARRIVING booking has ended (R74). -/
def graceEnded (c : Clock) (a : RoomAttrs) (k : Booking) : Bool := decide (c.graceStart k + a.grace ≤ c.minute)

/-- Whether the four vacate conditions hold for booking `k` of room `r` (R75). -/
def Records.vacateDue (b : Records) (c : Clock) (r : RoomNo) (k : Booking) : Bool :=
  let limit := (b.room r).attrs.vacate
  decide (limit ≠ 0) && b.panelCondition r && decide (limit ≤ b.quietMinutes c.minute r) &&
  decide (max k.start (k.checkInMinute.getD k.start) + limit ≤ c.minute)

/-- The state a booking is reported in at now: its stored state as steps 3 and 4 would form it (R91). -/
def reportedState (c : Clock) (a : RoomAttrs) (k : Booking) : BookingState :=
  let st : BookingState := if k.state = .booked ∧ k.start ≤ c.minute + a.lead then .arriving else k.state
  if st = .arriving ∧ k.checkedIn = true ∧ k.start ≤ c.minute then .inUse else st

/-- The due item of a booking summary (R91). -/
inductive Due where
  | nothing | graceEnded | vacateDue
  deriving DecidableEq, Repr

/-- What the next bringing up to date will settle for booking `k` of room `r` (R91). -/
def Records.dueOf (b : Records) (c : Clock) (r : RoomNo) (k : Booking) : Due :=
  let a := (b.room r).attrs
  match reportedState c a k with
  | .arriving => if k.checkedIn = false ∧ graceEnded c a k = true then .graceEnded else .nothing
  | .inUse => if b.vacateDue c r k then .vacateDue else .nothing
  | .held => .nothing
  | .booked => .nothing

/-! ## The conflict test (R55, R56, R57) -/

/-- The gap kept free between bookings of rooms `r` and `q`: the larger turnaround gap (R55). -/
def Records.gapOf (b : Records) (r q : RoomNo) : Nat := max (b.room r).attrs.gap (b.room q).attrs.gap

/-- Whether [s, e) and [xs, xe) conflict with `g` minutes to be kept free (R55). -/
def overlaps (s e xs xe g : Nat) : Bool := decide (s < xe + g) && decide (xs < e + g)

/-- An obstacle to a candidate (R57). -/
inductive Obstacle where
  | turnaround (room : RoomNo) (minute : Nat)
  | booking (room : RoomNo) (handle : Handle) (start stop gap : Nat)
  deriving DecidableEq, Repr

/-- The first room of the set whose turnaround-until, after now, lies after the start `s` (R56, R57). Its callers make
the fields at or before now absent before the test (`Records.readTurnarounds`, log entry 27). -/
def Records.turnaroundObstacle (b : Records) (now s : Nat) (set : List RoomNo) : Option Obstacle :=
  set.findSome? fun q =>
    match (b.room q).turnaround with
    | some t => if now < t ∧ s < t then some (.turnaround q t) else none
    | none => none

/-- The first booking of the set's chains with which [s, e) in room `r` conflicts; `aside` is the booking being
changed, and bookings that count as retired are set aside (R55, R57). -/
def Records.bookingObstacle (b : Records) (now : Nat) (r : RoomNo) (aside : Option SlotNo) (s e : Nat)
    (set : List RoomNo) : Option Obstacle :=
  set.findSome? fun q =>
    (b.chainOf q).findSome? fun x =>
      if x.booking.countsRetired now = false ∧ aside ≠ some x.slot ∧
          overlaps s e x.booking.start x.booking.stop (b.gapOf r q) = true then
        some (.booking q (b.bookingHandle x.slot) x.booking.start x.booking.stop (b.gapOf r q))
      else none

/-- The first obstacle to the candidate [s, e) in room `r`, the turnaround conditions first when the start is new
(R55, R56, R57). -/
def Records.obstacle (b : Records) (now : Nat) (r : RoomNo) (aside : Option SlotNo) (newStart : Bool) (s e : Nat) :
    Option Obstacle :=
  let set := b.conflictSet r
  match if newStart then b.turnaroundObstacle now s set else none with
  | some o => some o
  | none => b.bookingObstacle now r aside s e set

end Sys2Proof.Machine
end

