-- ==== Sys2Proof/Machine/Load.lean ====
section
/-! DEFINITION. The shared operations of the kitchens: capacity, the five stages of the load arithmetic, the window
ring, the waitlist, the triggers of the pass engine and the ticket queue's places (chapters 7 and 8). -/

namespace Sys2Proof.Machine

open Sys2Proof

/-! ## Capacity (R103) and the ring (R110) -/

/-- The capacity in force at the active level (R103). -/
def Kitchen.inForce (k : Kitchen) : Nat := k.banks[k.active.val]

/-- The capacity that a kitchen gives to windows starting at time of day `tod` (R103). -/
def Kitchen.capacityAt (k : Kitchen) (tod : Nat) : Nat :=
  if k.opens ≤ tod ∧ tod < k.closes then k.inForce else 0

/-- The capacity of window `w` (R103). -/
def Kitchen.capacity (k : Kitchen) (w : Nat) : Nat := k.capacityAt (30 * w % 1440)

/-- Whether the capacity of some start time of day differs between two forms of a kitchen (R116). -/
def capacityDiffers (k k' : Kitchen) : Bool :=
  (List.range 48).any fun i => decide (k.capacityAt (30 * i) ≠ k'.capacityAt (30 * i))

/-- The ring entry on which window `w` falls (R110). -/
def Kitchen.entry (k : Kitchen) (w : Nat) : RingEntry := k.ring[w % 336]'(Nat.mod_lt _ (by decide))

/-- The committed units of window `w`: 0 when its entry holds none or another window (R110). -/
def Kitchen.committed (k : Kitchen) (w : Nat) : Nat :=
  if (k.entry w).window = some w then (k.entry w).units else 0

/-- Window `w`'s entry set to `w` with `units` committed (R110). -/
def Kitchen.commit (k : Kitchen) (w units : Nat) : Kitchen :=
  { k with ring := k.ring.set (w % 336) { window := some w, units := units } (Nat.mod_lt _ (by decide)) }

/-- A read of window `w`, which sets an entry that holds none or another window to `w` with 0 (R110). -/
def Kitchen.touch (k : Kitchen) (w : Nat) : Kitchen := k.commit w (k.committed w)

/-- Shares added to their windows (R109). -/
def Kitchen.addShares (k : Kitchen) (shares : List (Nat × Nat)) : Kitchen :=
  shares.foldl (fun c x => c.commit x.1 (c.committed x.1 + x.2)) k

/-- The shares in windows not yet begun subtracted from their windows; the others are dropped (R114). -/
def Kitchen.subShares (k : Kitchen) (w0 : Nat) (shares : List (Nat × Nat)) : Kitchen :=
  shares.foldl (fun c x => if w0 < x.1 then c.commit x.1 (c.committed x.1 - x.2) else c) k

/-- Whether some window of `shares` not yet begun has fewer committed units in `k'` than in `k`. -/
def loweredOn (w0 : Nat) (shares : List (Nat × Nat)) (k k' : Kitchen) : Bool :=
  shares.any fun x => decide (w0 < x.1) && decide (k'.committed x.1 < k.committed x.1)

/-- Whether shares fit: no window with a share above 0 goes past its capacity (R109, stage 5). -/
def Kitchen.fits (k : Kitchen) (shares : List (Nat × Nat)) : Bool :=
  shares.all fun x => decide (x.2 = 0) || decide (k.committed x.1 + x.2 ≤ k.capacity x.1)

/-- The windows that stage 5 reads, read (R109, R110). -/
def Kitchen.touchTested (k : Kitchen) (shares : List (Nat × Nat)) : Kitchen :=
  shares.foldl (fun c x => if x.2 = 0 then c else c.touch x.1) k

/-! ## The load arithmetic (R105 to R108) -/

/-- Stage 1: the load units, setup + ceil(h × w ÷ 16) (R105). -/
def loadUnits (m : MenuClass) (headcount : Nat) : Nat := m.setup + (headcount * m.weight + 15) / 16

/-- Stages 2 and 3: the prep windows wd − L to wd − 1 with the units spread over them, the latest `units mod L`
windows one more than the others (R106, R107). Window numbers below 0 have begun and are dropped by stage 4. -/
def spread (units lead wd : Nat) : List (Int × Nat) :=
  (List.range lead).map fun i =>
    ((wd : Int) - (lead : Int) + (i : Int), units / lead + if lead - units % lead ≤ i then 1 else 0)

/-- Stage 4: the prep windows that have begun dropped, their units added to the earliest that remains; none when no
prep window remains (R108). -/
def lateDrop (w0 : Nat) (prep : List (Int × Nat)) : Option (List (Nat × Nat)) :=
  let dropped := ((prep.filter fun x => decide (x.1 ≤ (w0 : Int))).map fun x => x.2).sum
  match (prep.filter fun x => decide ((w0 : Int) < x.1)).map fun x => (x.1.toNat, x.2) with
  | [] => none
  | (w, u) :: rest => some ((w, u + dropped) :: rest)

/-- A computed load: its units and its shares after stage 4, at least one. -/
structure Load where
  units : Nat
  shares : List (Nat × Nat)
  deriving DecidableEq, Repr

/-- The prep start window of a load: its earliest prep window (R108). -/
def Load.prepStart (x : Load) : Nat := (x.shares.head?.map fun s => s.1).getD 0

/-- Stages 1 to 4 for a class, a headcount and a delivery minute, with current window `w0`. -/
def computeLoad (m : MenuClass) (headcount delivery w0 : Nat) : Option Load :=
  let units := loadUnits m headcount
  (lateDrop w0 (spread units m.lead (windowOf delivery))).map fun s => { units := units, shares := s }

/-- The judgement of a delivery minute by stage 2, HORIZON first (R106). -/
def judgeDelivery (k : Booking) (delivery w0 : Nat) : Option Status :=
  if w0 + 335 < windowOf delivery then some .horizon
  else if delivery + 30 < k.start ∨ k.stop ≤ delivery then some .badTime
  else none

/-! ## Triggers of the pass engine (R116) -/

/-- A promotion trigger at a kitchen: PROMOTING begins, or the again mark is set (R116, R118). -/
def Kitchen.promote (k : Kitchen) : Kitchen :=
  match k.pass with
  | .idle => { k with pass := .promoting none, again := false }
  | .shedding _ => { k with again := true }
  | .promoting _ => { k with again := true }

/-- A capacity-change trigger at a kitchen: SHEDDING begins at w0 + 1, or the restart mark is set (R116). -/
def Kitchen.capacityTrigger (k : Kitchen) (w0 : Nat) : Kitchen :=
  match k.pass with
  | .idle => { k with pass := .shedding (w0 + 1) }
  | .shedding _ => { k with restart := true }
  | .promoting _ => { k with restart := true }

/-- Whether triggers act: the pool READY and the clock not UNSET (R116). -/
def Records.triggersAct (b : Records) (c : Clock) : Bool := b.pool.isReady && decide (c.state ≠ .unset)

/-- A promotion trigger raised for kitchen `k` (R116). -/
def Records.promotionTrigger (b : Records) (c : Clock) (k : KitchenNo) : Records :=
  if b.triggersAct c then b.setKitchen k (b.kitchen k).promote else b

/-- Kitchen `k` replaced by `k'`, and a capacity-change trigger raised when its capacity differs (R116). -/
def Records.changeKitchen (b : Records) (c : Clock) (k : KitchenNo) (k' : Kitchen) : Records :=
  if capacityDiffers (b.kitchen k) k' && b.triggersAct c then b.setKitchen k (k'.capacityTrigger c.w0)
  else b.setKitchen k k'

/-- The active level formed from override, reported level and fallback (R101). -/
def Kitchen.formLevel (k : Kitchen) : Fin 8 :=
  match k.override with
  | some v => v
  | none =>
    match k.online, k.reported with
    | true, some v => v
    | true, none => k.fallback
    | false, _ => k.fallback

/-- Kitchen `k` replaced by `k'` with its active level formed again: LEVEL_CHANGED when it differs, and then the
capacity judged (R101, R116). -/
def Records.reformLevel (b : Records) (c : Clock) (k : KitchenNo) (k' : Kitchen) : Records :=
  let formed := { k' with active := k'.formLevel }
  let b' := b.changeKitchen c k formed
  if formed.active = (b.kitchen k).active then b' else b'.raise (.kitchen k .levelChanged)

/-! ## Terminal reports and losses (R101, R102, R158) -/

/-- A kitchen whose terminal reports a level. -/
def Kitchen.reportedAt (k : Kitchen) (level : Fin 8) : Kitchen := { k with online := true, reported := some level }

/-- A kitchen whose terminal is lost; the reported level is kept. -/
def Kitchen.lost (k : Kitchen) : Kitchen := { k with online := false }

/-- A terminal report taken by kitchen `k`: online, the reported level, and the active level formed again (R102). -/
def Records.terminalReported (b : Records) (c : Clock) (k : KitchenNo) (level : Fin 8) : Records :=
  b.reformLevel c k ((b.kitchen k).reportedAt level)

/-- A terminal loss taken by kitchen `k`: not online, and the active level formed again (R102). -/
def Records.terminalLost (b : Records) (c : Clock) (k : KitchenNo) : Records :=
  b.reformLevel c k (b.kitchen k).lost

/-- Whether kitchen `k`'s terminal node is ONLINE, on a line that is RUNNING (R147, R158). -/
def Records.terminalOnline (b : Records) (k : KitchenNo) : Bool :=
  match (b.kitchen k).terminal with
  | some (l, n) =>
    (b.line l).running && decide (((b.line l).node n).kind = .terminal k ∧ ((b.line l).node n).state = .online)
  | none => false

/-! ## The waitlist (R115) and admission (R109) -/

/-- A stamp counter incremented, staying at its upper bound (R100). -/
def nextStamp (n : Nat) : Nat := if n < Config.maxStamp then n + 1 else n

/-- The class by which an order ranks: the class of its owner (R127). -/
def Records.orderClass (b : Records) (o : Order) : Prio :=
  match o.owner.bind fun h => (slotNo? h.slot).bind b.booking? with
  | some k => k.cls
  | none => .walkup

/-- The place of the order in slot `sl` on its waitlist: class, stamp and slot. -/
def Records.placeOf (b : Records) (sl : SlotNo) : WaitPlace :=
  match b.order? sl with
  | some o => { cls := b.orderClass o, stamp := (o.wait.map fun x => x.1).getD 0, slot := sl }
  | none => { cls := .walkup, stamp := 0, slot := sl }

/-- Whether place `p` stands ahead of place `q`: by class, then stamp, then the lower slot (R100, R115). -/
def WaitPlace.ahead (p q : WaitPlace) : Bool :=
  decide (p.cls.rank < q.cls.rank) ||
  (decide (p.cls.rank = q.cls.rank) &&
    (decide (p.stamp < q.stamp) || (decide (p.stamp = q.stamp) && decide (p.slot < q.slot))))

/-- A slot inserted in a waitlist at the place that its class and stamp give (R115). -/
def Records.insertWaiting (b : Records) (sl : SlotNo) : List SlotNo → List SlotNo
  | [] => [sl]
  | x :: xs => if (b.placeOf sl).ahead (b.placeOf x) then sl :: x :: xs else x :: b.insertWaiting sl xs

/-- Order `o` in slot `sl` made WAITLISTED with a new stamp and put on its kitchen's waitlist (R115). It holds no
shares and no admission stamp. -/
def Records.joinWaitlist (b : Records) (sl : SlotNo) (o : Order) (why : WaitReason) : Records :=
  let stamp := nextStamp (b.kitchen o.kitchen).waits
  let b1 := b.setBody sl (.order
    { o with state := .waitlisted, shares := [], admission := none, wait := some (stamp, why) })
  let k := b1.kitchen o.kitchen
  b1.setKitchen o.kitchen { k with waits := stamp, waitlist := b1.insertWaiting sl k.waitlist }

/-- A slot removed from kitchen `k`'s waitlist. -/
def Records.leaveWaitlist (b : Records) (k : KitchenNo) (sl : SlotNo) : Records :=
  b.setKitchen k { (b.kitchen k) with waitlist := (b.kitchen k).waitlist.filter fun x => decide (x ≠ sl) }

/-- Order `o` in slot `sl` admitted with load `x`: shares added, CONFIRMED, a new admission stamp (R109). -/
def Records.admitOrder (b : Records) (sl : SlotNo) (o : Order) (x : Load) : Records :=
  let k := b.kitchen o.kitchen
  let stamp := nextStamp k.admissions
  (b.setKitchen o.kitchen { (k.addShares x.shares) with admissions := stamp }).setBody sl (.order
    { o with state := .confirmed, load := x.units, shares := x.shares, prepStart := x.prepStart,
             admission := some stamp, wait := none })

/-- Order `o`'s shares in windows not yet begun subtracted from its kitchen's windows (R114). -/
def Records.releaseShares (b : Records) (c : Clock) (o : Order) : Records :=
  b.setKitchen o.kitchen ((b.kitchen o.kitchen).subShares c.w0 o.shares)

/-! ## The ticket queue (R137, R139) -/

/-- A void placed behind the last void that waits, or ahead of every ticket when no void waits (R137, R139).
DEDUCED: where a ticket whose TICKET was lost has stayed at the head, ahead of the voids that joined behind it (R142), the
new void goes behind those voids, so that the voids keep the order in which they joined (log entry 29). -/
def insertVoid (sl : SlotNo) : List QueueEntry → List QueueEntry
  | [] => [{ slot := sl, asVoid := true }]
  | x :: xs =>
    if (x :: xs).any QueueEntry.asVoid then x :: insertVoid sl xs else { slot := sl, asVoid := true } :: x :: xs

/-- Whether the frame in flight of kitchen `k` names the order in slot `sl`, at the head of the queue (R137). -/
def Records.inFlightAtHead (b : Records) (k : KitchenNo) (sl : SlotNo) : Bool :=
  match (b.queue k).inFlight, (b.queue k).entries with
  | some f, e :: _ => decide (e.slot = sl) && decide (f.1 = b.orderHandle sl)
  | some _, [] => false
  | none, _ => false

/-- A void joining kitchen `k`'s queue, behind the entry in flight if there is one (R139). -/
def Records.joinVoid (b : Records) (k : KitchenNo) (sl : SlotNo) : Records :=
  let q := b.queue k
  match q.entries with
  | [] => b.setQueue k { q with entries := [{ slot := sl, asVoid := true }] }
  | e :: rest =>
    if b.inFlightAtHead k e.slot then b.setQueue k { q with entries := e :: insertVoid sl rest }
    else b.setQueue k { q with entries := insertVoid sl (e :: rest) }

/-- A ticket joining the tail of kitchen `k`'s queue (R138). -/
def Records.joinTicket (b : Records) (k : KitchenNo) (sl : SlotNo) : Records :=
  let q := b.queue k
  b.setQueue k { q with entries := q.entries ++ [{ slot := sl, asVoid := false }] }

/-- A record removed from kitchen `k`'s queue. -/
def Records.leaveQueue (b : Records) (k : KitchenNo) (sl : SlotNo) : Records :=
  let q := b.queue k
  b.setQueue k { q with entries := q.entries.filter fun e => decide (e.slot ≠ sl) }

end Sys2Proof.Machine
end

