-- ==== Sys2Proof/Machine/Retire.lean ====
section
/-! DEFINITION. Retirement (R68, R69) and bringing a room up to date (R70 to R75). -/

namespace Sys2Proof.Machine

open Sys2Proof

/-! ## Settling an order (R69, R135) -/

/-- What became of a settled order (R135). -/
inductive Settled where
  | freed | voiding
  deriving DecidableEq, Repr

/-- Order `o` in slot `sl` made VOIDING, its owner absent (R69). -/
def Records.makeVoiding (b : Records) (sl : SlotNo) (o : Order) : Records :=
  b.setBody sl (.order { o with state := .voiding, owner := none })

/-- Whether the order in slot `sl` is the one whose TICKET is in flight (R69, R137). -/
def Records.ticketInFlight (b : Records) (k : KitchenNo) (sl : SlotNo) : Bool :=
  b.inFlightAtHead k sl && decide ((b.queue k).inFlight.map (fun f => f.2) = some false)

/-- The order in slot `sl` settled by its state (R69). -/
def Records.settleOrder (b : Records) (c : Clock) (sl : SlotNo) : Records × Settled :=
  match b.order? sl with
  | none => (b, .freed)
  | some o =>
    match o.state with
    | .waitlisted => ((b.leaveWaitlist o.kitchen sl).returnSlot sl, .freed)
    | .confirmed => (((b.releaseShares c o).returnSlot sl).promotionTrigger c o.kitchen, .freed)
    | .queued =>
      if b.ticketInFlight o.kitchen sl then (b.makeVoiding sl o, .voiding)
      else ((b.leaveQueue o.kitchen sl).returnSlot sl, .freed)
    | .ticketed => ((b.makeVoiding sl o).joinVoid o.kitchen sl, .voiding)
    | .accepted => ((b.makeVoiding sl o).joinVoid o.kitchen sl, .voiding)
    | .done => (b.returnSlot sl, .freed)
    | .lapsed => (b.returnSlot sl, .freed)
    | .voiding => (b, .voiding)

/-- Every order of an annex chain settled in order of creation, with the numbers freed and made VOIDING (R69). -/
def Records.settleAll (b : Records) (c : Clock) : List SlotNo → Records × Nat × Nat
  | [] => (b, 0, 0)
  | sl :: rest =>
    match b.settleOrder c sl with
    | (b', .freed) => let r := b'.settleAll c rest; (r.1, r.2.1 + 1, r.2.2)
    | (b', .voiding) => let r := b'.settleAll c rest; (r.1, r.2.1, r.2.2 + 1)

/-! ## Retirement (R68) -/

/-- The retirement minute of a booking for a reason: its end for ENDED and SKIPPED, now otherwise (R41, R68). -/
def Reason.minute (why : Reason) (k : Booking) (now : Nat) : Nat :=
  match why with
  | .ended => k.stop
  | .skipped => k.stop
  | .holdExpired => now
  | .noShow => now
  | .vacated => now
  | .doorRelease => now
  | .cancelled => now
  | .closed => now

/-- Whether a reason sets turnaround-until (R68 step 5). -/
def Reason.setsTurnaround : Reason → Bool
  | .ended => true
  | .skipped => true
  | .doorRelease => true
  | .vacated => true
  | .holdExpired => false
  | .noShow => false
  | .cancelled => false
  | .closed => false

/-- The notice that a reason raises in the room's set (R68 step 7). -/
def Reason.notice? : Reason → Option RoomNotice
  | .noShow => some .noShow
  | .vacated => some .vacated
  | .doorRelease => some .doorRelease
  | .holdExpired => some .holdExpired
  | .ended => none
  | .skipped => none
  | .cancelled => none
  | .closed => none

/-- Steps 4 and 5 of retirement on the room entry: last release, and turnaround-until unless a later minute stands
(R40, R41). -/
def Room.released (x : Room) (why : Reason) (minute : Nat) : Room :=
  { x with
    lastRelease := some (why, minute)
    turnaround := if why.setsTurnaround then laterOf x.turnaround (some (minute + x.attrs.gap)) else x.turnaround }

/-- A notice raised when there is one. -/
def Records.raiseRoom? (b : Records) (r : RoomNo) (n : Option RoomNotice) : Records :=
  match n with
  | some x => b.raise (.room r x)
  | none => b

/-- The booking `k` in slot `sl` retired for a reason, by the seven steps of R68, with the numbers of its orders freed
and made VOIDING. -/
def Records.retire (b : Records) (c : Clock) (sl : SlotNo) (k : Booking) (why : Reason) : Records × Nat × Nat :=
  let settled := (b.unlink k.room sl).settleAll c k.annex
  let b3 := settled.1.returnSlot sl
  let b5 := b3.setRoom k.room ((b3.room k.room).released why (why.minute k c.minute))
  ((b5.markShowing k.room).raiseRoom? k.room why.notice?, settled.2)

/-! ## Bringing up to date (R70) -/

/-- The reason that retires a booking whose end has been reached: SKIPPED when the last jump passed over its end
(R71). -/
def Clock.endReason (c : Clock) (k : Booking) : Reason :=
  match c.lastJump with
  | some j => if j.1 < k.stop ∧ k.stop ≤ j.2 then .skipped else .ended
  | none => .ended

/-- What steps 1 to 6 make of a booking: retired for a reason, or the record as the steps leave it. -/
inductive DayStep where
  | retired (k : Booking) (why : Reason)
  | kept (k : Booking)
  deriving DecidableEq, Repr

/-- Step 6 of the table of R70 (R75). -/
def Records.dayVacate (b : Records) (c : Clock) (k : Booking) : DayStep :=
  if k.state = .inUse ∧ b.vacateDue c k.room k = true then .retired k .vacated else .kept k

/-- Step 5 and then step 6 (R74). -/
def Records.dayGrace (b : Records) (c : Clock) (k : Booking) : DayStep :=
  let a := (b.room k.room).attrs
  if k.state = .arriving ∧ k.checkedIn = false ∧ graceEnded c a k = true then
    if a.autoRelease && b.panelCondition k.room then .retired k .noShow
    else b.dayVacate c { k with state := .inUse, checkedIn := false, checkInMinute := none }
  else b.dayVacate c k

/-- Steps 1 to 6 of R70 applied to booking `k` (R70 to R75). Steps 3 and 4 form the reported state. -/
def Records.dayOf (b : Records) (c : Clock) (k : Booking) : DayStep :=
  let expired : Bool :=
    match k.holdExpiry with
    | some x => decide (k.state = .held) && decide (x ≤ c.minute) && decide (x ≤ k.stop)
    | none => false
  if expired then .retired k .holdExpired
  else if k.stop ≤ c.minute then .retired k (c.endReason k)
  else b.dayGrace c { k with state := reportedState c (b.room k.room).attrs k }

/-- The booking in slot `sl` brought up to date: each change marks the panels showing its room stale, and a booking
the steps retire is retired (R70). -/
def Records.updateBooking (b : Records) (c : Clock) (sl : SlotNo) : Records :=
  match b.booking? sl with
  | none => b
  | some k =>
    match b.dayOf c k with
    | .retired k' why => (b.retire c sl k' why).1
    | .kept k' => if k' = k then b else (b.setBody sl (.booking k')).markShowing k.room

/-- Room `r` brought up to date at now (R70). -/
def Records.bringUp (b : Records) (c : Clock) (r : RoomNo) : Records :=
  let b1 := b.clearTurnaround c.minute r
  (b1.room r).chain.foldl (fun x sl => x.updateBooking c sl) b1

/-- Rooms brought up to date one after another (R54, R79). -/
def Records.bringUpAll (b : Records) (c : Clock) (rs : List RoomNo) : Records :=
  rs.foldl (fun x r => x.bringUp c r) b

/-- The conflict set of room `r` brought up to date, in ascending order (R54). -/
def Records.bringUpSet (b : Records) (c : Clock) (r : RoomNo) : Records := b.bringUpAll c (b.conflictSet r)

/-- The checks of R53 on a command that names a booking by handle: R18, the room not CLOSING, the conflict set brought
up to date, the booking still living. The records stand as the bringing up to date left them. -/
def Records.nameBooking (b : Records) (c : Clock) (h : Handle) : Records × Except Status (SlotNo × Booking) :=
  match b.checkHandle bookingKind h with
  | .error e => (b, .error e)
  | .ok sl =>
    match b.booking? sl with
    | none => (b, .error .stale)
    | some k =>
      if b.isClosing k.room then (b, .error .roomClosed)
      else
        let b' := b.bringUpSet c k.room
        match b'.booking? sl with
        | some k' => if (b'.slot sl).gen = h.gen then (b', .ok (sl, k')) else (b', .error .stale)
        | none => (b', .error .stale)

end Sys2Proof.Machine
end

