-- ==== Sys2Proof/Machine/Formats.lean ====
section
/-! DEFINITION. The byte coding of responses and line frames (R184, R185, R186), and the way a server command reaches
its owner and its response reaches the buffer (R177, R178, R179). -/

namespace Sys2Proof.Machine

open Sys2Proof

/-! ## Items of a payload (R186) -/

/-- A status byte (chapter 11, Status codes). -/
def Status.code : Status → Byte
  | .ok => 1 | .clamped => 2 | .warnSeats => 3 | .waitlisted => 4 | .started => 5
  | .busy => 32 | .notReady => 33 | .clockUnset => 34 | .clockBackward => 35 | .badFrame => 36 | .badCommand => 37
  | .limit => 38 | .badValue => 39 | .badRoom => 40 | .roomClosed => 41 | .roomNotEmpty => 42 | .badTime => 43
  | .conflict => 44 | .poolLow => 45 | .poolEmpty => 46 | .stale => 47 | .wrongKind => 48 | .wrongState => 49
  | .ordersAttached => 50 | .horizon => 51 | .tooLate => 52 | .noFit => 53 | .noTerminal => 54 | .badKitchen => 55
  | .passBusy => 56 | .lineRunning => 57 | .nodeInUse => 58 | .badNode => 59

/-- A yes-or-no item: 0 for no, 1 for yes (R186). -/
def yesNo (x : Bool) : List Byte := [if x then 1 else 0]

/-- A minute sent by the part, three bytes; a minute that does not fit is FREE (log entry 14). -/
def minuteBytes (m : Int) : List Byte :=
  if 0 ≤ m ∧ m ≤ Config.maxMinute then be 3 m.toNat else be 3 (Config.minuteOutside m)

/-- A minute that may be absent. -/
def optMinute (m : Option Nat) : List Byte :=
  match m with
  | some x => 1 :: minuteBytes x
  | none => [0, 0, 0, 0]

/-- An item of one byte that may be absent. -/
def optByte (x : Option Nat) : List Byte := optBytes 1 x

/-- A list: its count in `countLen` bytes and then its elements (R186). -/
def listBytes {α : Type} (countLen : Nat) (f : α → List Byte) (l : List α) : List Byte :=
  be countLen l.length ++ l.flatMap f

/-- A room number, two bytes. -/
def roomBytes (r : RoomNo) : List Byte := be 2 r.val

/-- A class, numbered from 0 in the order of R48. -/
def Prio.byte (p : Prio) : Byte := BitVec.ofNat 8 p.rank

/-- A booking state, numbered from 0 in the order of R48. -/
def BookingState.byte : BookingState → Byte
  | .held => 0 | .booked => 1 | .arriving => 2 | .inUse => 3

/-- An order state, numbered from 0 in the order of R127. -/
def OrderState.byte : OrderState → Byte
  | .waitlisted => 0 | .confirmed => 1 | .queued => 2 | .ticketed => 3 | .accepted => 4 | .done => 5 | .lapsed => 6
  | .voiding => 7

/-- A waitlist reason, numbered from 0 in the order of R127. -/
def WaitReason.byte : WaitReason → Byte
  | .noFit => 0 | .shed => 1 | .pass => 2

/-- A clock state, numbered from 0 in the order of R1. -/
def ClockState.byte : ClockState → Byte
  | .unset => 0 | .running => 1 | .stopped => 2

/-- A pool state, numbered from 0 in the order of the table "Slots". -/
def PoolState.byte : PoolState → Byte
  | .initializing => 0 | .ready => 1 | .clearing _ _ _ => 2

/-- A service state, numbered from 0 in the order of R31. -/
def Service.byte : Service → Byte
  | .undefined => 0 | .inService => 1 | .outOfService => 2 | .closing => 3

/-- A retirement reason, numbered from 0 in the order of R41 and R68. -/
def Reason.byte : Reason → Byte
  | .ended => 0 | .skipped => 1 | .holdExpired => 2 | .noShow => 3 | .vacated => 4 | .doorRelease => 5
  | .cancelled => 6 | .closed => 7

/-- A due item, numbered from 0 in the order of the summary table. -/
def Due.byte : Due → Byte
  | .nothing => 0 | .graceEnded => 1 | .vacateDue => 2

/-- A node state, numbered from 0 in the order of R147. -/
def NodeState.byte : NodeState → Byte
  | .unknown => 0 | .online => 1 | .silent => 2

/-- A line frame's kind byte (chapter 11, Line frames). -/
def FrameKind.byte : FrameKind → Byte
  | .poll => 1 | .page => 2 | .ticket => 3 | .voided => 4

/-- A panel result's kind, 1 for CHECKED_IN to 13 for BUSY (chapter 11, Line frames). -/
def PanelResult.byte : PanelResult → Byte
  | .checkedIn => 1 | .already => 2 | .extended _ => 3 | .extConflict => 4 | .extLimit => 5 | .released => 6
  | .booked _ => 7 | .tooShort => 8 | .turnaround => 9 | .poolEmpty => 10 | .nothing => 11 | .closed => 12 | .busy => 13

/-- The minute that a panel result carries (R167). -/
def PanelResult.minute? : PanelResult → Option Nat
  | .extended e => some e
  | .booked e => some e
  | .checkedIn => none | .already => none | .extConflict => none | .extLimit => none | .released => none
  | .tooShort => none | .turnaround => none | .poolEmpty => none | .nothing => none | .closed => none | .busy => none

/-- A pending result in a frame or a response: its kind and its minute, 0 where it carries none, or all 0 when absent
(R152, R167). DEDUCED: the result minute of a PAGE has no presence byte, and no rule gives its three bytes where there is
no result or the result carries no value; the model sends 0 (log entry 38). -/
def resultBytes (r : Option PanelResult) : List Byte :=
  match r with
  | none => [0, 0, 0, 0]
  | some x =>
    x.byte ::
      (match x.minute? with
        | some m => minuteBytes m
        | none => [0, 0, 0])

/-- A set of notice kinds as a list of their numbers in the notice table (R182). -/
def kindBytes (l : List (Fin 18)) : List Byte := listBytes 1 (fun k => be 1 k.val) l

/-- An obstacle with the candidate's rounded times, 23 bytes (R57, R186). -/
def obstacleBytes (o : Obstacle) (s e : Nat) : List Byte :=
  (match o with
    | .turnaround q t => roomBytes q ++ [0] ++ minuteBytes t ++ List.replicate 11 0
    | .booking q h xs xe g =>
      roomBytes q ++ [1] ++ [0, 0, 0] ++ handleBytes h ++ minuteBytes xs ++ minuteBytes xe ++ be 1 g) ++
  minuteBytes s ++ minuteBytes e

/-! ## A server command at its owner (R177, R179, R180) -/

/-- What the owner of a command hands back: a response at once, or nothing yet (CLEAR_ALL, FIND_ROOMS; R179). -/
inductive Answer where
  | now (st : Status) (payload : List Byte)
  | later
  deriving DecidableEq, Repr

/-- The records of a state replaced. -/
def State.withRecs (s : State) (b : Records) : State := { s with recs := b }

/-- A response placed in the buffer: the port becomes ANSWER_READY and READY is driven high (R177). -/
def State.respond (s : State) (code tag : Byte) (st : Status) (payload : List Byte) : State :=
  { s with port := { s.port with
      state := .answerReady, buffer := some { code := code, tag := tag, status := st, payload := payload },
      ready := true } }

/-- Whether the port hands command `cmd` to its owner: it was handed on by the command write before, or the port is
IDLE and the row stands for the whole command write (log entry 6). -/
def Port.takes (p : Port) (cmd : Instr) : Bool :=
  match p.state with
  | .idle => true
  | .executing c taken => decide (c = cmd) && !taken
  | .answerReady => false

/-- The code and tag that the response to a command echoes (R184). -/
def codeTag (cmd : Instr) : Byte × Byte :=
  match cmd.wire with
  | some w => (w.1, w.2.1)
  | none => (0, 0)

/-- A server command taken by its owner, `act` being what the owner does; a command that meets a busy port is
discarded and OVERRUN is set (R179, R180). -/
def State.serve (s : State) (cmd : Instr) (act : State → State × Answer) : Host.Outcome State Fault Refusal :=
  if s.port.takes cmd then
    match act s with
    | (s', .now st payload) => .next (s'.respond (codeTag cmd).1 (codeTag cmd).2 st payload)
    | (s', .later) => .next { s' with port := { s'.port with state := .executing cmd true } }
  else .next { s with port := { s.port with overrun := true } }

/-- A refusal with no payload that leaves the state as it was. -/
def refuse (s : State) (st : Status) : State × Answer := (s, .now st [])

/-- The response of a time-taking command made ready at its end (R27, R98). -/
def State.finish (s : State) (st : Status) (payload : List Byte) : State :=
  match s.port.state with
  | .executing cmd _ => s.respond (codeTag cmd).1 (codeTag cmd).2 st payload
  | .idle => s
  | .answerReady => s

/-! ## Items shared by several responses -/

/-- The conflict, bookable and dynamic items of a room entry, as READ_ROOM returns them (R47). DEDUCED: the
reason and minute of the last release are one item that may be absent, under one presence byte (log entry 10). -/
def Records.roomPayload (b : Records) (now : Nat) (r : RoomNo) : List Byte :=
  let x := b.room r
  let a := x.attrs
  yesNo (b.isDefined r) ++ [x.service.byte] ++ yesNo (b.bookable r) ++ a.name.toList ++ be 1 a.building ++
  be 2 a.seats ++ optByte (a.kitchen.map fun k => k.val) ++ be 1 a.gap ++ be 1 a.lead ++ be 1 a.grace ++
  be 1 a.vacate ++ yesNo a.autoRelease ++ yesNo a.motionCheckIn ++ yesNo a.compact ++
  (match a.members with
    | none => [0, 0]
    | some ms => 1 :: listBytes 1 roomBytes ms) ++
  listBytes 1 roomBytes x.memberships ++ listBytes 1 roomBytes (b.conflictSet r) ++
  be 2 ((b.chainOf r).countP fun k => !k.booking.countsRetired now) ++ optMinute x.turnaround ++
  (match x.lastRelease with
    | none => [0, 0, 0, 0, 0]
    | some p => 1 :: p.1.byte :: minuteBytes p.2) ++
  optMinute (b.lastMotionOf r) ++ kindBytes (b.notices.rooms[r.val].map RoomNotice.num)

/-- A booking's fields as READ_BOOKING returns them (R67). -/
def Records.bookingPayload (b : Records) (k : Booking) : List Byte :=
  roomBytes k.room ++ minuteBytes k.start ++ minuteBytes k.stop ++ [k.cls.byte] ++ [k.state.byte] ++
  yesNo k.checkedIn ++ optMinute k.checkInMinute ++ optMinute k.holdExpiry ++ be 1 k.extensions ++
  be 2 k.attendees ++ be 4 k.organizer ++ k.title.toList ++
  listBytes 1 (fun sl =>
    handleBytes (b.orderHandle sl) ++ (match b.order? sl with
      | some o => [o.state.byte]
      | none => [0])) k.annex

/-- The shares of an order as an item present in CONFIRMED (R131, R136). DEDUCED: absent shares are a presence byte 0 with
a count of 0 (log entry 10). -/
def sharesBytes (o : Order) : List Byte :=
  if o.state = .confirmed then 1 :: listBytes 1 (fun x => be 3 x.1 ++ be 2 x.2) o.shares else [0, 0]

/-- An order's place in its kitchen's ticket queue: position from 1, as a void or not, in flight or not (R136). -/
def Records.queuePlace (b : Records) (k : KitchenNo) (sl : SlotNo) : Option (Nat × Bool × Bool) :=
  let es := (b.queue k).entries
  match es.find? fun e => decide (e.slot = sl) with
  | some e => some (es.findIdx (fun x => decide (x.slot = sl)) + 1, e.asVoid, b.inFlightAtHead k sl)
  | none => none

/-- An order's fields as READ_ORDER returns them (R136). DEDUCED: an item given "when" something holds is one item that may
be absent, the waitlist stamp with its reason and the three values of the ticket queue place each under one presence byte
(log entry 10). -/
def Records.orderPayload (b : Records) (sl : SlotNo) (o : Order) : List Byte :=
  [o.state.byte] ++
  (match o.owner with
    | some h => 1 :: handleBytes h
    | none => [0, 0, 0, 0, 0]) ++
  roomBytes o.room ++ be 1 o.kitchen.val ++ be 1 o.menuClass.val ++ be 1 o.headcount ++ minuteBytes o.delivery ++
  be 2 o.load ++ be 3 o.prepStart ++ sharesBytes o ++ optBytes 4 o.admission ++
  (match o.wait with
    | some w => 1 :: be 4 w.1 ++ [w.2.byte]
    | none => [0, 0, 0, 0, 0, 0]) ++
  (match b.queuePlace o.kitchen sl with
    | some p => 1 :: be 2 p.1 ++ yesNo p.2.1 ++ yesNo p.2.2
    | none => [0, 0, 0, 0, 0])

end Sys2Proof.Machine
end

