-- ==== Sys2Proof/Machine/Rooms.lean ====
section
/-! DEFINITION. RTB: WRITE_ROOM in both forms, READ_ROOM, SET_ROOM_SERVICE and the close-and-cancel walk
(chapter 3). -/

namespace Sys2Proof.Machine

open Sys2Proof

/-- The refusal of the first check of a table that fails; each row is whether the check passes and its refusal. -/
def firstRefusal : List (Bool × Status) → Option Status
  | [] => none
  | (passes, st) :: rest => if passes then firstRefusal rest else some st

/-! ## Writing a room (R33 to R36) -/

/-- Check 3 of R33: every attribute within its range. -/
def attrsInRange (a : WriteRoomArgs) : Bool :=
  decide (a.building < 16) && decide (1 ≤ a.seats ∧ a.seats ≤ 500) &&
  (match a.kitchen with
    | some k => decide (k < 8)
    | none => true) &&
  decide (a.gap % 5 = 0 ∧ a.gap ≤ 60) && decide (a.lead ≤ 15) && decide (5 ≤ a.grace ∧ a.grace ≤ 30) &&
  decide (a.vacate = 0 ∨ (10 ≤ a.vacate ∧ a.vacate ≤ 120))

/-- The member list that a WRITE_ROOM carries (R186): a count of 0 for none; a count that is no list of 2 to 4, or a
number outside 0..383, gives no list that R35 could accept. -/
def suppliedMembers (a : WriteRoomArgs) : Except Status (Option (List RoomNo)) :=
  if a.memberCount = 0 then .ok none
  else if a.memberCount = 1 ∨ 4 < a.memberCount then .error .badRoom
  else
    match (a.memberFields.toList.take a.memberCount).mapM roomNo? with
    | none => .error .badRoom
    | some ms => .ok (some ms)

/-- Whether a member list of a room satisfies R35. -/
def Records.membersOk (b : Records) (r : RoomNo) (ms : List RoomNo) : Bool :=
  decide ms.Nodup && decide (r ∉ ms) && (ms.all fun m => b.isDefined m && !(b.room m).isCombined) &&
  (b.room r).memberships.isEmpty

/-- Whether some PANEL node on any line names room `r` (R151). -/
def Records.panelNames (b : Records) (r : RoomNo) : Bool :=
  b.lines.toList.any fun l => l.nodes.toList.any fun n => n.shows [r]

/-- Whether two member lists are the same set (R33). -/
def sameMembers (x y : Option (List RoomNo)) : Bool := decide (x.map roomSet = y.map roomSet)

/-- Room `r` taken out of, or placed in, a room's memberships. -/
def Records.mapMemberships (b : Records) (ms : List RoomNo) (f : List RoomNo → List RoomNo) : Records :=
  ms.foldl (fun x m => x.setRoom m { (x.room m) with memberships := f (x.room m).memberships }) b

/-- The room table with room `r`'s attributes replaced and the memberships following its member list (R34). -/
def Records.withAttrs (b : Records) (r : RoomNo) (a : RoomAttrs) : Records :=
  let old := (b.room r).attrs.members.getD []
  let new := a.members.getD []
  let b1 := b.mapMemberships (old.filter fun m => decide (m ∉ new)) fun l => l.filter fun x => decide (x ≠ r)
  let b2 := b1.mapMemberships (new.filter fun m => decide (m ∉ old)) (insertRoom r)
  b2.setRoom r { (b2.room r) with attrs := a }

/-- Check 7 of R33 on the table as the change would leave it: no member with more than 3 memberships, and no conflict
set of more than 12 rooms among the room's and those of the combined rooms that share a member with it (R36). -/
def Records.withinLimits (after : Records) (r : RoomNo) : Bool :=
  match (after.room r).attrs.members with
  | none => true
  | some ms =>
    (ms.all fun m => decide ((after.room m).memberships.length ≤ 3)) &&
    (after.conflictSet r).all fun q => decide ((after.conflictSet q).length ≤ 12)

/-- The attributes that a WRITE_ROOM supplies (R31, R186). -/
def attrsOf (a : WriteRoomArgs) (ms : Option (List RoomNo)) : RoomAttrs :=
  { name := a.name, building := a.building, seats := a.seats, kitchen := a.kitchen.bind kitchenNo?, gap := a.gap,
    lead := a.lead, grace := a.grace, vacate := a.vacate, autoRelease := a.flags.getLsbD 0,
    motionCheckIn := a.flags.getLsbD 1, compact := a.flags.getLsbD 2, members := ms }

/-- Check 2 of R33, and the checks of R37 on the service state. -/
def Service.writable (x : Service) : Option Status :=
  match x with
  | .closing => some .busy
  | .inService => some .wrongState
  | .undefined => none
  | .outOfService => none

/-- Checks 5 to 7 of R33 for attributes that pass the earlier ones. -/
def Records.judgeAttrs (b : Records) (r : RoomNo) (at' : RoomAttrs) : Option Status :=
  let x := b.room r
  firstRefusal
    [(!at'.members.isSome || !b.panelNames r, .nodeInUse),
     ((decide (at'.gap = x.attrs.gap) && sameMembers at'.members x.attrs.members) || x.chain.isEmpty, .roomNotEmpty),
     ((b.withAttrs r at').withinLimits r, .limit)]

/-- The checks of R33 in their order: the room and the attributes to be written, or the refusal. -/
def Records.judgeWriteRoom (b : Records) (a : WriteRoomArgs) : Except Status (RoomNo × RoomAttrs) :=
  match roomNo? a.room with
  | none => .error .badRoom
  | some r =>
    match (b.room r).service.writable with
    | some st => .error st
    | none =>
      if attrsInRange a then
        match suppliedMembers a with
        | .error st => .error st
        | .ok ms =>
          if (ms.map (b.membersOk r)).getD true then
            match b.judgeAttrs r (attrsOf a ms) with
            | some st => .error st
            | none => .ok (r, attrsOf a ms)
          else .error .badRoom
      else .error .badValue

/-- The rooms that left or joined a member list. -/
def movedMembers (old new : Option (List RoomNo)) : List RoomNo :=
  (old.getD []).filter (fun m => decide (m ∉ new.getD [])) ++ (new.getD []).filter fun m => decide (m ∉ old.getD [])

/-- A WRITE_ROOM that passes its checks, applied (R34). -/
def Records.writeRoom (b : Records) (r : RoomNo) (at' : RoomAttrs) : Records :=
  let x := b.room r
  let b1 := b.withAttrs r at'
  let b2 := b1.setRoom r
    { (b1.room r) with service := if x.service = .undefined then .outOfService else x.service }
  (b2.markShowing r).markRooms (movedMembers x.attrs.members at'.members)

/-- A room entry as READ_ROOM returns it, a turnaround-until at or before now reported absent (R40, R47). -/
def Records.roomReport (b : Records) (now : Nat) (r : RoomNo) : List Byte :=
  (b.clearTurnaround now r).roomPayload now r

/-- What RTB does with WRITE_ROOM (R33, R34). The dynamic fields stay as they were. DEDUCED: the response, the entry "as
READ_ROOM would return it", reports a turnaround-until at or before now absent, though the field stays present (log entry
19). -/
def State.writeRoom (a : WriteRoomArgs) (s : State) : State × Answer :=
  match s.recs.judgeWriteRoom a with
  | .error st => refuse s st
  | .ok (r, at') =>
    let b := s.recs.writeRoom r at'
    (s.withRecs b, .now .ok (b.roomReport s.clk.minute r))

/-- WRITE_ROOM. -/
def execWriteRoom (tag : Byte) (a : WriteRoomArgs) (s : State) : Host.Outcome State Fault Refusal :=
  s.serve (.writeRoom tag a) (State.writeRoom a)

/-! ## Removing a room (R37) -/

/-- A room returned to UNDEFINED: attributes at their reset values, dynamic fields absent (R37). -/
def Room.removed (x : Room) : Room :=
  { x with attrs := RoomAttrs.reset, service := .undefined, turnaround := none, lastRelease := none,
           lastMotion := none }

/-- A room removed, its former members' panels marked stale (R37). -/
def Records.removeRoom (b : Records) (r : RoomNo) : Records :=
  let old := (b.room r).attrs.members.getD []
  let b1 := b.withAttrs r RoomAttrs.reset
  (b1.setRoom r (b1.room r).removed).markRooms old

/-- What RTB does with WRITE_ROOM carrying the remove indication (R37). -/
def State.writeRoomRemove (room : Nat) (s : State) : State × Answer :=
  match roomNo? room with
  | none => refuse s .badRoom
  | some r =>
    let x := s.recs.room r
    match x.service.writable with
    | some st => refuse s st
    | none =>
      if x.service = .undefined then (s, .now .ok [])
      else
        match firstRefusal [(x.chain.isEmpty, .roomNotEmpty), (x.memberships.isEmpty, .badRoom),
            (!s.recs.panelNames r, .nodeInUse)] with
        | some st => refuse s st
        | none => (s.withRecs (s.recs.removeRoom r), .now .ok [])

/-- WRITE_ROOM, remove. -/
def execWriteRoomRemove (tag : Byte) (room : Nat) (s : State) : Host.Outcome State Fault Refusal :=
  s.serve (.writeRoomRemove tag room) (State.writeRoomRemove room)

/-! ## Reading a room (R47) -/

/-- What RTB does with READ_ROOM: a turnaround-until at or before now, met by the command, becomes absent (R40, R47). -/
def State.readRoom (room : Nat) (s : State) : State × Answer :=
  match roomNo? room with
  | none => refuse s .badRoom
  | some r => (s.withRecs (s.recs.clearTurnaround s.clk.minute r), .now .ok (s.recs.roomReport s.clk.minute r))

/-- READ_ROOM. -/
def execReadRoom (tag : Byte) (room : Nat) (s : State) : Host.Outcome State Fault Refusal :=
  s.serve (.readRoom tag room) (State.readRoom room)

/-! ## The service state (R43, R44) -/

/-- Room `r` in another service state, the panels showing it marked stale; the state it is in already changes
nothing (R43). -/
def Records.setService (b : Records) (r : RoomNo) (st : Service) : Records :=
  if (b.room r).service = st then b else (b.setRoom r { (b.room r) with service := st }).markShowing r

/-- The checks common to the forms of SET_ROOM_SERVICE: the room, or the refusal (R43, R44). -/
def Records.serviceRoom (b : Records) (room : Nat) : Except Status RoomNo :=
  match roomNo? room with
  | none => .error .badRoom
  | some r =>
    match (b.room r).service with
    | .undefined => .error .badRoom
    | .closing => .error .busy
    | .inService => .ok r
    | .outOfService => .ok r

/-- What RTB does with SET_ROOM_SERVICE in the IN_SERVICE and OUT_OF_SERVICE forms (R43). -/
def State.setRoomService (inService : Bool) (room : Nat) (s : State) : State × Answer :=
  match s.recs.serviceRoom room with
  | .error st => refuse s st
  | .ok r =>
    let b := s.recs.setService r (if inService then .inService else .outOfService)
    (s.withRecs b, .now .ok ([(b.room r).service.byte] ++ yesNo (b.bookable r)))

/-- SET_ROOM_SERVICE. -/
def execSetRoomService (tag : Byte) (inService : Bool) (room : Nat) (s : State) : Host.Outcome State Fault Refusal :=
  s.serve (.setRoomService tag inService room) (State.setRoomService inService room)

/-- What RTB does with SET_ROOM_SERVICE in the CLOSE_AND_CANCEL form (R44). -/
def State.closeAndCancel (room : Nat) (s : State) : State × Answer :=
  if s.recs.pool.isInitializing then refuse s .notReady
  else
    match s.recs.serviceRoom room with
    | .error st => refuse s st
    | .ok r => (s.withRecs (s.recs.setService r .closing), .now .started [])

/-- SET_ROOM_SERVICE, CLOSE_AND_CANCEL. -/
def execCloseAndCancel (tag : Byte) (room : Nat) (s : State) : Host.Outcome State Fault Refusal :=
  s.serve (.closeAndCancel tag room) (State.closeAndCancel room)

/-! ## The close-and-cancel walk (R45, R46) -/

/-- The end of the walk for room `r` (R46). -/
def Records.closeDone (b : Records) (r : RoomNo) : Records :=
  ((b.setRoom r { (b.room r) with service := .outOfService }).raise (.room r .closeDone)).markShowing r

/-- One step of the walk for room `r`: brought up to date, then the head retired CLOSED, or the walk completed. -/
def Records.closeStep (b : Records) (c : Clock) (r : RoomNo) : Records :=
  let b1 := b.bringUp c r
  match (b1.room r).chain with
  | [] => b1.closeDone r
  | sl :: _ =>
    match b1.booking? sl with
    | some k => (b1.retire c sl k .closed).1
    | none => b1

/-- CLOSE_WALK_STEP. A room that is not CLOSING has no walk in flight, and nothing is done. -/
def execCloseWalkStep (r : RoomNo) (s : State) : Host.Outcome State Fault Refusal :=
  if s.recs.isClosing r then .next (s.withRecs (s.recs.closeStep s.clk r)) else .next s

end Sys2Proof.Machine
end

