-- ==== Sys2Proof/Machine/Bookings.lean ====
section
/-! DEFINITION. BKE's server commands: HOLD, BOOK, CONFIRM, AMEND, CANCEL and READ_BOOKING (chapter 4). -/

namespace Sys2Proof.Machine

open Sys2Proof

/-- A command on records: refused with NOT_READY while the pool is not READY, and then with CLOCK_UNSET while the
clock is UNSET (R2, R23). -/
def State.gated (s : State) (k : State × Answer) : State × Answer :=
  if s.recs.pool.isReady then if s.clk.state = .unset then refuse s .clockUnset else k else refuse s .notReady

/-! ## HOLD and BOOK (R58 to R61) -/

/-- The status of a booking that is made or amended: WARN_SEATS when the attendees exceed the seats (R60, R65). -/
def Records.seatStatus (b : Records) (r : RoomNo) (attendees : Nat) : Status :=
  if (b.room r).attrs.seats < attendees then .warnSeats else .ok

/-- Check 6 of R58: neither supplied time above the range, and the rounded times accepted (R59). -/
def Clock.bookTimesOk (c : Clock) (horizon : Nat) (a : BookArgs) : Bool :=
  decide (a.start ≤ Config.maxMinute) && decide (a.stop ≤ Config.maxMinute) &&
  newTimesOk c.minute horizon (floor5 a.start) (ceil5 a.stop)

/-- Check 5 of R58; `holdTime` is absent for BOOK. -/
def bookValuesOk (a : BookArgs) (holdTime : Option Nat) : Bool :=
  (prio? a.cls).isSome && decide (1 ≤ a.attendees ∧ a.attendees ≤ 500) &&
  (match holdTime with
    | some h => decide (1 ≤ h ∧ h ≤ 30)
    | none => true)

/-- The record of a HOLD or BOOK (R48, R60). -/
def newBooking (r : RoomNo) (now : Nat) (a : BookArgs) (p : Prio) (holdTime : Option Nat) : Booking :=
  { room := r, start := floor5 a.start, stop := ceil5 a.stop, cls := p,
    state := if holdTime.isSome then .held else .booked, checkedIn := false, checkInMinute := none,
    holdExpiry := holdTime.map fun h => now + h, extensions := 0, attendees := a.attendees,
    organizer := organizerTag a.organizer, title := a.title, annex := [] }

/-- A record put in a slot and on its chain: allocated, inserted, the panels showing its room marked stale (R15,
R50). -/
def Records.addBooking (b : Records) (privileged : Bool) (k : Booking) : Except Status (SlotNo × Records) :=
  match b.allocate privileged (.booking k) with
  | .error st => .error st
  | .ok (sl, b1) => .ok (sl, b1.link k.room sl k.start)

/-- The response items of HOLD and BOOK (R60). DEDUCED: the hold expiry is an item of the HOLD response alone, three
bytes without a presence byte, and the BOOK response has no such item (R186; log entry 34). -/
def Records.madePayload (b : Records) (sl : SlotNo) (k : Booking) : List Byte :=
  let k' := (b.booking? sl).getD k
  handleBytes (b.bookingHandle sl) ++ minuteBytes k'.start ++ minuteBytes k'.stop ++ [k'.state.byte] ++
  [k'.cls.byte] ++
  (match k'.holdExpiry with
    | some e => minuteBytes e
    | none => [])

/-- Checks 7 and 8 of R58 and the creation (R54, R60). The test reads the turnaround-until fields of the conflict set
as the bringing up to date left them (R40, R56). -/
def State.makeBooking (s : State) (k : Booking) : State × Answer :=
  let b := (s.recs.bringUpSet s.clk k.room).readTurnarounds s.clk.minute k.room
  match b.obstacle s.clk.minute k.room none true k.start k.stop with
  | some o => (s.withRecs b, .now .conflict (obstacleBytes o k.start k.stop))
  | none =>
    match b.addBooking (decide (k.cls = .executive)) k with
    | .error st => refuse (s.withRecs b) st
    | .ok (sl, b1) =>
      let b2 := b1.updateBooking s.clk sl
      (s.withRecs b2, .now (b2.seatStatus k.room k.attendees) (b2.madePayload sl k))

/-- Checks 3 to 6 of R58: the booking to be made, or the refusal. -/
def State.judgeBook (s : State) (a : BookArgs) (holdTime : Option Nat) : Except Status Booking :=
  match roomNo? a.room with
  | none => .error .badRoom
  | some r =>
    match firstRefusal
      [(s.recs.isDefined r, .badRoom), (s.recs.bookable r, .roomClosed), (bookValuesOk a holdTime, .badValue),
       (s.clk.bookTimesOk s.recs.pool.horizon a, .badTime)] with
    | some st => .error st
    | none => .ok (newBooking r s.clk.minute a ((prio? a.cls).getD .casual) holdTime)

/-- What BKE does with HOLD, which carries a hold time, and with BOOK (R58). -/
def State.bookOrHold (a : BookArgs) (holdTime : Option Nat) (s : State) : State × Answer :=
  s.gated
    (match s.judgeBook a holdTime with
      | .error st => refuse s st
      | .ok k => s.makeBooking k)

/-- HOLD. -/
def execHold (tag : Byte) (a : BookArgs) (holdTime : Nat) (s : State) : Host.Outcome State Fault Refusal :=
  s.serve (.hold tag a holdTime) (State.bookOrHold a (some holdTime))

/-- BOOK. -/
def execBook (tag : Byte) (a : BookArgs) (s : State) : Host.Outcome State Fault Refusal :=
  s.serve (.book tag a) (State.bookOrHold a none)

/-! ## CONFIRM (R62) -/

/-- A HELD booking confirmed, with a new class when one is given (R62). -/
def Booking.confirmed (k : Booking) (p : Option Prio) : Booking :=
  { k with state := .booked, holdExpiry := none, cls := p.getD k.cls }

/-- The response items of CONFIRM: the state while the booking lives, the reason of its retirement otherwise, and
then class and times (R62). -/
def Records.confirmPayload (b : Records) (sl : SlotNo) (k : Booking) : List Byte :=
  (match b.booking? sl with
    | some k' => [1, k'.state.byte, 0, 0]
    | none => [0, 0] ++ optByte ((b.room k.room).lastRelease.map fun x => x.1.byte.toNat)) ++
  [k.cls.byte] ++ minuteBytes k.start ++ minuteBytes k.stop

/-- A confirmation applied, and the booking brought up to date (R62). -/
def Records.confirm (b : Records) (c : Clock) (sl : SlotNo) (k : Booking) : Records :=
  ((b.setBody sl (.booking k)).markShowing k.room).updateBooking c sl

/-- What BKE does with CONFIRM (R62). -/
def State.confirm (h : Handle) (cls : Option Nat) (s : State) : State × Answer :=
  s.gated
    (match s.recs.nameBooking s.clk h with
      | (b, .error st) => refuse (s.withRecs b) st
      | (b, .ok (sl, k)) =>
        match firstRefusal
          [((cls.map fun n => (prio? n).isSome).getD true, .badValue), (decide (k.state = .held), .wrongState)] with
        | some st => refuse (s.withRecs b) st
        | none =>
          let k' := k.confirmed (cls.bind prio?)
          let b' := b.confirm s.clk sl k'
          (s.withRecs b', .now .ok (b'.confirmPayload sl k')))

/-- CONFIRM. -/
def execConfirm (tag : Byte) (h : Handle) (cls : Option Nat) (s : State) : Host.Outcome State Fault Refusal :=
  s.serve (.confirm tag h cls) (State.confirm h cls)

/-! ## AMEND (R63 to R65) -/

/-- The booking as an AMEND would leave it, times rounded (R11, R63). -/
def Booking.amended (k : Booking) (a : AmendArgs) : Booking :=
  { k with start := (a.start.map floor5).getD k.start, stop := (a.stop.map ceil5).getD k.stop,
           attendees := a.attendees.getD k.attendees, title := a.title.getD k.title }

/-- Whether a state lets an AMEND change the start (R64). -/
def BookingState.startMoves : BookingState → Bool
  | .held => true
  | .booked => true
  | .arriving => false
  | .inUse => false

/-- Whether a supplied time lies within the campus range. -/
def suppliedInRange (t : Option Nat) : Bool := decide (t.getD 0 ≤ Config.maxMinute)

/-- The times that an AMEND may set (R64); `k'` is the booking after it. -/
def amendTimesOk (now horizon : Nat) (a : AmendArgs) (k k' : Booking) : Bool :=
  suppliedInRange a.start && suppliedInRange a.stop &&
  if k'.start ≠ k.start then newTimesOk now horizon k'.start k'.stop
  else decide (k'.start + 15 ≤ k'.stop) && decide (k'.stop ≤ k'.start + 720) && decide (now < k'.stop)

/-- Whether every order of the annex chain has its delivery within [start − 30, end) (R63, check 8). -/
def Records.ordersInside (b : Records) (k : Booking) : Bool :=
  (k.annex.filterMap b.order?).all fun o => decide (k.start ≤ o.delivery + 30) && decide (o.delivery < k.stop)

/-- Checks 4 to 8 of R63 for booking `k` and what the AMEND makes of it. -/
def State.judgeAmend (s : State) (b : Records) (a : AmendArgs) (k k' : Booking) : Option Status :=
  let moves : Bool := decide (k'.start ≠ k.start ∨ k'.stop ≠ k.stop)
  firstRefusal
    [(decide (k'.start = k.start) || k.state.startMoves, .wrongState),
     ((a.attendees.map fun n => decide (1 ≤ n ∧ n ≤ 500)).getD true, .badValue),
     (!moves || b.bookable k.room, .roomClosed),
     (!moves || amendTimesOk s.clk.minute b.pool.horizon a k k', .badTime),
     (!moves || b.ordersInside k', .ordersAttached)]

/-- An amendment applied (R65). -/
def Records.applyAmend (b : Records) (c : Clock) (sl : SlotNo) (k k' : Booking) : Records :=
  let b1 :=
    if k'.start ≠ k.start then ((b.unlink k.room sl).setBody sl (.booking k')).link k.room sl k'.start
    else b.setBody sl (.booking k')
  let b2 := if k' = k then b1 else b1.markShowing k.room
  if k'.start ≠ k.start ∨ k'.stop ≠ k.stop then b2.updateBooking c sl else b2

/-- Check 9 of R63 and the amendment. A test with a new start reads the turnaround-until fields of the conflict set
(R40, R56). -/
def State.amendTo (s : State) (b : Records) (sl : SlotNo) (k k' : Booking) : State × Answer :=
  let b1 := if k'.start ≠ k.start then b.readTurnarounds s.clk.minute k.room else b
  let found :=
    if k'.start ≠ k.start ∨ k'.stop ≠ k.stop then
      b1.obstacle s.clk.minute k.room (some sl) (decide (k'.start ≠ k.start)) k'.start k'.stop
    else none
  match found with
  | some o => (s.withRecs b1, .now .conflict (obstacleBytes o k'.start k'.stop))
  | none =>
    let b' := b1.applyAmend s.clk sl k k'
    (s.withRecs b', .now (b'.seatStatus k.room k'.attendees) (b'.bookingPayload ((b'.booking? sl).getD k')))

/-- What BKE does with AMEND (R63). -/
def State.amend (a : AmendArgs) (s : State) : State × Answer :=
  s.gated
    (match s.recs.nameBooking s.clk a.handle with
      | (b, .error st) => refuse (s.withRecs b) st
      | (b, .ok (sl, k)) =>
        match s.judgeAmend b a k (k.amended a) with
        | some st => refuse (s.withRecs b) st
        | none => s.amendTo b sl k (k.amended a))

/-- AMEND. -/
def execAmend (tag : Byte) (a : AmendArgs) (s : State) : Host.Outcome State Fault Refusal :=
  s.serve (.amend tag a) (State.amend a)

/-! ## CANCEL and READ_BOOKING (R66, R67) -/

/-- What BKE does with CANCEL (R66). -/
def State.cancel (h : Handle) (s : State) : State × Answer :=
  s.gated
    (match s.recs.nameBooking s.clk h with
      | (b, .error st) => refuse (s.withRecs b) st
      | (b, .ok (sl, k)) =>
        let r := b.retire s.clk sl k .cancelled
        (s.withRecs r.1, .now .ok (be 1 r.2.1 ++ be 1 r.2.2)))

/-- CANCEL. -/
def execCancel (tag : Byte) (h : Handle) (s : State) : Host.Outcome State Fault Refusal :=
  s.serve (.cancel tag h) (State.cancel h)

/-- What BKE does with READ_BOOKING (R67). -/
def State.readBooking (h : Handle) (s : State) : State × Answer :=
  if s.recs.pool.isReady then
    match s.recs.checkHandle bookingKind h with
    | .error st => refuse s st
    | .ok sl =>
      match s.recs.booking? sl with
      | none => refuse s .stale
      | some k =>
        if k.countsRetired s.clk.minute then refuse s .stale else (s, .now .ok (s.recs.bookingPayload k))
  else refuse s .notReady

/-- READ_BOOKING. -/
def execReadBooking (tag : Byte) (h : Handle) (s : State) : Host.Outcome State Fault Refusal :=
  s.serve (.readBooking tag h) (State.readBooking h)

end Sys2Proof.Machine
end

