-- ==== Sys2Proof/Machine/Clock.lean ====
section
/-! DEFINITION. CLK: the elapsed second, SET_CLOCK and READ_CLOCK (chapter 1). -/

namespace Sys2Proof.Machine

open Sys2Proof

/-- One second pulse handed to each line controller (R3). -/
def Mail.pulse (m : Mail) : Mail := { m with pulses := m.pulses.map (· + 1) }

/-- A minute advance handed to BKE and to each kitchen, behind those that wait (R5). -/
def Mail.advance (m : Mail) (o n : Nat) : Mail :=
  { m with bkeAdvances := m.bkeAdvances ++ [(o, n)], kluAdvances := m.kluAdvances.map (· ++ [(o, n)]) }

/-- The clock at campus minute `v` with seconds 0: RUNNING, or STOPPED at the last minute (R4, R6, R8). -/
def Clock.arriveAt (c : Clock) (v : Nat) : Clock :=
  { c with state := if v < Config.maxMinute then .running else .stopped, minute := v, seconds := 0 }

/-- CLOCK_END raised when minute `v` is the last (R4, R6, R8). -/
def Records.clockEnd (b : Records) (v : Nat) : Records :=
  if v < Config.maxMinute then b else b.raise (.part .clockEnd)

/-- The clock carried to minute `v` with one advance delivered (R4, R8). -/
def State.advanceTo (s : State) (v : Nat) : State :=
  { s with clk := s.clk.arriveAt v, mail := s.mail.advance s.clk.minute v, recs := s.recs.clockEnd v }

/-- A second pulse delivered to every line (R3). -/
def State.pulsed (s : State) : State := { s with mail := s.mail.pulse }

/-- ELAPSED_SECOND (R3, R4). A completing second that arrived with a SET_CLOCK taken first delivers its pulses and is not
counted (R7). -/
def execElapsedSecond (s : State) : Host.Outcome State Fault Refusal :=
  match s.clk.state with
  | .unset => .next s.pulsed
  | .stopped => .next s.pulsed
  | .running =>
    if s.clk.uncounted then .next { s.pulsed with clk := { s.clk with uncounted := false } }
    else if s.clk.seconds + 1 < 60 then .next { s.pulsed with clk := { s.clk with seconds := s.clk.seconds + 1 } }
    else .next (s.pulsed.advanceTo (s.clk.minute + 1))

/-- The first setting of the clock (R6): FRESH is cleared, every panel is marked stale (R169), no advance. -/
def State.startClock (s : State) (v : Nat) : State :=
  { s with
    clk := s.clk.arriveAt v
    port := { s.port with fresh := false }
    recs := s.recs.markAllPanels.clockEnd v }

/-- A jump (R8): the pair of minutes is kept, and one advance is delivered. -/
def State.jumpTo (s : State) (v : Nat) : State :=
  { s with clk := { s.clk with lastJump := some (s.clk.minute, v) } }.advanceTo v

/-- Whether the elapsed second that completes a minute arrives with the command taken: 59 seconds are counted, and an
ELAPSED_SECOND waits directly behind the command (R7). DESIGN CHOICE: the queue is what tells a second that arrives at
the same moment from a later one (log entry 31). -/
def State.secondArrives (s : State) : Bool :=
  decide (s.clk.seconds = 59) && decide (s.pending.head? = some .elapsedSecond)

/-- The clock with the second that arrived with the command marked as not to be counted, while it is RUNNING (R7). -/
def Clock.passOver (c : Clock) (arrives : Bool) : Clock :=
  { c with uncounted := arrives && decide (c.state = .running) }

/-- What an accepted SET_CLOCK makes of a RUNNING clock's state `t`, the second that arrived with it passed over (R7). -/
def State.overSecond (s t : State) : State := { t with clk := t.clk.passOver s.secondArrives }

/-- The response items of SET_CLOCK, as R6 and R8 list them. -/
def Clock.setPayload (c : Clock) : List Byte := [c.state.byte] ++ minuteBytes c.minute

/-- What CLK does with SET_CLOCK (R6 to R9). DEDUCED: with v equal to now, for which R7 and R9 give the status OK and list no
items, the response gives the clock state and the minute as well (log entry 35). -/
def State.setClock (v : Nat) (s : State) : State × Answer :=
  let answer (t : State) : State × Answer := (t, .now .ok t.clk.setPayload)
  if Config.maxMinute < v then refuse s .badValue
  else
    match s.clk.state with
    | .unset => answer (s.startClock v)
    | .running =>
      if v < s.clk.minute then refuse s .clockBackward
      else if v = s.clk.minute then answer (s.overSecond { s with clk := { s.clk with seconds := 0 } })
      else answer (s.overSecond (s.jumpTo v))
    | .stopped => if v < s.clk.minute then refuse s .clockBackward else answer s

/-- SET_CLOCK. -/
def execSetClock (tag : Byte) (v : Nat) (s : State) : Host.Outcome State Fault Refusal :=
  s.serve (.setClock tag v) (State.setClock v)

/-- The response items of READ_CLOCK (R10). DEDUCED: the pair of the last jump is one item that may be absent, under one
presence byte (log entry 10). -/
def Clock.readPayload (c : Clock) : List Byte :=
  [c.state.byte] ++ minuteBytes c.minute ++ be 1 c.seconds ++ be 2 (c.minute / 1440) ++ be 2 (c.minute % 1440) ++
  be 3 c.w0 ++
  (match c.lastJump with
    | some j => 1 :: minuteBytes j.1 ++ minuteBytes j.2
    | none => [0, 0, 0, 0, 0, 0, 0])

/-- READ_CLOCK (R10). -/
def execReadClock (tag : Byte) (s : State) : Host.Outcome State Fault Refusal :=
  s.serve (.readClock tag) fun s => (s, .now .ok s.clk.readPayload)

end Sys2Proof.Machine
end

