-- ==== Sys2Proof/Machine/Day.lean ====
section
/-! DEFINITION. BKE's own events: the minute walk, and the requests and motion of the door panels (chapter 5). -/

namespace Sys2Proof.Machine

open Sys2Proof

/-! ## The minute walk (R76, R77) -/

/-- The walk at the taking of a minute advance (R76, R77). -/
def Walk.advance (w : Walk) (ready : Bool) : Walk :=
  if ready then
    match w.next with
    | none => { w with next := some 0 }
    | some _ => { w with rewalk := true }
  else w

/-- BKE_MINUTE_ADVANCE: the oldest advance waiting at BKE is taken; with the pool not READY it starts no walk. -/
def execBkeMinuteAdvance (s : State) : Host.Outcome State Fault Refusal :=
  match s.mail.bkeAdvances with
  | [] => .next s
  | _ :: rest =>
    .next { s with mail := { s.mail with bkeAdvances := rest }, walk := s.walk.advance s.recs.pool.isReady }

/-- The walk after the visit of room `r` (R76). -/
def Walk.step (w : Walk) (r : RoomNo) : Walk :=
  if h : r.val + 1 < 384 then { w with next := some ⟨r.val + 1, h⟩ }
  else if w.rewalk then { next := some 0, rewalk := false }
  else { w with next := none }

/-- MINUTE_WALK_STEP: the next room is brought up to date. A walk that is IDLE has no step. -/
def execMinuteWalkStep (s : State) : Host.Outcome State Fault Refusal :=
  match s.walk.next with
  | none => .next s
  | some r => .next { s with recs := s.recs.bringUp s.clk r, walk := s.walk.step r }

/-! ## The hand-offs of a panel answer -/

/-- The first hand-off of a node, taken out of those that wait. -/
def takeFirst (l : LineNo) (n : NodeNo) : List PanelHandoff → Option (PanelHandoff × List PanelHandoff)
  | [] => none
  | x :: xs =>
    if x.line = l ∧ x.node = n then some (x, xs)
    else (takeFirst l n xs).map fun p => (p.1, x :: p.2)

/-- The oldest hand-off of node `n` of line `l` taken by its receiver, when it is one of those that `want` admits;
otherwise nothing is done. -/
def State.takePanel (s : State) (l : LineNo) (n : NodeNo) (want : PanelItem → Bool)
    (act : State → PanelHandoff → State) : Host.Outcome State Fault Refusal :=
  match takeFirst l n s.mail.panel with
  | none => .next s
  | some (x, rest) =>
    if want x.item then .next (act { s with mail := { s.mail with panel := rest } } x) else .next s

/-! ## Motion (R42, R81) -/

/-- Whether a hand-off is a motion report. -/
def PanelItem.isMotion : PanelItem → Bool
  | .motion _ _ => true
  | .motionCheckIn => false
  | .request _ => false

/-- A motion report taken by RTB: a count above 0 sets the room's last motion to the minute of the answer (R42, R172),
and the line controller then hands the motion to BKE, ahead of the request of the same answer (R173).
DESIGN CHOICE: the room is the one that the node named at the answer, also when WRITE_NODE has renamed the node since, or
the room has been removed or made combined (log entry 15). -/
def State.takeMotion (s : State) (x : PanelHandoff) : State :=
  match x.item with
  | .motion count minute =>
    if count = 0 then s
    else
      { s.withRecs (s.recs.setRoom x.room { (s.recs.room x.room) with lastMotion := some minute }) with
        mail := { s.mail with panel := { x with item := .motionCheckIn } :: s.mail.panel } }
  | .motionCheckIn => s
  | .request _ => s

/-- MOTION_REPORT. -/
def execMotionReport (l : LineNo) (n : NodeNo) (s : State) : Host.Outcome State Fault Refusal :=
  s.takePanel l n PanelItem.isMotion State.takeMotion

/-! ## Choosing a booking of a view (R80, R83, R84) -/

/-- Whether a seen booking is in a state. -/
def Seen.isIn (x : Seen) (st : BookingState) : Bool := decide (x.booking.state = st)

/-- CHECK_IN's choice: the earliest ARRIVING booking of the view not checked in (R80). -/
def Records.arrivingIn (b : Records) (now : Nat) (r : RoomNo) : Option Seen :=
  (b.livingView now r).find? fun x => x.isIn .arriving && !x.booking.checkedIn

/-- The IN_USE booking of the view (R83). -/
def Records.inUseIn (b : Records) (now : Nat) (r : RoomNo) : Option Seen :=
  (b.livingView now r).find? fun x => x.isIn .inUse

/-- RELEASE's choice: the IN_USE booking, else the earliest ARRIVING one (R84). -/
def Records.releasableIn (b : Records) (now : Nat) (r : RoomNo) : Option Seen :=
  match b.inUseIn now r with
  | some x => some x
  | none => (b.livingView now r).find? fun x => x.isIn .arriving

/-- Whether the view of room `r` has an ARRIVING or IN_USE booking (R80, R85). -/
def Records.occupied (b : Records) (now : Nat) (r : RoomNo) : Bool :=
  (b.livingView now r).any fun x => x.isIn .inUse || x.isIn .arriving

/-- A booking checked in at now: IN_USE when it has started (R80). -/
def Booking.checkIn (k : Booking) (now : Nat) : Booking :=
  { k with checkedIn := true, checkInMinute := some now, state := if k.start ≤ now then .inUse else k.state }

/-- The chosen booking checked in, the panels showing its room marked stale (R80). -/
def Records.checkInAt (b : Records) (now : Nat) (x : Seen) : Records :=
  (b.setBody x.slot (.booking (x.booking.checkIn now))).markShowing x.chainRoom

/-! ## The four requests (R79 to R86) -/

/-- CHECK_IN on the view of room `r` brought up to date (R80). -/
def Records.panelCheckIn (b : Records) (c : Clock) (r : RoomNo) : Records × PanelResult :=
  match b.arrivingIn c.minute r with
  | some x => if b.isClosing x.chainRoom then (b, .closed) else (b.checkInAt c.minute x, .checkedIn)
  | none => if b.occupied c.minute r then (b, .already) else (b, .nothing)

/-- The last three judgements of EXTEND and the extension, for booking `k` in slot `sl` of room `q` (R83). -/
def Records.extendBooking (b : Records) (c : Clock) (q : RoomNo) (sl : SlotNo) (k : Booking) :
    Records × PanelResult :=
  if b.bookable q then
    if 4 ≤ k.extensions ∨ Config.maxMinute < k.stop + 15 then (b, .extLimit)
    else
      match b.obstacle c.minute q (some sl) false k.start (k.stop + 15) with
      | some _ => (b, .extConflict)
      | none =>
        let k' := { k with stop := k.stop + 15, extensions := k.extensions + 1 }
        (((b.setBody sl (.booking k')).markShowing q).raise (.room q .extended), .extended (k.stop + 15))
  else (b, .closed)

/-- The rooms of a combined room's conflict set that the request's own room did not bring up to date (R83). -/
def Records.restOfSet (b : Records) (q r : RoomNo) : List RoomNo :=
  if (b.room q).isCombined then (b.conflictSet q).filter fun x => decide (x ∉ b.conflictSet r) else []

/-- EXTEND on the view of room `r` brought up to date (R83). DEDUCED: a booking on the chain of a CLOSING room is
answered CLOSED with nothing more changed (R79), before the rest of its conflict set would be brought up to date as the
order of R83 has it (log entry 28). -/
def Records.panelExtend (b : Records) (c : Clock) (r : RoomNo) : Records × PanelResult :=
  match b.inUseIn c.minute r with
  | none => (b, .nothing)
  | some x =>
    if b.isClosing x.chainRoom then (b, .closed)
    else
      let b1 := b.bringUpAll c (b.restOfSet x.chainRoom r)
      match b1.booking? x.slot with
      | some k =>
        if (b1.slot x.slot).gen = (b.slot x.slot).gen then b1.extendBooking c x.chainRoom x.slot k
        else (b1, .nothing)
      | none => (b1, .nothing)

/-- RELEASE on the view of room `r` brought up to date (R84). -/
def Records.panelRelease (b : Records) (c : Clock) (r : RoomNo) : Records × PanelResult :=
  match b.releasableIn c.minute r with
  | none => (b, .nothing)
  | some x =>
    if b.isClosing x.chainRoom then (b, .closed)
    else ((b.retire c x.slot x.booking .doorRelease).1, .released)

/-- The end of the interval wanted by WALK_UP in room `r` from `s` (R85): the least of `s + 30`, the last minute, and
for each living booking of the conflict set that starts at or after `s` its start less the gap. -/
def Records.walkUpEnd (b : Records) (now : Nat) (r : RoomNo) (s : Nat) : Nat :=
  ((b.conflictSet r).flatMap b.chainOf).foldl
    (fun e x =>
      if x.booking.countsRetired now = false ∧ s ≤ x.booking.start then
        min e (x.booking.start - b.gapOf r x.chainRoom)
      else e)
    (min (s + 30) Config.maxMinute)

/-- The record of a walk-up (R86). -/
def walkUpBooking (r : RoomNo) (now s e : Nat) : Booking :=
  { room := r, start := s, stop := e, cls := .walkup, state := .inUse, checkedIn := true, checkInMinute := some now,
    holdExpiry := none, extensions := 0, attendees := 1, organizer := 0, title := walkupTitle, annex := [] }

/-- WALK_UP on the view of room `r` brought up to date (R85, R86). Once the interval is long enough the test reads the
turnaround-until fields of the conflict set (R40, R56). DEDUCED: R87 gives a walk-up behind a BOOK that overlaps it
TOO_SHORT or TURNAROUND, but a BOOK within the lead is ARRIVING at once (R60), and R85, which is followed, then gives NONE
(log entry 37). -/
def Records.panelWalkUp (b : Records) (c : Clock) (r : RoomNo) : Records × PanelResult :=
  if b.occupied c.minute r then (b, .nothing)
  else
    let s := floor5 c.minute
    let e := b.walkUpEnd c.minute r s
    if e < s + 15 then (b, .tooShort)
    else
      let b0 := b.readTurnarounds c.minute r
      match b0.obstacle c.minute r none true s e with
      | some _ => (b0, .turnaround)
      | none =>
        match b0.addBooking true (walkUpBooking r c.minute s e) with
        | .error _ => (b0, .poolEmpty)
        | .ok (_, b1) => (b1.raise (.room r .walkup), .booked e)

/-- A panel request for room `r` judged first by R79, and then on the view as the bringing up to date left it. -/
def Records.panelRequest (b : Records) (c : Clock) (r : RoomNo) (act : Records → Records × PanelResult) :
    Records × PanelResult :=
  if b.pool.isReady then
    if c.state = .unset then (b, .nothing)
    else if b.inService r then act (b.bringUpSet c r)
    else (b, .closed)
  else (b, .busy)

/-- A request taken by BKE, its result handed back to the line controller (R79, R161). -/
def State.takeRequest (act : Records → Clock → RoomNo → Records × PanelResult) (s : State) (x : PanelHandoff) :
    State :=
  let r := s.recs.panelRequest s.clk x.room fun b => act b s.clk x.room
  { s.withRecs r.1 with
    mail := { s.mail with
      results := s.mail.results ++ [{ line := x.line, node := x.node, room := x.room, result := r.2 }] } }

/-- Whether a hand-off is the request `q`. -/
def PanelItem.asks (q : Request) (x : PanelItem) : Bool := decide (x = .request q)

/-- CHECK_IN. -/
def execCheckIn (l : LineNo) (n : NodeNo) (s : State) : Host.Outcome State Fault Refusal :=
  s.takePanel l n (PanelItem.asks .checkIn) (State.takeRequest Records.panelCheckIn)

/-- EXTEND. -/
def execExtend (l : LineNo) (n : NodeNo) (s : State) : Host.Outcome State Fault Refusal :=
  s.takePanel l n (PanelItem.asks .extend) (State.takeRequest Records.panelExtend)

/-- RELEASE. -/
def execRelease (l : LineNo) (n : NodeNo) (s : State) : Host.Outcome State Fault Refusal :=
  s.takePanel l n (PanelItem.asks .release) (State.takeRequest Records.panelRelease)

/-- WALK_UP. -/
def execWalkUp (l : LineNo) (n : NodeNo) (s : State) : Host.Outcome State Fault Refusal :=
  s.takePanel l n (PanelItem.asks .walkUp) (State.takeRequest Records.panelWalkUp)

/-- The check-in of a motion, when the room whose chain holds the chosen booking has motion check-in on and is not
CLOSING (R81). -/
def Records.motionCheckIn (b : Records) (now : Nat) (r : RoomNo) : Records :=
  match b.arrivingIn now r with
  | some x =>
    if (b.room x.chainRoom).attrs.motionCheckIn && !b.isClosing x.chainRoom then b.checkInAt now x else b
  | none => b

/-- A motion check-in taken by BKE (R81). -/
def State.takeMotionCheckIn (s : State) (x : PanelHandoff) : State :=
  if s.recs.pool.isReady && decide (s.clk.state ≠ .unset) && s.recs.inService x.room then
    s.withRecs ((s.recs.bringUpSet s.clk x.room).motionCheckIn s.clk.minute x.room)
  else s

/-- MOTION_CHECK_IN. -/
def execMotionCheckIn (l : LineNo) (n : NodeNo) (s : State) : Host.Outcome State Fault Refusal :=
  s.takePanel l n (fun x => decide (x = .motionCheckIn)) State.takeMotionCheckIn

end Sys2Proof.Machine
end

