-- ==== Sys2Proof/Machine/Kitchens.lean ====
section
/-! DEFINITION. KLU: the window roll, the pass engine, terminal reports and losses, and the kitchen commands
(chapter 7). -/

namespace Sys2Proof.Machine

open Sys2Proof

/-! ## The window roll (R111 to R113) -/

/-- The window of the range w0 to w0 + 335 that falls on ring entry `i` (R111). -/
def rangeWindow (w0 i : Nat) : Nat := w0 + (i + 336 - w0 % 336) % 336

/-- A ring entry at the roll: set anew when it holds none or a window below the new w0 (R111). -/
def RingEntry.rolled (e : RingEntry) (w0 i : Nat) : RingEntry :=
  match e.window with
  | none => { window := some (rangeWindow w0 i), units := 0 }
  | some w => if w < w0 then { window := some (rangeWindow w0 i), units := 0 } else e

/-- A kitchen whose ring is rolled to `w0` (R111). -/
def Kitchen.rolled (k : Kitchen) (w0 : Nat) : Kitchen := { k with ring := k.ring.mapIdx fun i e => e.rolled w0 i }

/-- Whether order `x` is handed on before order `y`: by prep start window, admission stamp and slot (R100, R112). -/
def dispatchBefore (x y : SlotNo × Order) : Bool :=
  decide (x.2.prepStart < y.2.prepStart) ||
  (decide (x.2.prepStart = y.2.prepStart) &&
    (decide (x.2.admission.getD 0 < y.2.admission.getD 0) ||
      (decide (x.2.admission.getD 0 = y.2.admission.getD 0) && decide (x.1 < y.1))))

/-- An order placed among orders already in the sequence of dispatch. -/
def insertDispatch (x : SlotNo × Order) : List (SlotNo × Order) → List (SlotNo × Order)
  | [] => [x]
  | y :: ys => if dispatchBefore x y then x :: y :: ys else y :: insertDispatch x ys

/-- The orders of kitchen `k` to be dispatched, in their sequence (R112). -/
def Records.dispatchable (b : Records) (k : KitchenNo) (w0 : Nat) : List (SlotNo × Order) :=
  (b.ordersWhere fun o => decide (o.kitchen = k ∧ o.state = .confirmed ∧ o.prepStart ≤ w0)).foldr insertDispatch []

/-- One order dispatched: its shares subtracted and dropped, the order QUEUED at the tail of the ticket queue (R112,
R138). -/
def Records.dispatchOne (b : Records) (c : Clock) (x : SlotNo × Order) : Records :=
  ((b.releaseShares c x.2).setBody x.1 (.order { x.2 with state := .queued, shares := [] })).joinTicket x.2.kitchen x.1

/-- Orders dispatched in sequence, with whether the committed units of some window were lowered. -/
def Records.dispatchAll (b : Records) (c : Clock) : List (SlotNo × Order) → Records × Bool
  | [] => (b, false)
  | x :: rest =>
    let r := (b.dispatchOne c x).dispatchAll c rest
    (r.1, loweredOn c.w0 x.2.shares (b.kitchen x.2.kitchen) ((b.releaseShares c x.2).kitchen x.2.kitchen) || r.2)

/-- The dispatch of a roll, with its one promotion trigger (R112). -/
def Records.dispatch (b : Records) (c : Clock) (k : KitchenNo) : Records :=
  match b.dispatchAll c (b.dispatchable k c.w0) with
  | (b', true) => b'.promotionTrigger c k
  | (b', false) => b'

/-- Order `o` in slot `sl` lapsed: off the waitlist, LAPSED, ORDER_LAPSED raised (R113). -/
def Records.lapse (b : Records) (sl : SlotNo) (o : Order) : Records :=
  ((b.leaveWaitlist o.kitchen sl).setBody sl (.order { o with state := .lapsed, wait := none })).raise
    (.room o.room .orderLapsed)

/-- Whether a waitlisted order's last prep window has begun (R113). -/
def Order.overdue (o : Order) (w0 : Nat) : Bool := decide (windowOf o.delivery ≤ w0 + 1)

/-- The lapses of a roll, along the waitlist (R113). -/
def Records.lapseAll (b : Records) (w0 : Nat) (l : List SlotNo) : Records :=
  l.foldl (fun x sl =>
    match x.order? sl with
    | some o => if o.overdue w0 then x.lapse sl o else x
    | none => x) b

/-- The roll of kitchen `k` for the advance from `o` to `n` (R111). -/
def Records.roll (b : Records) (c : Clock) (k : KitchenNo) (o n : Nat) : Records :=
  if windowOf o = windowOf n then b
  else
    let b1 := b.setKitchen k ((b.kitchen k).rolled c.w0)
    if b.pool.isClearing then b1
    else
      let b2 := b1.dispatch c k
      b2.lapseAll c.w0 (b2.kitchen k).waitlist

/-- WINDOW_ROLL: the oldest advance waiting at the kitchen is taken. -/
def execWindowRoll (k : KitchenNo) (s : State) : Host.Outcome State Fault Refusal :=
  match s.mail.kluAdvances[k.val] with
  | [] => .next s
  | (o, n) :: rest =>
    .next { s with
      recs := s.recs.roll s.clk k o n
      mail := { s.mail with kluAdvances := s.mail.kluAdvances.set k.val rest } }

/-! ## SHEDDING (R117) -/

/-- The units of an order's share in window `w`. -/
def Order.shareIn (o : Order) (w : Nat) : Nat := ((o.shares.filter fun x => decide (x.1 = w)).map fun x => x.2).sum

/-- The orders of kitchen `k` that may be shed for window `w` (R117). -/
def Records.sheddable (b : Records) (k : KitchenNo) (w0 w : Nat) : List (SlotNo × Order) :=
  b.ordersWhere fun o => decide (o.kitchen = k ∧ o.state = .confirmed ∧ w0 < o.prepStart ∧ 0 < o.shareIn w)

/-- Whether order `x` is shed rather than order `y`: the lower class, then the later admission stamp, then the higher
slot (R100, R117). -/
def Records.shedBefore (b : Records) (x y : SlotNo × Order) : Bool :=
  let p := (b.orderClass x.2).rank
  let q := (b.orderClass y.2).rank
  decide (q < p) ||
  (decide (p = q) &&
    (decide (y.2.admission.getD 0 < x.2.admission.getD 0) ||
      (decide (x.2.admission.getD 0 = y.2.admission.getD 0) && decide (y.1 < x.1))))

/-- The order to be shed among several (R117). -/
def Records.chooseShed (b : Records) (l : List (SlotNo × Order)) : Option (SlotNo × Order) :=
  l.foldl (fun a x =>
    match a with
    | none => some x
    | some y => if b.shedBefore x y then some x else some y) none

/-- An order shed: its load released, WAITLISTED with reason SHED, ORDER_SHED raised (R117). -/
def Records.shed (b : Records) (c : Clock) (x : SlotNo × Order) : Records :=
  ((b.releaseShares c x.2).joinWaitlist x.1 x.2 .shed).raise (.room x.2.room .orderShed)

/-- Kitchen `k`'s pass engine set. -/
def Records.setPass (b : Records) (k : KitchenNo) (p : PassState) : Records :=
  b.setKitchen k { (b.kitchen k) with pass := p }

/-- A new walk of the waitlist (R118). -/
def Kitchen.newWalk (k : Kitchen) : Kitchen := { k with pass := .promoting none, again := false }

/-- SHEDDING begun again at w0 + 1, its restart mark cleared (R117, R118). -/
def Kitchen.shedAgain (k : Kitchen) (w0 : Nat) : Kitchen := { k with pass := .shedding (w0 + 1), restart := false }

/-- The examination of window `w` (R117). -/
def Records.shedWindow (b : Records) (c : Clock) (k : KitchenNo) (w : Nat) : Records :=
  let b1 := b.setKitchen k { ((b.kitchen k).touch w) with pass := .shedding w }
  let kit := b1.kitchen k
  if kit.committed w ≤ kit.capacity w then b1.setPass k (.shedding (w + 1))
  else
    match b1.chooseShed (b1.sheddable k c.w0 w) with
    | none => b1.setPass k (.shedding (w + 1))
    | some x => b1.shed c x

/-- One SHEDDING step from a cursor: the restart mark first, then the windows begun, then the window (R117). -/
def Records.sheddingStep (b : Records) (c : Clock) (k : KitchenNo) (cursor : Nat) : Records :=
  let kit := b.kitchen k
  let from0 := if kit.restart then c.w0 + 1 else cursor
  let w := if from0 ≤ c.w0 then c.w0 + 1 else from0
  let b1 := b.setKitchen k { kit with restart := false }
  if c.w0 + 335 < w then b1.setKitchen k (b1.kitchen k).newWalk else b1.shedWindow c k w

/-- SHEDDING_STEP. A kitchen that is not SHEDDING has no such step. -/
def execSheddingStep (k : KitchenNo) (s : State) : Host.Outcome State Fault Refusal :=
  match (s.recs.kitchen k).pass with
  | .shedding cursor => .next (s.withRecs (s.recs.sheddingStep s.clk k cursor))
  | .idle => .next s
  | .promoting _ => .next s

/-! ## PROMOTING (R118 to R120) -/

/-- The first order of kitchen `k`'s waitlist whose place lies after the cursor, if its slot holds an
order (R118; log entry 25). -/
def Records.nextWaiting (b : Records) (k : KitchenNo) (cursor : Option WaitPlace) : Option (SlotNo × Order) :=
  ((b.kitchen k).waitlist.find? fun sl =>
      match cursor with
      | none => true
      | some p => p.ahead (b.placeOf sl)).bind fun sl => (b.order? sl).map fun o => (sl, o)

/-- The order in slot `sl` promoted: admitted, off the waitlist, ORDER_PROMOTED raised (R119). -/
def Records.promote (b : Records) (sl : SlotNo) (o : Order) (x : Load) : Records :=
  ((b.leaveWaitlist o.kitchen sl).admitOrder sl o x).raise (.room o.room .orderPromoted)

/-- The examination of an order: lapsed, promoted, or left with the load of this computation (R119, R127). -/
def Records.examine (b : Records) (c : Clock) (menu : Vector MenuClass 16) (sl : SlotNo) (o : Order) : Records :=
  match computeLoad menu[o.menuClass.val] o.headcount o.delivery c.w0 with
  | none => b.lapse sl o
  | some x =>
    let b1 := b.setKitchen o.kitchen ((b.kitchen o.kitchen).touchTested x.shares)
    if (b1.kitchen o.kitchen).fits x.shares then b1.promote sl o x
    else b1.setBody sl (.order { o with load := x.units, prepStart := x.prepStart })

/-- The end of a walk (R120); the restart mark has been judged by the step. -/
def Kitchen.walkEnded (k : Kitchen) : Kitchen := if k.again then k.newWalk else { k with pass := .idle }

/-- One PROMOTING step (R118 to R120). -/
def Records.promotingStep (b : Records) (c : Clock) (menu : Vector MenuClass 16) (k : KitchenNo)
    (cursor : Option WaitPlace) : Records :=
  let kit := b.kitchen k
  if kit.restart then b.setKitchen k (kit.shedAgain c.w0)
  else
    match b.nextWaiting k cursor with
    | none => b.setKitchen k kit.walkEnded
    | some (sl, o) => (b.setPass k (.promoting (some (b.placeOf sl)))).examine c menu sl o

/-- PROMOTING_STEP. A kitchen that is not PROMOTING has no such step. -/
def execPromotingStep (k : KitchenNo) (s : State) : Host.Outcome State Fault Refusal :=
  match (s.recs.kitchen k).pass with
  | .promoting cursor => .next (s.withRecs (s.recs.promotingStep s.clk s.menu k cursor))
  | .idle => .next s
  | .shedding _ => .next s

/-! ## Terminal reports and losses (R102) -/

/-- TERMINAL_REPORT taken alone, with the level carried. A good terminal answer makes its report inside its own event
(R158); a report taken alone stands for one from an ONLINE terminal, so a kitchen without one, as on a DISABLED line,
takes none (log entry 7). -/
def execTerminalReport (a : TerminalReportArgs) (s : State) : Host.Outcome State Fault Refusal :=
  .next (if s.recs.terminalOnline a.kitchen then s.withRecs (s.recs.terminalReported s.clk a.kitchen a.level) else s)

/-- TERMINAL_LOSS taken alone. A third miss, the disabling of a line and RESTART_LINE make their losses inside their own
events (log entry 7). -/
def execTerminalLoss (k : KitchenNo) (s : State) : Host.Outcome State Fault Refusal :=
  .next (s.withRecs (s.recs.terminalLost s.clk k))

/-! ## The kitchen commands (R122 to R126) -/

/-- What KLU does with WRITE_MENU_CLASS (R122). -/
def State.writeMenuClass (cls weight setup lead : Nat) (s : State) : State × Answer :=
  match menuNo? cls with
  | none => refuse s .badValue
  | some m =>
    if weight ≤ 255 ∧ setup ≤ 63 ∧ 1 ≤ lead ∧ lead ≤ 4 then
      ({ s with menu := s.menu.set m.val { weight := weight, setup := setup, lead := lead } },
       .now .ok (be 1 weight ++ be 1 setup ++ be 1 lead))
    else refuse s .badValue

/-- WRITE_MENU_CLASS. -/
def execWriteMenuClass (tag : Byte) (cls weight setup lead : Nat) (s : State) : Host.Outcome State Fault Refusal :=
  s.serve (.writeMenuClass tag cls weight setup lead) (State.writeMenuClass cls weight setup lead)

/-- The banks of a kitchen as bytes. -/
def Kitchen.bankBytes (k : Kitchen) : List Byte := k.banks.toList.flatMap (be 2)

/-- What KLU does with WRITE_BANKS (R122). -/
def State.writeBanks (kitchen : Nat) (banks : Vector Nat 8) (s : State) : State × Answer :=
  match kitchenNo? kitchen with
  | none => refuse s .badKitchen
  | some k =>
    if banks.toList.all fun c => decide (c ≤ 4095) then
      let b := s.recs.changeKitchen s.clk k { (s.recs.kitchen k) with banks := banks }
      (s.withRecs b, .now .ok ((b.kitchen k).bankBytes ++ be 2 (b.kitchen k).inForce))
    else refuse s .badValue

/-- WRITE_BANKS. -/
def execWriteBanks (tag : Byte) (kitchen : Nat) (banks : Vector Nat 8) (s : State) :
    Host.Outcome State Fault Refusal :=
  s.serve (.writeBanks tag kitchen banks) (State.writeBanks kitchen banks)

/-- Whether hours are accepted (R123). -/
def hoursOk (opens closes : Nat) : Bool :=
  decide (opens % 30 = 0) && decide (closes % 30 = 0) && decide (opens ≤ closes) && decide (closes ≤ 1440)

/-- What KLU does with WRITE_KITCHEN (R123). -/
def State.writeKitchen (kitchen opens closes fallback : Nat) (s : State) : State × Answer :=
  match kitchenNo? kitchen with
  | none => refuse s .badKitchen
  | some k =>
    match level? fallback with
    | none => refuse s .badValue
    | some f =>
      if hoursOk opens closes then
        let b := s.recs.reformLevel s.clk k
          { (s.recs.kitchen k) with opens := opens, closes := closes, fallback := f }
        let x := b.kitchen k
        (s.withRecs b, .now .ok (be 2 x.opens ++ be 2 x.closes ++ be 1 x.fallback.val ++ be 1 x.active.val))
      else refuse s .badValue

/-- WRITE_KITCHEN. -/
def execWriteKitchen (tag : Byte) (kitchen opens closes fallback : Nat) (s : State) :
    Host.Outcome State Fault Refusal :=
  s.serve (.writeKitchen tag kitchen opens closes fallback) (State.writeKitchen kitchen opens closes fallback)

/-- The override level that SET_STAFFING asks for: absent for CLEAR, none for a level out of range (R124). -/
def staffingLevel (level : Option Nat) : Option (Option (Fin 8)) :=
  match level with
  | none => some none
  | some n => (level? n).map some

/-- A level that may be absent, as bytes. -/
def levelBytes (x : Option (Fin 8)) : List Byte := optByte (x.map fun l => l.val)

/-- What KLU does with SET_STAFFING (R124). -/
def State.setStaffing (kitchen : Nat) (level : Option Nat) (s : State) : State × Answer :=
  match kitchenNo? kitchen with
  | none => refuse s .badKitchen
  | some k =>
    match staffingLevel level with
    | none => refuse s .badValue
    | some v =>
      let b := s.recs.reformLevel s.clk k { (s.recs.kitchen k) with override := v }
      let x := b.kitchen k
      (s.withRecs b, .now .ok (levelBytes x.override ++ levelBytes x.reported ++ yesNo x.online ++ be 1 x.active.val))

/-- SET_STAFFING. -/
def execSetStaffing (tag : Byte) (kitchen : Nat) (level : Option Nat) (s : State) :
    Host.Outcome State Fault Refusal :=
  s.serve (.setStaffing tag kitchen level) (State.setStaffing kitchen level)

/-- A pass state, numbered from 0 in the order of R100, and then the two marks and the window cursor (R125). -/
def Kitchen.passBytes (k : Kitchen) : List Byte :=
  match k.pass with
  | .idle => [0] ++ yesNo k.restart ++ yesNo k.again ++ [0, 0, 0, 0]
  | .shedding w => [1] ++ yesNo k.restart ++ yesNo k.again ++ optBytes 3 (some w)
  | .promoting _ => [2] ++ yesNo k.restart ++ yesNo k.again ++ [0, 0, 0, 0]

/-- Whether a slot holds a CONFIRMED order of kitchen `k` that satisfies `p`. -/
def SlotBody.confirmedOf (x : SlotBody) (k : KitchenNo) (p : Order → Bool) : Bool :=
  match x with
  | .order o => decide (o.kitchen = k ∧ o.state = .confirmed) && p o
  | .free => false
  | .booking _ => false

/-- The number of CONFIRMED orders of kitchen `k` that satisfy `p`. -/
def Records.countConfirmed (b : Records) (k : KitchenNo) (p : Order → Bool) : Nat :=
  b.countSlots fun x => x.confirmedOf k p

/-- The response items of READ_KITCHEN (R125). DEDUCED: the line and node of the terminal are one item that may be absent,
under one presence byte (log entry 10). -/
def Records.kitchenPayload (b : Records) (k : KitchenNo) : List Byte :=
  let x := b.kitchen k
  let q := b.queue k
  x.bankBytes ++ be 2 x.opens ++ be 2 x.closes ++ be 1 x.fallback.val ++ levelBytes x.override ++
  levelBytes x.reported ++
  (match x.terminal with
    | some t => 1 :: be 1 t.1.val ++ be 1 (t.2.val + 1)
    | none => [0, 0, 0]) ++
  yesNo x.online ++ be 1 x.active.val ++ be 2 x.inForce ++ x.passBytes ++ be 2 x.waitlist.length ++
  (match x.waitlist.head? with
    | some sl => 1 :: handleBytes (b.orderHandle sl)
    | none => [0, 0, 0, 0, 0]) ++
  be 2 (q.entries.countP fun e => !e.asVoid) ++ be 2 (q.entries.countP fun e => e.asVoid) ++
  be 2 (b.countConfirmed k fun _ => true) ++ be 4 x.admissions ++ be 4 x.waits ++
  kindBytes (b.notices.kitchens[k.val].map KitchenNotice.num)

/-- What KLU does with READ_KITCHEN (R125). -/
def State.readKitchen (kitchen : Nat) (s : State) : State × Answer :=
  match kitchenNo? kitchen with
  | none => refuse s .badKitchen
  | some k => (s, .now .ok (s.recs.kitchenPayload k))

/-- READ_KITCHEN. -/
def execReadKitchen (tag : Byte) (kitchen : Nat) (s : State) : Host.Outcome State Fault Refusal :=
  s.serve (.readKitchen tag kitchen) (State.readKitchen kitchen)

/-- The response items of READ_WINDOW (R126). -/
def Records.windowPayload (b : Records) (w0 : Nat) (k : KitchenNo) (w : Nat) : List Byte :=
  let x := b.kitchen k
  be 3 w ++ be 2 (30 * w / 1440) ++ be 2 (30 * w % 1440) ++ yesNo (decide (w ≤ w0)) ++ be 2 (x.capacity w) ++
  be 2 (x.committed w) ++ be 2 (b.countConfirmed k fun o => decide (0 < o.shareIn w))

/-- What KLU does with READ_WINDOW (R126). -/
def State.readWindow (kitchen window : Nat) (s : State) : State × Answer :=
  match kitchenNo? kitchen with
  | none => refuse s .badKitchen
  | some k =>
    if s.clk.w0 ≤ window ∧ window ≤ s.clk.w0 + 335 then
      let b := s.recs.setKitchen k ((s.recs.kitchen k).touch window)
      (s.withRecs b, .now .ok (b.windowPayload s.clk.w0 k window))
    else refuse s .badValue

/-- READ_WINDOW. -/
def execReadWindow (tag : Byte) (kitchen window : Nat) (s : State) : Host.Outcome State Fault Refusal :=
  s.serve (.readWindow tag kitchen window) (State.readWindow kitchen window)

end Sys2Proof.Machine
end

