-- ==== Sys2Proof/Machine/Pages.lean ====
section
/-! DEFINITION. PGC: the page of a door panel, its bytes and its time-change minute (chapter 10). -/

namespace Sys2Proof.Machine

open Sys2Proof

/-- The statuses of a page, in the order in which they are judged (R163). -/
inductive PageStatus where
  | standby | closed | inUse | arriving | releasedRecent | turnaround | free
  deriving DecidableEq, Repr

/-- An entry block (R166). -/
structure PageEntry where
  start : Nat
  stop : Nat
  title : Text
  checkedIn : Bool
  held : Bool
  deriving DecidableEq, Repr

/-- What of a page can change through time alone: its status, which gives the border, the free-until minute and the
entries (R168). -/
structure PageBody where
  status : PageStatus
  freeUntil : Option Int
  entries : List PageEntry
  deriving DecidableEq, Repr

/-- Whether a reason is one that RELEASED_RECENT shows (R163). -/
def Reason.showsRecent : Reason → Bool
  | .noShow => true
  | .vacated => true
  | .doorRelease => true
  | .ended => false
  | .skipped => false
  | .holdExpired => false
  | .cancelled => false
  | .closed => false

/-- Condition 5 of R163 for a room's last release. -/
def Room.releasedRecently (x : Room) (now : Nat) : Bool :=
  match x.lastRelease with
  | some p => p.1.showsRecent && decide (now < p.2 + 10)
  | none => false

/-- Condition 6 of R163 for a room. -/
def Room.inTurnaround (x : Room) (now : Nat) : Bool :=
  match x.turnaround with
  | some t => decide (now < t)
  | none => false

/-- Whether a booking of room `r`'s view is reported in state `st` (R91, R162). -/
def Records.someReported (b : Records) (c : Clock) (r : RoomNo) (st : BookingState) : Bool :=
  (b.livingView c.minute r).any fun x => decide (reportedState c (b.room x.chainRoom).attrs x.booking = st)

/-- The status of room `r`'s page (R163). -/
def Records.pageStatus (b : Records) (c : Clock) (r : RoomNo) : PageStatus :=
  if c.state = .unset then .standby
  else if b.inService r = false then .closed
  else if b.someReported c r .inUse then .inUse
  else if b.someReported c r .arriving then .arriving
  else if (b.viewRooms r).any fun q => (b.room q).releasedRecently c.minute then .releasedRecent
  else if (b.conflictSet r).any fun q => (b.room q).inTurnaround c.minute then .turnaround
  else .free

/-- Whether a status admits a free-until minute (R165). -/
def PageStatus.showsFree : PageStatus → Bool
  | .free => true
  | .releasedRecent => true
  | .standby => false
  | .closed => false
  | .inUse => false
  | .arriving => false
  | .turnaround => false

/-- The free-until minute of room `r`'s page with status `st` (R165). -/
def Records.freeUntil (b : Records) (now : Nat) (r : RoomNo) (st : PageStatus) : Option Int :=
  if st.showsFree then
    match (b.livingView now r).head? with
    | some x =>
      if x.booking.start ≤ now + 1440 then some ((x.booking.start : Int) - (b.gapOf r x.chainRoom : Int)) else none
    | none => none
  else none

/-- An entry block of a booking (R166). -/
def Booking.entry (k : Booking) : PageEntry :=
  { start := k.start, stop := k.stop, title := if k.state = .held then heldTitle else k.title,
    checkedIn := k.checkedIn, held := decide (k.state = .held) }

/-- The number of entry blocks a page may have (R166). -/
def entryLimit (compact : Bool) : Nat := if compact then 2 else 4

/-- The body of room `r`'s page at the clock `c` (R163 to R166). -/
def Records.pageBody (b : Records) (c : Clock) (r : RoomNo) (compact : Bool) : PageBody :=
  let st := b.pageStatus c r
  { status := st, freeUntil := b.freeUntil c.minute r st,
    entries := if st = .standby then [] else
      ((b.livingView c.minute r).take (entryLimit compact)).map fun x => x.booking.entry }

/-! ## The time-change minute (R168) -/

/-- The minutes at which a booking of the view can change a page (table of R168). -/
def Records.bookingMinutes (b : Records) (x : Seen) : List Nat :=
  let k := x.booking
  [k.start - (b.room x.chainRoom).attrs.lead, k.start, k.stop, k.start - 1440] ++ k.holdExpiry.toList

/-- The minutes at which a room's dynamic fields can change a page (table of R168). -/
def Room.changeMinutes (x : Room) : List Nat :=
  (x.lastRelease.map fun p => p.2 + 10).toList ++ x.turnaround.toList

/-- Every minute at which a page of room `r` could differ through time alone (table of R168). -/
def Records.changeMinutes (b : Records) (r : RoomNo) : List Nat :=
  (b.view r).flatMap b.bookingMinutes ++
  (b.viewRooms r ++ b.conflictSet r).flatMap fun q => (b.room q).changeMinutes

/-- The lesser of two minutes, the first of which may be absent. -/
def earlier (a : Option Nat) (m : Nat) : Option Nat :=
  match a with
  | some x => some (min x m)
  | none => some m

/-- The first minute after now at which the page would differ, while the clock is RUNNING (R168). Between two
successive minutes of the table the page cannot change. -/
def Records.timeChange (b : Records) (c : Clock) (r : RoomNo) (compact : Bool) : Option Nat :=
  if c.state = .running then
    let now := b.pageBody c r compact
    ((b.changeMinutes r).filter fun m =>
      decide (c.minute < m) && decide (m ≤ Config.maxMinute) &&
      decide (b.pageBody { c with minute := m } r compact ≠ now)).foldl earlier none
  else none

/-! ## The PAGE frame (R162, R167, and chapter 11) -/

/-- A status byte of a page. -/
def PageStatus.byte : PageStatus → Byte
  | .standby => 0 | .closed => 1 | .inUse => 2 | .arriving => 3 | .releasedRecent => 4 | .turnaround => 5 | .free => 6

/-- The border that goes with a status: 0 GREY, 1 RED, 2 AMBER, 3 GREEN (R163). -/
def PageStatus.border : PageStatus → Byte
  | .standby => 0 | .closed => 0 | .inUse => 1 | .arriving => 2 | .releasedRecent => 3 | .turnaround => 2 | .free => 3

/-- An entry block, 23 bytes. -/
def PageEntry.bytes (e : PageEntry) : List Byte :=
  minuteBytes e.start ++ minuteBytes e.stop ++ e.title.toList ++
  [(if e.checkedIn then 1 else 0) + (if e.held then 2 else 0)]

/-- The free-until item of the status block (R165). DEDUCED: the three bytes of an absent minute are 0 (log entry 38). -/
def freeUntilBytes (m : Option Int) : List Byte :=
  match m with
  | some x => 1 :: minuteBytes x
  | none => [0, 0, 0, 0]

/-- The payload of a PAGE: block count, header, status and entry blocks. -/
def pagePayload (name : Text) (now : Nat) (p : PageBody) (result : Option PanelResult) : List Byte :=
  be 1 (2 + p.entries.length) ++ (name.toList ++ minuteBytes now) ++
  ([p.status.byte, p.status.border] ++ freeUntilBytes p.freeUntil ++ resultBytes result) ++
  p.entries.flatMap PageEntry.bytes

/-- A line frame: address, kind, payload length, payload, check (chapter 11, Line frames; R184). -/
def lineFrame (address kind : Byte) (payload : List Byte) : List Byte :=
  sealFrame address (kind :: be 2 payload.length ++ payload)

end Sys2Proof.Machine
end

