-- ==== Sys2Proof/Machine/Tickets.lean ====
section
/-! DEFINITION. OTU at the terminal: the frame chosen for a visit, and the settlement of answers, losses and order
reports (R140 to R143). -/

namespace Sys2Proof.Machine

open Sys2Proof

/-- The payload of a TICKET (chapter 11, Line frames; R140). -/
def Records.ticketPayload (b : Records) (sl : SlotNo) (o : Order) : List Byte :=
  let owner := o.owner.bind fun h => (slotNo? h.slot).bind b.booking?
  handleBytes (b.orderHandle sl) ++ roomBytes o.room ++ (b.room o.room).attrs.name.toList ++
  minuteBytes o.delivery ++ be 1 o.menuClass.val ++ be 1 o.headcount ++ [(b.orderClass o).byte] ++
  ((owner.map fun k => k.title).getD (Vector.replicate 16 32)).toList

/-- The payload of a VOID (R140). -/
def Records.voidPayload (b : Records) (sl : SlotNo) (o : Order) : List Byte :=
  handleBytes (b.orderHandle sl) ++ roomBytes o.room

/-- The frame chosen for a visit to kitchen `k`'s terminal, its payload, and the frame then in flight (R140). -/
def Records.chooseFrame (b : Records) (k : KitchenNo) : FrameKind × List Byte × Option (Handle × Bool) :=
  if b.pool.isClearing then (.poll, [], none)
  else
    match (b.queue k).entries with
    | [] => (.poll, [], none)
    | e :: _ =>
      match b.order? e.slot with
      | none => (.poll, [], none)
      | some o =>
        if e.asVoid then (.voided, b.voidPayload e.slot o, some (b.orderHandle e.slot, true))
        else (.ticket, b.ticketPayload e.slot o, some (b.orderHandle e.slot, false))

/-- Kitchen `k`'s frame in flight set. -/
def Records.setInFlight (b : Records) (k : KitchenNo) (f : Option (Handle × Bool)) : Records :=
  b.setQueue k { (b.queue k) with inFlight := f }

/-- The head entry whose frame is in flight, with its living record and whether a VOID was sent (R141, R142). -/
def Records.headInFlight (b : Records) (k : KitchenNo) : Option (SlotNo × Order × Bool) :=
  match (b.queue k).entries.head?, (b.queue k).inFlight with
  | some e, some f =>
    if b.inFlightAtHead k e.slot then (b.order? e.slot).map fun o => (e.slot, o, f.2) else none
  | some _, none => none
  | none, _ => none

/-- The settlement of the frame in flight at an answer (R141). -/
def Records.settleAnswer (b : Records) (k : KitchenNo) : Records :=
  let b1 := b.setInFlight k none
  match b.headInFlight k with
  | none => b1
  | some (sl, o, true) => if o.state = .voiding then (b1.leaveQueue k sl).returnSlot sl else b1
  | some (sl, o, false) =>
    if o.state = .queued then (b1.leaveQueue k sl).setBody sl (.order { o with state := .ticketed })
    else if o.state = .voiding then (b1.leaveQueue k sl).joinVoid k sl
    else b1

/-- The settlement of the frame in flight at its loss (R142). -/
def Records.settleLoss (b : Records) (k : KitchenNo) : Records :=
  let b1 := b.setInFlight k none
  match b.headInFlight k with
  | none => b1
  | some (_, _, true) => b1
  | some (sl, o, false) => if o.state = .voiding then (b1.leaveQueue k sl).returnSlot sl else b1

/-- An order report: ACCEPT or DONE with a handle (R143). -/
structure Report where
  kind : Byte
  handle : Handle
  deriving DecidableEq, Repr

/-- What a report makes of an order's state, if anything: kind 1 is ACCEPT and kind 2 DONE (R143, R185). -/
def Report.acts (x : Report) (st : OrderState) : Option OrderState :=
  if x.kind = 1 then if st = .ticketed then some .accepted else none
  else if x.kind = 2 then if st = .ticketed ∨ st = .accepted then some .done else none
  else none

/-- A report from kitchen `k`'s terminal taken (R143). -/
def Records.takeReport (b : Records) (k : KitchenNo) (x : Report) : Records :=
  match b.checkHandle orderKind x.handle with
  | .error _ => b
  | .ok sl =>
    match b.order? sl with
    | none => b
    | some o =>
      if o.kitchen = k then
        match x.acts o.state with
        | none => b
        | some st =>
          let b1 := b.setBody sl (.order { o with state := st })
          if st = .done then b1.raise (.room o.room .orderDone) else b1
      else b

/-- The reports of an answer, in the order in which it carries them (R143, R185). -/
def reportsOf (payload : List Byte) : List Report :=
  (List.range (min 4 (byteAt payload 1).toNat)).map fun i =>
    { kind := byteAt payload (2 + 5 * i), handle := handleAt payload (3 + 5 * i) }

/-- An answer of kitchen `k`'s terminal handed to OTU: the settlement, then the reports (R141, R143). -/
def Records.terminalAnswered (b : Records) (k : KitchenNo) (payload : List Byte) : Records :=
  (reportsOf payload).foldl (fun x r => x.takeReport k r) (b.settleAnswer k)

end Sys2Proof.Machine
end

