-- ==== Sys2Proof/Machine/Lines.lean ====
section
/-! DEFINITION. LCA to LCD: the sweep, visits, answers and losses, the second pulse, and the line commands
(chapter 9). -/

namespace Sys2Proof.Machine

open Sys2Proof

/-! ## The sweep (R153) -/

/-- Whether a node is configured (R147). -/
def Node.configured (n : Node) : Bool :=
  match n.kind with
  | .unused => false
  | .panel _ => true
  | .terminal _ => true

/-- Whether a node is to be visited in the sweep counted `count` (R153). -/
def Node.due (n : Node) (count : Nat) : Bool := n.configured && (decide (n.state ≠ .silent) || decide (count = 0))

/-- The lowest node above the sweep position that is to be visited in the present sweep (R153). -/
def Line.nextInSweep (l : Line) : Option NodeNo :=
  (List.finRange 100).find? fun n =>
    (match l.sweepPos with
      | none => true
      | some p => decide (p < n)) && (l.node n).due l.sweepCount

/-- The end of a sweep: the count moves on and the position becomes none (R153). -/
def Line.endSweep (l : Line) : Line := { l with sweepCount := (l.sweepCount + 1) % 8, sweepPos := none }

/-- The choice of the next node, sweeps that end being counted; eight further sweeps reach one counted 0 (R153). -/
def Line.choose : (fuel : Nat) → Line → Line × Option NodeNo
  | 0, l => (l, l.nextInSweep)
  | fuel + 1, l =>
    match l.nextInSweep with
    | some n => (l, some n)
    | none => Line.choose fuel l.endSweep

/-- The controller's choice: none, and no sweep counted, without a configured node (R153). -/
def Line.chooseNext (l : Line) : Line × Option NodeNo :=
  if l.nodes.toList.any Node.configured then Line.choose 8 l else (l, none)

/-- A visit ended: none in flight, and the next node chosen (R153, R156, R157). -/
def Line.visitEnded (l : Line) : Line := ({ l with visit := none } : Line).chooseNext.1

/-! ## The start of a visit (R154) -/

/-- A visit of node `n` with a frame: the sweep position, the visit in flight and the frame sent (R154). -/
def Line.beginVisit (l : Line) (n : NodeNo) (kind : FrameKind) (payload : List Byte) : Line :=
  { l with sweepPos := some n, visit := some { node := n, frame := kind, timeout := l.timeout },
           sent := lineFrame (BitVec.ofNat 8 (n.val + 1)) kind.byte payload }

/-- A node at the start of a PAGE: stale cleared, the snapshot mode and the time-change minute written, result carried
set when a result is pending (R154, R168). -/
def Node.paged (x : Node) (compact : Bool) (change : Option Nat) : Node :=
  { x with stale := false, compact := compact, timeChange := change, carried := x.pendingResult.isSome }

/-- The start of a PAGE to node `n` of line `l` for room `r` (R154, R162). -/
def Records.startPage (b : Records) (c : Clock) (l : LineNo) (ln : Line) (n : NodeNo) (r : RoomNo) : Records :=
  let b1 := b.clearTurnarounds c.minute (b.conflictSet r)
  let a := (b1.room r).attrs
  let x := (ln.node n).paged a.compact (b1.timeChange c r a.compact)
  b1.setLine l ((ln.setNode n x).beginVisit n .page
    (pagePayload a.name c.minute (b1.pageBody c r a.compact) x.pendingResult))

/-- The start of a visit to node `n` (R154). -/
def Records.startVisit (b : Records) (c : Clock) (l : LineNo) (ln : Line) (n : NodeNo) : Records :=
  match (ln.node n).kind with
  | .unused => b
  | .panel r =>
    if (ln.node n).stale then b.startPage c l ln n r else b.setLine l (ln.beginVisit n .poll [])
  | .terminal k =>
    let f := b.chooseFrame k
    (b.setInFlight k f.2.2).setLine l (ln.beginVisit n f.1 f.2.1)

/-- VISIT_START: on a RUNNING line without a visit in flight, a visit to the next node begins. -/
def execVisitStart (l : LineNo) (s : State) : Host.Outcome State Fault Refusal :=
  let ln := s.recs.line l
  if ln.running && ln.visit.isNone then
    match ln.chooseNext with
    | (ln', some n) => .next (s.withRecs (s.recs.startVisit s.clk l ln' n))
    | (_, none) => .next s
  else .next s

/-! ## Answers (R155, R156) -/

/-- The payload of a good answer to the visited node, if the frame is one (R155). -/
def goodAnswer (n : NodeNo) (kind : NodeKind) (frame : List Byte) : Option (List Byte) :=
  match frame with
  | address :: k :: high :: low :: rest =>
    let len := ofBytes [high, low]
    let payload := rest.take len
    let fits : Bool :=
      match kind with
      | .unused => false
      | .panel _ => decide (k = 9) && decide (len = 2)
      | .terminal _ => decide (k = 10) && decide (2 + 5 * min 4 (byteAt payload 1).toNat ≤ len)
    if address.toNat = n.val + 1 + 128 ∧ rest.length = len + 2 ∧
        rest.drop len = crcBytes (k :: high :: low :: payload) ∧ 2 ≤ len ∧ fits = true then
      some payload
    else none
  | _ => none

/-- The request of a panel answer; a code above 4 is none (R185). -/
def requestOf (code : Byte) : Option Request :=
  if code = 1 then some .checkIn
  else if code = 2 then some .extend
  else if code = 3 then some .release
  else if code = 4 then some .walkUp
  else none

/-- The hand-offs of a panel answer at minute `now`: its motion count, read as at most 15, then its request (R156,
R173, R185). -/
def panelItems (now : Nat) (payload : List Byte) : List PanelItem :=
  .motion (min (byteAt payload 0).toNat 15) now :: (requestOf (byteAt payload 1)).toList.map .request

/-- Whether an answering node comes back to ONLINE (R156). -/
def Node.comesBack (x : Node) : Bool := decide (x.state ≠ .online)

/-- Steps 1 and 2 of R156 on the node. -/
def Node.answered (x : Node) : Node :=
  { x with misses := 0, state := .online, stale := x.stale || (x.comesBack && x.isPanel) }

/-- The notice of a node that comes back (R156). -/
def Records.raiseBack (b : Records) (x : Node) : Records :=
  if x.comesBack then
    match x.kind with
    | .unused => b
    | .panel r => b.raise (.room r .panelBack)
    | .terminal k => b.raise (.kitchen k .terminalBack)
  else b

/-- A PAGE settled by its answer: page age 0, and a carried result dropped (R156). DEDUCED: the age is 0 after the answer
also when a second pulse came between the frame start and the answer, although R160 says that it counts from the frame
start (log entry 30). -/
def Node.pageSettled (x : Node) : Node :=
  { x with age := 0, pendingResult := if x.carried then none else x.pendingResult, carried := false }

/-- The hand-offs of a good panel answer put behind those that wait (R156, step 4). -/
def Mail.handOn (m : Mail) (now : Nat) (l : LineNo) (n : NodeNo) (kind : NodeKind) (payload : List Byte) : Mail :=
  match kind with
  | .unused => m
  | .panel r =>
    { m with panel := m.panel ++ (panelItems now payload).map fun i => { line := l, node := n, room := r, item := i } }
  | .terminal _ => m

/-- The staffing level of a terminal answer, 0..7 (R185). -/
def levelOf (payload : List Byte) : Fin 8 := ⟨(byteAt payload 0).toNat % 8, Nat.mod_lt _ (by decide)⟩

/-- The records after a good answer: steps 1 to 3 of R156, the terminal report of step 4, which KLU takes in the same
event (R158), and the end of the visit. -/
def Records.goodAnswer (b : Records) (c : Clock) (l : LineNo) (v : Visit) (payload : List Byte) : Records :=
  let ln := b.line l
  let x := ln.node v.node
  let y := if v.frame = .page then x.answered.pageSettled else x.answered
  let b1 := (b.setLine l (ln.setNode v.node y)).raiseBack x
  let b2 :=
    match x.kind with
    | .unused => b1
    | .panel _ => b1
    | .terminal k => (b1.terminalAnswered k payload).terminalReported c k (levelOf payload)
  b2.setLine l (b2.line l).visitEnded

/-! ## Losses (R157) -/

/-- The frame of a visit settled as lost: a PAGE is stale again, a TICKET or VOID is handed to OTU (R142, R157). -/
def Records.settleFrame (b : Records) (l : LineNo) (v : Visit) : Records :=
  let ln := b.line l
  match (ln.node v.node).kind with
  | .unused => b
  | .panel _ => if v.frame = .page then b.setLine l (ln.setNode v.node (ln.node v.node).mark) else b
  | .terminal k => b.settleLoss k

/-- A node that has missed once more: SILENT when its misses pass from 2 to 3 (R157). -/
def Node.missed (x : Node) : Node :=
  { x with misses := min 3 (x.misses + 1), state := if x.misses = 2 then .silent else x.state }

/-- The notice of a node's third miss (R157). -/
def Records.raiseSilent (b : Records) (x : Node) : Records :=
  if x.misses = 2 then
    match x.kind with
    | .unused => b
    | .panel r => b.raise (.room r .panelSilent)
    | .terminal k => b.raise (.kitchen k .terminalSilent)
  else b

/-- The kitchen whose ONLINE terminal a node is (R149, R157). -/
def Node.onlineTerminal (x : Node) : Option KitchenNo :=
  match x.kind with
  | .unused => none
  | .panel _ => none
  | .terminal k => if x.state = .online then some k else none

/-- The terminal loss of a third miss, when the node was ONLINE (R157). -/
def Records.lossOf (b : Records) (c : Clock) (x : Node) : Records :=
  if x.misses = 2 then
    match x.onlineTerminal with
    | some k => b.terminalLost c k
    | none => b
  else b

/-- The records after a loss; the terminal loss of a third miss is taken by KLU in the same event (R157, R158). -/
def Records.loss (b : Records) (c : Clock) (l : LineNo) (v : Visit) : Records :=
  let b1 := b.settleFrame l v
  let ln := b1.line l
  let x := ln.node v.node
  let b2 := ((b1.setLine l (ln.setNode v.node x.missed)).raiseSilent x).lossOf c x
  b2.setLine l (b2.line l).visitEnded

/-- A loss at the node visited on line `l` (R157). -/
def State.lose (s : State) (l : LineNo) (v : Visit) : State := s.withRecs (s.recs.loss s.clk l v)

/-! ## The frames that reach a line (R155) -/

/-- A frame that reaches line `l`: discarded without a visit in flight, else a good answer or a loss (R155). -/
def State.lineFrame (s : State) (l : LineNo) (frame : List Byte) : State :=
  match (s.recs.line l).visit with
  | none => s
  | some v =>
    let kind := ((s.recs.line l).node v.node).kind
    match Machine.goodAnswer v.node kind frame with
    | some payload =>
      { s with recs := s.recs.goodAnswer s.clk l v payload, mail := s.mail.handOn s.clk.minute l v.node kind payload }
    | none => s.lose l v

/-- PANEL_ANSWER. -/
def execPanelAnswer (l : LineNo) (frame : List Byte) (s : State) : Host.Outcome State Fault Refusal :=
  .next (s.lineFrame l frame)

/-- TERMINAL_ANSWER. -/
def execTerminalAnswer (l : LineNo) (frame : List Byte) (s : State) : Host.Outcome State Fault Refusal :=
  .next (s.lineFrame l frame)

/-- BAD_ANSWER. -/
def execBadAnswer (l : LineNo) (frame : List Byte) (s : State) : Host.Outcome State Fault Refusal :=
  .next (s.lineFrame l frame)

/-- FRAME_DISCARDED. -/
def execFrameDiscarded (l : LineNo) (frame : List Byte) (s : State) : Host.Outcome State Fault Refusal :=
  .next (s.lineFrame l frame)

/-- VISIT_TIMEOUT: without a visit in flight the expiry finds nothing (R155, R157). -/
def execVisitTimeout (l : LineNo) (s : State) : Host.Outcome State Fault Refusal :=
  match (s.recs.line l).visit with
  | none => .next s
  | some v => .next (s.lose l v)

/-! ## The result of a request (R161) -/

/-- The first result of a node, taken out of those that wait. -/
def takeResult (l : LineNo) (n : NodeNo) : List ResultHandoff → Option (ResultHandoff × List ResultHandoff)
  | [] => none
  | x :: xs =>
    if x.line = l ∧ x.node = n then some (x, xs)
    else (takeResult l n xs).map fun p => (p.1, x :: p.2)

/-- A node that takes a result: pending, not yet carried, stale; a node that no longer names the room discards it
(R161). -/
def Node.takes (x : Node) (r : ResultHandoff) : Node :=
  if x.kind = .panel r.room then { x with pendingResult := some r.result, carried := false, stale := true } else x

/-- REQUEST_RESULT: the oldest result handed back for the node is taken. -/
def execRequestResult (l : LineNo) (n : NodeNo) (s : State) : Host.Outcome State Fault Refusal :=
  match takeResult l n s.mail.results with
  | none => .next s
  | some (x, rest) =>
    let ln := s.recs.line l
    .next { s.withRecs (s.recs.setLine l (ln.setNode n ((ln.node n).takes x))) with
            mail := { s.mail with results := rest } }

/-! ## The second pulse (R160) -/

/-- A PANEL node at a second pulse: its page age up by one, stale at the refresh limit and at its time-change
minute (R160). -/
def Node.aged (x : Node) (refresh now : Nat) : Node :=
  let reached : Bool :=
    match x.timeChange with
    | some t => decide (t ≤ now)
    | none => false
  { x with age := min 255 (x.age + 1), stale := x.stale || decide (x.age + 1 = refresh) || reached,
           timeChange := if reached then none else x.timeChange }

/-- A line at a second pulse (R160). -/
def Line.aged (l : Line) (now : Nat) : Line :=
  { l with nodes := l.nodes.map fun x => if x.isPanel then x.aged l.refresh now else x }

/-- SECOND_PULSE: a pulse that waits at the line is taken. -/
def execSecondPulse (l : LineNo) (s : State) : Host.Outcome State Fault Refusal :=
  match s.mail.pulses[l.val] with
  | 0 => .next s
  | p + 1 =>
    .next { s.withRecs (s.recs.setLine l ((s.recs.line l).aged s.clk.minute)) with
            mail := { s.mail with pulses := s.mail.pulses.set l.val p } }

/-! ## SET_LINE and RESTART_LINE (R148 to R150) -/

/-- A node when its line is disabled or restarted (R149). -/
def Node.restarted (x : Node) : Node :=
  { x with state := .unknown, misses := 0, stale := x.stale || x.isPanel,
           pendingResult := if x.isPanel then none else x.pendingResult,
           carried := if x.isPanel then false else x.carried }

/-- The nodes of a line reset, its visit abandoned and its sweep position none (R149, R150). DESIGN CHOICE: the sweep count
stays as it was when a line is disabled; R146 says that disabling changes it and R149 gives it no value (log entry
36). -/
def Line.cleared (l : Line) : Line := { l with nodes := l.nodes.map Node.restarted, visit := none, sweepPos := none }

/-- The abandonment of a line's visit and the setting of its nodes, with the terminal losses, which KLU takes in the same
event (R149, R158). -/
def Records.clearLine (b : Records) (c : Clock) (l : LineNo) : Records :=
  let b1 :=
    match (b.line l).visit with
    | some v => b.settleFrame l v
    | none => b
  let lost := (b.line l).nodes.toList.filterMap Node.onlineTerminal
  lost.foldl (fun x k => x.terminalLost c k) (b1.setLine l (b1.line l).cleared)

/-- The number of nodes of a line that satisfy `p`, as a byte. -/
def Line.countNodes (l : Line) (p : Node → Bool) : List Byte := be 1 (l.nodes.toList.countP p)

/-- Whether a node is a TERMINAL node. -/
def Node.isTerminal (x : Node) : Bool := x.configured && !x.isPanel

/-- A line state as a byte: 0 DISABLED, 1 RUNNING (R186). -/
def Line.stateByte (l : Line) : List Byte := yesNo l.running

/-- The response items of SET_LINE and RESTART_LINE (R148). -/
def Line.payload (l : Line) : List Byte :=
  let count (kind : Node → Bool) (st : NodeState) : List Byte :=
    l.countNodes fun x => kind x && decide (x.state = st)
  l.stateByte ++ be 1 l.timeout ++ be 1 l.refresh ++ be 1 l.sweepCount ++
  count Node.isPanel .unknown ++ count Node.isPanel .online ++ count Node.isPanel .silent ++
  count Node.isTerminal .unknown ++ count Node.isTerminal .online ++ count Node.isTerminal .silent

/-- A line with a new timeout and refresh limit, its pages at or above the limit marked stale (R148). -/
def Line.configuredWith (l : Line) (timeout refresh : Nat) : Line :=
  { l with timeout := timeout, refresh := refresh,
           nodes := l.nodes.map fun x => if x.isPanel && decide (refresh ≤ x.age) then x.mark else x }

/-- Line `l` of the state replaced. -/
def State.setLine (s : State) (l : LineNo) (x : Line) : State := s.withRecs (s.recs.setLine l x)

/-- The line made to enter a state (R148, R149). -/
def State.enterLine (s : State) (l : LineNo) (run : Bool) : State :=
  let ln := s.recs.line l
  match ln.running, run with
  | true, true => s
  | false, false => s
  | false, true => s.setLine l { ln with running := true, sweepCount := 0, sweepPos := none }
  | true, false =>
    let s1 := s.withRecs (s.recs.clearLine s.clk l)
    s1.setLine l { (s1.recs.line l) with running := false }

/-- What a line controller does with SET_LINE (R148). -/
def State.setLineTo (line state timeout refresh : Nat) (s : State) : State × Answer :=
  match lineNo? line with
  | none => refuse s .badValue
  | some l =>
    if state ≤ 1 ∧ 1 ≤ timeout ∧ timeout ≤ 20 ∧ 10 ≤ refresh ∧ refresh ≤ 110 then
      let s1 := (s.setLine l ((s.recs.line l).configuredWith timeout refresh)).enterLine l (decide (state = 1))
      (s1, .now .ok (s1.recs.line l).payload)
    else refuse s .badValue

/-- SET_LINE. -/
def execSetLine (tag : Byte) (line state timeout refresh : Nat) (s : State) : Host.Outcome State Fault Refusal :=
  s.serve (.setLine tag line state timeout refresh) (State.setLineTo line state timeout refresh)

/-- The sweep of a RUNNING line begun anew (R150). -/
def Line.sweepAnew (l : Line) : Line := if l.running then { l with sweepCount := 0 } else l

/-- What a line controller does with RESTART_LINE (R150). -/
def State.restartLine (line : Nat) (s : State) : State × Answer :=
  match lineNo? line with
  | none => refuse s .badValue
  | some l =>
    let s1 := s.withRecs (s.recs.clearLine s.clk l)
    let s2 := s1.setLine l (s1.recs.line l).sweepAnew
    (s2, .now .ok (s2.recs.line l).payload)

/-- RESTART_LINE. -/
def execRestartLine (tag : Byte) (line : Nat) (s : State) : Host.Outcome State Fault Refusal :=
  s.serve (.restartLine tag line) (State.restartLine line)

/-! ## WRITE_NODE and READ_NODE (R151, R152) -/

/-- Checks 3 and 4 of R151: the kind and target written. -/
def Records.nodeKindOf (b : Records) (kind target : Nat) : Except Status NodeKind :=
  if kind = 1 then
    match roomNo? target with
    | none => .error .badRoom
    | some r => if b.isDefined r && !(b.room r).isCombined then .ok (.panel r) else .error .badRoom
  else if kind = 2 then
    match kitchenNo? target with
    | none => .error .badKitchen
    | some k => .ok (.terminal k)
  else .ok .unused

/-- Check 5 of R151: whether a node other than `n` of line `l` already has a kind that names a target. -/
def Records.namedElsewhere (b : Records) (l : LineNo) (n : NodeNo) (kind : NodeKind) : Bool :=
  decide (kind ≠ .unused) &&
  (List.finRange 4).any fun l' => (List.finRange 100).any fun n' =>
    decide (((b.line l').node n').kind = kind) && !(decide (l' = l) && decide (n' = n))

/-- Check 6 of R151: whether a TERMINAL node would be moved away from a kitchen whose ticket queue holds entries. -/
def Records.queueHeld (b : Records) (old new : NodeKind) : Bool :=
  match old with
  | .unused => false
  | .panel _ => false
  | .terminal k => decide (new ≠ .terminal k) && !(b.queue k).entries.isEmpty

/-- A node as WRITE_NODE leaves it (R147). -/
def Node.written (kind : NodeKind) : Node :=
  { Node.reset with
    kind := kind
    stale := match kind with
      | .panel _ => true
      | .unused => false
      | .terminal _ => false }

/-- A kitchen's terminal node field written, its reported level absent (R102). -/
def Kitchen.withTerminal (k : Kitchen) (t : Option (LineNo × NodeNo)) : Kitchen :=
  { k with terminal := t, reported := none }

/-- The kitchen that a kind of node names, given terminal node `t` and its active level formed again (R102, R151). -/
def Records.nameTerminal (b : Records) (c : Clock) (kind : NodeKind) (t : Option (LineNo × NodeNo)) : Records :=
  match kind with
  | .unused => b
  | .panel _ => b
  | .terminal k => b.reformLevel c k ((b.kitchen k).withTerminal t)

/-- A WRITE_NODE applied (R151). -/
def Records.writeNode (b : Records) (c : Clock) (l : LineNo) (n : NodeNo) (kind : NodeKind) : Records :=
  let old := ((b.line l).node n).kind
  let b1 := b.setLine l ((b.line l).setNode n (Node.written kind))
  let b2 := if old = kind then b1 else b1.nameTerminal c old none
  b2.nameTerminal c kind (some (l, n))

/-- The visit in flight to a node with its frame kind (R152). DEDUCED: "whether a visit to the node is in flight, and with
which frame kind" is one item that may be absent, a presence byte and the byte of the frame kind (log entry 10). -/
def Line.visitBytes (l : Line) (n : NodeNo) : List Byte :=
  match l.visit with
  | some v => if v.node = n then [1, v.frame.byte] else [0, 0]
  | none => [0, 0]

/-- A node's kind and target (R152, R186). DEDUCED: the target in a response is an item that may be absent and takes two
bytes for a kitchen as for a room, as the target field of WRITE_NODE does (log entry 10). -/
def NodeKind.bytes : NodeKind → List Byte
  | .unused => [0, 0, 0, 0]
  | .panel r => [1, 1] ++ roomBytes r
  | .terminal k => [2, 1] ++ be 2 k.val

/-- The reported level of a TERMINAL node's kitchen; nothing for another node (R152). -/
def Records.nodeLevelBytes (b : Records) (kind : NodeKind) : List Byte :=
  match kind with
  | .unused => []
  | .panel _ => []
  | .terminal k => optByte ((b.kitchen k).reported.map fun x => x.val)

/-- The response items of READ_NODE and WRITE_NODE (R152). -/
def Records.nodePayload (b : Records) (l : LineNo) (n : NodeNo) : List Byte :=
  let ln := b.line l
  let x := ln.node n
  x.kind.bytes ++ [x.state.byte] ++ be 1 x.misses ++ yesNo x.stale ++ be 1 x.age ++
  (if x.pendingResult.isSome then [1] else [0]) ++ resultBytes x.pendingResult ++ yesNo x.compact ++
  optMinute x.timeChange ++ ln.visitBytes n ++ b.nodeLevelBytes x.kind ++ ln.stateByte ++ be 1 ln.sweepCount

/-- The checks of R151 after the line and node: the kind to be written, or the refusal. -/
def Records.judgeNode (b : Records) (l : LineNo) (n : NodeNo) (kind target : Nat) : Except Status NodeKind :=
  match firstRefusal [(decide (kind ≤ 2), .badValue), (!(b.line l).running, .lineRunning)] with
  | some st => .error st
  | none =>
    match b.nodeKindOf kind target with
    | .error st => .error st
    | .ok k =>
      match firstRefusal
        [(!b.namedElsewhere l n k, .nodeInUse), (!b.queueHeld ((b.line l).node n).kind k, .nodeInUse)] with
      | some st => .error st
      | none => .ok k

/-- A line and a node of it from their numbers: BAD_VALUE and BAD_NODE come before any other check. -/
def lineAndNode (line node : Nat) : Except Status (LineNo × NodeNo) :=
  match lineNo? line, nodeNo? node with
  | none, _ => .error .badValue
  | some _, none => .error .badNode
  | some l, some n => .ok (l, n)

/-- What a line controller does with WRITE_NODE (R151). -/
def State.writeNode (line node kind target : Nat) (s : State) : State × Answer :=
  match lineAndNode line node with
  | .error st => refuse s st
  | .ok (l, n) =>
    match s.recs.judgeNode l n kind target with
    | .error st => refuse s st
    | .ok k =>
      let b := s.recs.writeNode s.clk l n k
      (s.withRecs b, .now .ok (b.nodePayload l n))

/-- WRITE_NODE. -/
def execWriteNode (tag : Byte) (line node kind target : Nat) (s : State) : Host.Outcome State Fault Refusal :=
  s.serve (.writeNode tag line node kind target) (State.writeNode line node kind target)

/-- What a line controller does with READ_NODE (R152). -/
def State.readNode (line node : Nat) (s : State) : State × Answer :=
  match lineAndNode line node with
  | .error st => refuse s st
  | .ok (l, n) => (s, .now .ok (s.recs.nodePayload l n))

/-- READ_NODE. -/
def execReadNode (tag : Byte) (line node : Nat) (s : State) : Host.Outcome State Fault Refusal :=
  s.serve (.readNode tag line node) (State.readNode line node)

end Sys2Proof.Machine
end

