-- ==== Sys2Proof/Machine/Notices.lean ====
section
/-! DEFINITION. SVP's notices: raising, READ_NOTICES, SET_NOTICE_MASK and NOTICE_SUMMARY (chapter 11). -/

namespace Sys2Proof.Machine

open Sys2Proof

/-- NOTICE_RAISE: a kind added to its set, NOTICE formed afresh (R181). -/
def execNoticeRaise (n : RaisedNotice) (s : State) : Host.Outcome State Fault Refusal :=
  .next (s.withRecs (s.recs.raise n))

/-- The set that a READ_NOTICES names. -/
inductive NoticeTarget where
  | room (r : RoomNo)
  | kitchen (k : KitchenNo)
  | part
  deriving DecidableEq, Repr

/-- The target of a READ_NOTICES: indicator 0 a room, 1 a kitchen, 2 PART (R182, R186). -/
def noticeTarget (indicator number : Nat) : Except Status NoticeTarget :=
  if indicator = 0 then
    match roomNo? number with
    | some r => .ok (.room r)
    | none => .error .badRoom
  else if indicator = 1 then
    match kitchenNo? number with
    | some k => .ok (.kitchen k)
    | none => .error .badKitchen
  else if indicator = 2 then .ok .part
  else .error .badValue

/-- The kinds present in a set, by their numbers in the notice table, in the order of log entry 33. -/
def Notices.kinds (n : Notices) (t : NoticeTarget) : List (Fin 18) :=
  match t with
  | .room r => n.rooms[r.val].map RoomNotice.num
  | .kitchen k => n.kitchens[k.val].map KitchenNotice.num
  | .part => n.part.map PartNotice.num

/-- A set emptied, and NOTICE formed afresh (R182). -/
def Notices.empty (n : Notices) (t : NoticeTarget) : Notices :=
  match t with
  | .room r => ({ n with rooms := n.rooms.set r.val [] } : Notices).form
  | .kitchen k => ({ n with kitchens := n.kitchens.set k.val [] } : Notices).form
  | .part => ({ n with part := [] } : Notices).form

/-- What SVP does with READ_NOTICES (R182). -/
def State.readNotices (indicator number : Nat) (s : State) : State × Answer :=
  match noticeTarget indicator number with
  | .error st => refuse s st
  | .ok t =>
    (s.withRecs { s.recs with notices := s.recs.notices.empty t }, .now .ok (kindBytes (s.recs.notices.kinds t)))

/-- READ_NOTICES. -/
def execReadNotices (tag : Byte) (indicator number : Nat) (s : State) : Host.Outcome State Fault Refusal :=
  s.serve (.readNotices tag indicator number) (State.readNotices indicator number)

/-- The masks as bytes, 0 unmasked and 1 masked (R183). DEDUCED: in a response too they are 18 bytes without a count (log
entry 10). -/
def Notices.maskBytes (n : Notices) : List Byte := n.masks.toList.flatMap yesNo

/-- What SVP does with SET_NOTICE_MASK (R183). DEDUCED: the response codes the level of NOTICE as 1 for high and 0 for low
(log entry 10). -/
def State.setNoticeMask (masks : Vector Byte 18) (s : State) : State × Answer :=
  if masks.toList.all fun m => decide (m = 0 ∨ m = 1) then
    let n := ({ s.recs.notices with masks := masks.map fun m => decide (m = 1) } : Notices).form
    (s.withRecs { s.recs with notices := n }, .now .ok (n.maskBytes ++ yesNo n.line))
  else refuse s .badValue

/-- SET_NOTICE_MASK. -/
def execSetNoticeMask (tag : Byte) (masks : Vector Byte 18) (s : State) : Host.Outcome State Fault Refusal :=
  s.serve (.setNoticeMask tag masks) (State.setNoticeMask masks)

/-- The numbers of the sets that are not empty, each with whether it holds an unmasked kind (R183). -/
def listedSets {α : Type} (unmasked : α → Bool) (sets : List (List α)) : List (Nat × Bool) :=
  scanFrom (fun i ks => if ks.isEmpty then none else some (i, ks.any unmasked)) 0 sets

/-- The response items of NOTICE_SUMMARY (R183). -/
def Notices.summary (n : Notices) : List Byte :=
  listBytes 2 (fun x => be 2 x.1 ++ yesNo x.2) (listedSets (fun k => n.unmasked (RoomNotice.num k)) n.rooms.toList) ++
  listBytes 1 (fun x => be 1 x.1 ++ yesNo x.2)
    (listedSets (fun k => n.unmasked (KitchenNotice.num k)) n.kitchens.toList) ++
  kindBytes (n.kinds .part) ++ n.maskBytes

/-- NOTICE_SUMMARY (R183). -/
def execNoticeSummary (tag : Byte) (s : State) : Host.Outcome State Fault Refusal :=
  s.serve (.noticeSummary tag) fun s => (s, .now .ok s.recs.notices.summary)

end Sys2Proof.Machine
end

