-- ==== Sys2Proof/Machine/Orders.lean ====
section
/-! DEFINITION. OTU's server commands: ORDER, AMEND_ORDER, CANCEL_ORDER and READ_ORDER (chapter 8). -/

namespace Sys2Proof.Machine

open Sys2Proof

/-! ## ORDER (R129 to R131) -/

/-- Whether a kitchen's pass engine is IDLE. -/
def Kitchen.passIdle (k : Kitchen) : Bool := decide (k.pass = .idle)

/-- The judgement of a supplied delivery minute: above the range, then stage 2 on the rounded minute (R106, R129). -/
def judgeSupplied (k : Booking) (delivery w0 : Nat) : Option Status :=
  if Config.maxMinute < delivery then some .badTime else judgeDelivery k (floor5 delivery) w0

/-- The record of an order, not yet admitted or waitlisted (R127). -/
def newOrder (h : Handle) (r : RoomNo) (kitchen : KitchenNo) (m : Fin 16) (headcount delivery : Nat) (x : Load) :
    Order :=
  { owner := some h, room := r, kitchen := kitchen, menuClass := m, headcount := headcount, delivery := delivery,
    load := x.units, prepStart := x.prepStart, shares := [], admission := none, wait := none, state := .waitlisted }

/-- Checks 6 to 12 of R129 for booking `k`: the order to be created with its load, or the refusal. -/
def State.judgeOrder (s : State) (b : Records) (h : Handle) (k : Booking) (menuClass headcount delivery : Nat) :
    Except Status (Order × Load) :=
  if k.state = .held then .error .wrongState
  else
    match menuNo? menuClass, (b.room k.room).attrs.kitchen with
    | none, _ => .error .badValue
    | some _, none => .error .badKitchen
    | some m, some kitchen =>
      match firstRefusal
        [((b.kitchen kitchen).terminal.isSome, .noTerminal), (decide (k.annex.length < 4), .limit)] with
      | some st => .error st
      | none =>
        match judgeSupplied k delivery s.clk.w0 with
        | some st => .error st
        | none =>
          let heads := (formHeadcount headcount k.attendees).1
          match computeLoad s.menu[m.val] heads (floor5 delivery) s.clk.w0 with
          | none => .error .tooLate
          | some x => .ok (newOrder h k.room kitchen m heads (floor5 delivery) x, x)

/-- Stage 5 for order `o` in slot `sl`, or the waitlist while a pass is in flight (R109, R131). -/
def Records.admitOrWait (b : Records) (sl : SlotNo) (o : Order) (x : Load) : Records :=
  let kit := b.kitchen o.kitchen
  if kit.passIdle then
    let b1 := b.setKitchen o.kitchen (kit.touchTested x.shares)
    if (b1.kitchen o.kitchen).fits x.shares then b1.admitOrder sl o x else b1.joinWaitlist sl o .noFit
  else (b.setKitchen o.kitchen { kit with again := true }).joinWaitlist sl o .pass

/-- The slot claim and the creation: the order at the tail of its owner's annex chain, then admitted or waitlisted
(R131). -/
def Records.createOrder (b : Records) (owner : SlotNo) (k : Booking) (o : Order) (x : Load) :
    Except Status (SlotNo × Records) :=
  match b.allocate (decide (k.cls = .executive)) (.order o) with
  | .error st => .error st
  | .ok (sl, b1) =>
    .ok (sl, (b1.setBody owner (.booking { k with annex := k.annex ++ [sl] })).admitOrWait sl o x)

/-- The response items of ORDER (R131). DEDUCED: the shares and the waitlist reason are items that may be absent (log entry
10). -/
def Records.orderedPayload (b : Records) (sl : SlotNo) (o : Order) : List Byte :=
  handleBytes (b.orderHandle sl) ++ [o.state.byte] ++ be 1 o.kitchen.val ++ be 1 o.headcount ++
  minuteBytes o.delivery ++ be 2 o.load ++ be 3 o.prepStart ++ sharesBytes o ++
  (match o.wait with
    | some w => [1, w.2.byte]
    | none => [0, 0])

/-- The status of an ORDER or AMEND_ORDER that is applied (R131, R134). -/
def Order.status (o : Order) (clamped : Bool) : Status :=
  if o.state = .waitlisted then .waitlisted else if clamped then .clamped else .ok

/-- What OTU does with ORDER (R129). -/
def State.order (h : Handle) (menuClass headcount delivery : Nat) (s : State) : State × Answer :=
  s.gated
    (match s.recs.nameBooking s.clk h with
      | (b, .error st) => refuse (s.withRecs b) st
      | (b, .ok (owner, k)) =>
        match s.judgeOrder b h k menuClass headcount delivery with
        | .error st => refuse (s.withRecs b) st
        | .ok (o, x) =>
          match b.createOrder owner k o x with
          | .error st => refuse (s.withRecs b) st
          | .ok (sl, b1) =>
            let o' := (b1.order? sl).getD o
            (s.withRecs b1,
             .now (o'.status (formHeadcount headcount k.attendees).2) (b1.orderedPayload sl o')))

/-- ORDER. -/
def execOrder (tag : Byte) (h : Handle) (menuClass headcount delivery : Nat) (s : State) :
    Host.Outcome State Fault Refusal :=
  s.serve (.order tag h menuClass headcount delivery) (State.order h menuClass headcount delivery)

/-! ## Naming an order (R18, R133, R135) -/

/-- An order of slot `sl` with its handle's generation, after its owner's room has been brought up to date: STALE when
the slot has been returned, WRONG_STATE when the order has become VOIDING (R133, R135). -/
def Records.orderStill (b : Records) (sl : SlotNo) (h : Handle) : Except Status Order :=
  match b.order? sl with
  | none => .error .stale
  | some o =>
    if (b.slot sl).gen = h.gen then if o.state = .voiding then .error .wrongState else .ok o else .error .stale

/-- The checks that AMEND_ORDER and CANCEL_ORDER share: the handle, not VOIDING, for AMEND_ORDER the room not CLOSING,
and the order still there after its owner's room is brought up to date (R133, R135). -/
def Records.nameOrder (b : Records) (c : Clock) (h : Handle) (closingRefused : Bool) :
    Records × Except Status (SlotNo × Order) :=
  match b.checkHandle orderKind h with
  | .error st => (b, .error st)
  | .ok sl =>
    match b.order? sl with
    | none => (b, .error .stale)
    | some o =>
      match firstRefusal
        [(decide (o.state ≠ .voiding), .wrongState), (!closingRefused || !b.isClosing o.room, .roomClosed)] with
      | some st => (b, .error st)
      | none =>
        let b' := b.bringUp c o.room
        match b'.orderStill sl h with
        | .error st => (b', .error st)
        | .ok o' => (b', .ok (sl, o'))

/-- The slot and record of an order's owner (R127). -/
def Records.ownerOf (b : Records) (o : Order) : Option (SlotNo × Booking) :=
  o.owner.bind fun h => (slotNo? h.slot).bind fun sl => (b.booking? sl).map fun k => (sl, k)

/-! ## AMEND_ORDER (R133, R134) -/

/-- The headcount after an AMEND_ORDER, and whether it was clamped (R130). -/
def amendedHeadcount (a : AmendOrderArgs) (o : Order) (attendees : Nat) : Nat × Bool :=
  match a.headcount with
  | some n => formHeadcount n attendees
  | none => (o.headcount, false)

/-- Check 7 of R133. -/
def Order.amendable (o : Order) (w0 : Nat) : Bool :=
  decide (o.state = .waitlisted) || (decide (o.state = .confirmed) && decide (w0 < o.prepStart))

/-- Check 10 of R133: the delivery, kept or new. -/
def judgeNewDelivery (a : AmendOrderArgs) (o : Order) (k : Booking) (w0 : Nat) : Option Status :=
  match a.delivery with
  | some d => judgeSupplied k d w0
  | none => judgeDelivery k o.delivery w0

/-- The menu class after an AMEND_ORDER, if it lies within 0..15 (check 9). -/
def amendedClass (a : AmendOrderArgs) (o : Order) : Option (Fin 16) :=
  match a.menuClass with
  | some n => menuNo? n
  | none => some o.menuClass

/-- Checks 7 to 11 of R133: the order as it would be stored with its load and whether the headcount was clamped, or
the refusal. -/
def State.judgeAmendOrder (s : State) (b : Records) (a : AmendOrderArgs) (o : Order) (k : Booking) :
    Except Status (Order × Load × Bool) :=
  match firstRefusal
    [(o.amendable s.clk.w0, .wrongState), ((b.kitchen o.kitchen).passIdle, .passBusy)] with
  | some st => .error st
  | none =>
    match amendedClass a o with
    | none => .error .badValue
    | some m =>
      match judgeNewDelivery a o k s.clk.w0 with
      | some st => .error st
      | none =>
        let heads := amendedHeadcount a o k.attendees
        let d := (a.delivery.map floor5).getD o.delivery
        match computeLoad s.menu[m.val] heads.1 d s.clk.w0 with
        | none => .error .tooLate
        | some x =>
          .ok ({ o with headcount := heads.1, menuClass := m, delivery := d, load := x.units,
                        prepStart := x.prepStart }, x, heads.2)

/-- The replacement of a CONFIRMED order's load, or none when the new load does not fit (R114). -/
def Records.replaceLoad (b : Records) (c : Clock) (sl : SlotNo) (o o' : Order) (x : Load) : Option Records :=
  let kit := b.kitchen o.kitchen
  let without := kit.subShares c.w0 o.shares
  if without.fits x.shares then
    let new := without.addShares x.shares
    let b1 := (b.setKitchen o.kitchen new).setBody sl (.order { o' with shares := x.shares })
    some (if loweredOn c.w0 o.shares kit new then b1.promotionTrigger c o.kitchen else b1)
  else none

/-- An AMEND_ORDER that passes checks 1 to 11, by the order's state (R134). -/
def Records.amendOrderTo (b : Records) (c : Clock) (sl : SlotNo) (o o' : Order) (x : Load) : Option Records :=
  if o.state = .waitlisted then some ((b.setBody sl (.order o')).promotionTrigger c o.kitchen)
  else b.replaceLoad c sl o o' x

/-- What OTU does with AMEND_ORDER (R133). -/
def State.amendOrder (a : AmendOrderArgs) (s : State) : State × Answer :=
  s.gated
    (match s.recs.nameOrder s.clk a.handle true with
      | (b, .error st) => refuse (s.withRecs b) st
      | (b, .ok (sl, o)) =>
        match b.ownerOf o with
        | none => refuse (s.withRecs b) .stale
        | some (_, k) =>
          match s.judgeAmendOrder b a o k with
          | .error st => refuse (s.withRecs b) st
          | .ok (o', x, clamped) =>
            match b.amendOrderTo s.clk sl o o' x with
            | none => refuse (s.withRecs b) .noFit
            | some b1 =>
              let o'' := (b1.order? sl).getD o'
              (s.withRecs b1, .now (o''.status clamped) (b1.orderPayload sl o'')))

/-- AMEND_ORDER. -/
def execAmendOrder (tag : Byte) (a : AmendOrderArgs) (s : State) : Host.Outcome State Fault Refusal :=
  s.serve (.amendOrder tag a) (State.amendOrder a)

/-! ## CANCEL_ORDER and READ_ORDER (R135, R136) -/

/-- An order removed from its owner's annex chain (R135). -/
def Records.leaveAnnex (b : Records) (sl : SlotNo) (o : Order) : Records :=
  match b.ownerOf o with
  | some (owner, k) => b.setBody owner (.booking { k with annex := k.annex.filter fun x => decide (x ≠ sl) })
  | none => b

/-- What became of a cancelled order, as a byte: FREED 0, VOIDING 1 (R135, R186). -/
def Settled.byte : Settled → Byte
  | .freed => 0
  | .voiding => 1

/-- What OTU does with CANCEL_ORDER (R135). -/
def State.cancelOrder (h : Handle) (s : State) : State × Answer :=
  s.gated
    (match s.recs.nameOrder s.clk h false with
      | (b, .error st) => refuse (s.withRecs b) st
      | (b, .ok (sl, o)) =>
        let r := (b.leaveAnnex sl o).settleOrder s.clk sl
        (s.withRecs r.1, .now .ok [r.2.byte]))

/-- CANCEL_ORDER. -/
def execCancelOrder (tag : Byte) (h : Handle) (s : State) : Host.Outcome State Fault Refusal :=
  s.serve (.cancelOrder tag h) (State.cancelOrder h)

/-- What OTU does with READ_ORDER (R136). -/
def State.readOrder (h : Handle) (s : State) : State × Answer :=
  if s.recs.pool.isReady then
    match s.recs.checkHandle orderKind h with
    | .error st => refuse s st
    | .ok sl =>
      match s.recs.order? sl with
      | none => refuse s .stale
      | some o => (s, .now .ok (s.recs.orderPayload sl o))
  else refuse s .notReady

/-- READ_ORDER. -/
def execReadOrder (tag : Byte) (h : Handle) (s : State) : Host.Outcome State Fault Refusal :=
  s.serve (.readOrder tag h) (State.readOrder h)

end Sys2Proof.Machine
end

