-- ==== Sys2Proof/Machine/Pool.lean ====
section
/-! DEFINITION. RPL: hard reset, pool initialization, CLEAR_ALL and the pool commands (chapter 2). -/

namespace Sys2Proof.Machine

open Sys2Proof

/-- HARD_RESET (R22 and the reset columns of every chapter): every item of the part returns to its reset value. The
commands that wait outside the part and the count of free values drawn are no items of it. -/
def execHardReset (s : State) : Host.Outcome State Fault Refusal :=
  .next { State.reset with pending := s.pending, freeDraws := s.freeDraws }

/-- The pool with its free list whole: READY, slots 0 to 32,767 in ascending order (R22, R27). -/
def Pool.relinked (p : Pool) : Pool := { p with state := .ready, freeList := allSlots, freeCount := Config.poolSlots }

/-- POOL_INIT_COMPLETE: the last slot has been linked (R22). Without an initialization in flight nothing is done. -/
def execPoolInitComplete (s : State) : Host.Outcome State Fault Refusal :=
  if s.recs.pool.isInitializing then .next (s.withRecs { s.recs with pool := s.recs.pool.relinked }) else .next s

/-! ## CLEAR_ALL (R24, R25, R27) -/

/-- A room at the taking of CLEAR_ALL (R24). -/
def Room.cleared (x : Room) : Room :=
  { x with service := if x.service = .closing then .outOfService else x.service, turnaround := none,
           lastRelease := none, lastMotion := none }

/-- A kitchen at the taking of CLEAR_ALL: its pass ends (R24). -/
def Kitchen.passEnded (k : Kitchen) : Kitchen := { k with pass := .idle, restart := false, again := false }

/-- Every notice set emptied, the masks kept, and NOTICE formed afresh (R24, R181). -/
def Notices.emptied (n : Notices) : Notices :=
  { n with rooms := Vector.replicate 384 [], kitchens := Vector.replicate 8 [], part := [] }.form

/-- What CLEAR_ALL does at once to the records (R24). -/
def Records.beginClear (b : Records) : Records :=
  { b with
    pool := { b.pool with state := .clearing 0 0 0 }
    rooms := b.rooms.map Room.cleared
    kitchens := b.kitchens.map Kitchen.passEnded
    notices := b.notices.emptied }.markAllPanels

/-- What RPL does with CLEAR_ALL (R24). -/
def State.clearAll (s : State) : State × Answer :=
  if s.recs.pool.isReady then
    ({ s with recs := s.recs.beginClear, walk := { next := none, rewalk := false } }, .later)
  else refuse s .notReady

/-- CLEAR_ALL. -/
def execClearAll (tag : Byte) (s : State) : Host.Outcome State Fault Refusal :=
  s.serve (.clearAll tag) State.clearAll

/-- An order returned during CLEARING: taken off the waitlist or queue that holds it, its shares in windows not yet
begun subtracted, its slot returned (R25). -/
def Records.clearOrder (b : Records) (c : Clock) (sl : SlotNo) : Records :=
  match b.order? sl with
  | none => b
  | some o => (((b.leaveWaitlist o.kitchen sl).leaveQueue o.kitchen sl).releaseShares c o).returnSlot sl

/-- A booking returned during CLEARING: its orders, then its chain link and its own slot (R25). -/
def Records.clearBooking (b : Records) (c : Clock) (sl : SlotNo) (k : Booking) : Records :=
  ((k.annex.foldl (fun x o => x.clearOrder c o) b).unlink k.room sl).returnSlot sl

/-- The visit of one slot, with the numbers of bookings and of orders returned (R25). DESIGN CHOICE: R27's number of order
records returned is the number of those that the visits return; a VOIDING record whose slot a terminal answer or a lost
TICKET returns during CLEARING (R26) is not among them (log entry 32). -/
def Records.clearSlot (b : Records) (c : Clock) (sl : SlotNo) : Records × Nat × Nat :=
  match (b.slot sl).body with
  | .free => (b, 0, 0)
  | .booking k => (b.clearBooking c sl k, 1, k.annex.length)
  | .order o =>
    if o.state = .voiding then ((b.leaveQueue o.kitchen sl).returnSlot sl, 0, 1) else (b, 0, 0)

/-- The clearing state set. -/
def Records.clearingAt (b : Records) (next bookings orders : Nat) : Records :=
  { b with pool := { b.pool with state := .clearing next bookings orders } }

/-- CLEAR_SLOT_VISIT: the next slot in ascending order is visited (R25). -/
def execClearSlotVisit (s : State) : Host.Outcome State Fault Refusal :=
  match s.recs.pool.state with
  | .initializing => .next s
  | .ready => .next s
  | .clearing n bookings orders =>
    match slotNo? n with
    | none => .next s
    | some sl =>
      let r := s.recs.clearSlot s.clk sl
      .next (s.withRecs (r.1.clearingAt (n + 1) (bookings + r.2.1) (orders + r.2.2)))

/-- A kitchen whose committed units are all 0 (R27). -/
def Kitchen.ringEmptied (k : Kitchen) : Kitchen := { k with ring := k.ring.map fun e => { e with units := 0 } }

/-- The records when CLEAR_ALL completes (R27). -/
def Records.completeClear (b : Records) : Records :=
  { b with
    pool := { b.pool.relinked with lowArmed := true }
    kitchens := b.kitchens.map Kitchen.ringEmptied }.markAllPanels

/-- CLEAR_ALL_COMPLETE: slot 32,767 has been visited, and the response is made ready (R27). -/
def execClearAllComplete (s : State) : Host.Outcome State Fault Refusal :=
  match s.recs.pool.state with
  | .initializing => .next s
  | .ready => .next s
  | .clearing n bookings orders =>
    if n < Config.poolSlots then .next s
    else .next ((s.withRecs s.recs.completeClear).finish .ok (be 2 bookings ++ be 2 orders))

/-! ## The pool commands -/

/-- The numbers of BOOKING slots, of ORDER slots and of VOIDING orders (R28). -/
def Records.slotCounts (b : Records) : Nat × Nat × Nat :=
  (b.countSlots fun x => match x with
      | .booking _ => true
      | .free => false
      | .order _ => false,
   b.countSlots fun x => match x with
      | .order _ => true
      | .free => false
      | .booking _ => false,
   b.countSlots fun x => match x with
      | .order o => decide (o.state = .voiding)
      | .free => false
      | .booking _ => false)

/-- The response items of POOL_STATUS (R28). -/
def Records.poolPayload (b : Records) : List Byte :=
  let n := b.slotCounts
  [b.pool.state.byte] ++ be 2 b.pool.freeCount ++ be 2 n.1 ++ be 2 n.2.1 ++ be 2 n.2.2 ++ be 2 b.pool.floor ++
  yesNo b.pool.lowArmed ++ be 1 b.pool.horizon

/-- POOL_STATUS (R28). -/
def execPoolStatus (tag : Byte) (s : State) : Host.Outcome State Fault Refusal :=
  s.serve (.poolStatus tag) fun s => (s, .now .ok s.recs.poolPayload)

/-- The low notice judged against a new floor (R30). -/
def Records.judgeFloor (b : Records) : Records :=
  let p := b.pool
  if p.isReady && p.lowArmed && decide (p.freeCount ≤ p.floor) then
    { b with pool := { p with lowArmed := false } }.raise (.part .poolLow)
  else if p.isReady && !p.lowArmed && decide (p.floor + 64 < p.freeCount) then
    { b with pool := { p with lowArmed := true } }
  else b

/-- What RPL does with SET_RESERVE (R30). -/
def State.setReserve (floor : Nat) (s : State) : State × Answer :=
  if 4095 < floor then refuse s .badValue
  else
    let b := ({ s.recs with pool := { s.recs.pool with floor := floor } } : Records).judgeFloor
    (s.withRecs b, .now .ok (be 2 floor ++ be 2 b.pool.freeCount ++ yesNo b.pool.lowArmed))

/-- SET_RESERVE. -/
def execSetReserve (tag : Byte) (floor : Nat) (s : State) : Host.Outcome State Fault Refusal :=
  s.serve (.setReserve tag floor) (State.setReserve floor)

/-- What RPL does with SET_HORIZON (R29). -/
def State.setHorizon (days : Nat) (s : State) : State × Answer :=
  if 1 ≤ days ∧ days ≤ 120 then
    (s.withRecs { s.recs with pool := { s.recs.pool with horizon := days } }, .now .ok (be 1 days))
  else refuse s .badValue

/-- SET_HORIZON. -/
def execSetHorizon (tag : Byte) (days : Nat) (s : State) : Host.Outcome State Fault Refusal :=
  s.serve (.setHorizon tag days) (State.setHorizon days)

end Sys2Proof.Machine
end

