-- ==== Sys2Proof/Machine/Port.lean ====
section
/-! DEFINITION. SVP's port: command writes, overruns, read-outs and ignored transactions (R177, R178, R180). -/

namespace Sys2Proof.Machine

open Sys2Proof

/-- The byte of a transaction at a place, or a FREE one when the transaction ended before it (log entry 12). -/
def State.echoed (s : State) (bytes : List Byte) (i : Nat) : Byte := bytes.getD i (Config.freeByte (s.freeDraws + i))

/-- A frame that fails the judgement of R178: its response echoes the code and tag received and carries no payload. -/
def State.rejectFrame (s : State) (bytes : List Byte) (st : Status) : State :=
  { s.respond (s.echoed bytes 1) (s.echoed bytes 2) st [] with freeDraws := s.freeDraws + 3 }

/-- A command write taken in IDLE, judged (R178); a frame that passes is handed to its owner. -/
def State.judgeWrite (s : State) (bytes : List Byte) : State :=
  match judgeFrame bytes with
  | .badFrame => s.rejectFrame bytes .badFrame
  | .badCommand => s.rejectFrame bytes .badCommand
  | .command cmd => { s with port := { s.port with state := .executing cmd false } }

/-- A command write: judged in IDLE, discarded with OVERRUN otherwise (R177, R180). -/
def State.commandWrite (s : State) (bytes : List Byte) : State :=
  match s.port.state with
  | .idle => s.judgeWrite bytes
  | .executing _ _ => { s with port := { s.port with overrun := true } }
  | .answerReady => { s with port := { s.port with overrun := true } }

/-- The flags of a header: 1 FRESH, 2 OVERRUN, 4 NOTICE pending (R180). -/
def State.headerFlags (s : State) : Byte :=
  (if s.port.fresh then 1 else 0) + (if s.port.overrun then 2 else 0) + (if s.recs.notices.line then 4 else 0)

/-- A response frame, the byte clocked out beside the read marker first (chapter 11, Server frames). -/
def responseFrame (code tag status flags : Byte) (payload : List Byte) : List Byte :=
  sealFrame 90 (code :: tag :: status :: flags :: be 2 payload.length ++ payload)

/-- The frame that a read-out sends: the response in ANSWER_READY, a filler otherwise (R177). -/
def State.outgoing (s : State) : List Byte :=
  match s.port.state, s.port.buffer with
  | .answerReady, some r => responseFrame r.code r.tag r.status.code s.headerFlags r.payload
  | .answerReady, none => responseFrame 0 0 0 s.headerFlags []
  | .idle, _ => responseFrame 0 0 0 s.headerFlags []
  | .executing _ _, _ => responseFrame 0 0 0 s.headerFlags []

/-- The port after a complete read-out of a response: the buffer empty, READY low, IDLE, and OVERRUN cleared if the
header sent it set; a frame discarded between the sampling and the completion has set it again (R177, R180). -/
def Port.readComplete (p : Port) (discarded : Bool) : Port :=
  { p with state := .idle, buffer := none, ready := false, overrun := discarded }

/-- A read-out, its flags sampled at its first byte (R177, R180). A command frame discarded after the sampling sets
OVERRUN, which the header sent does not show and the completion does not clear (log entry 9). In IDLE no frame is
discarded. DESIGN CHOICE: `miso` keeps the bytes of the frame alone, and says nothing of what MISO carries for bytes
clocked past the last check byte (log entry 9). -/
def State.readOut (s : State) (a : ReadOutArgs) : State :=
  if a.clocked = 0 then s
  else
    let p := { s.port with miso := s.outgoing.take a.clocked }
    let p' := { p with overrun := s.port.overrun || a.discarded }
    match s.port.state with
    | .answerReady => { s with port := if s.outgoing.length ≤ a.clocked then p.readComplete a.discarded else p' }
    | .idle => { s with port := p }
    | .executing _ _ => { s with port := p' }

/-- A transaction on the server port, decided by its first byte: 165 a command write, 60 a read-out during which no frame
is discarded, any other byte ignored (R177). -/
def State.transact (s : State) (bytes : List Byte) : State :=
  match bytes with
  | [] => s
  | first :: _ =>
    if first = 165 then s.commandWrite bytes else if first = 60 then s.readOut { clocked := bytes.length, discarded := false } else s

/-- COMMAND_WRITE. -/
def execCommandWrite (bytes : List Byte) (s : State) : Host.Outcome State Fault Refusal := .next (s.transact bytes)

/-- OVERRUN: a command write that meets a busy port (R180). -/
def execOverrun (bytes : List Byte) (s : State) : Host.Outcome State Fault Refusal := .next (s.transact bytes)

/-- READ_OUT. -/
def execReadOut (a : ReadOutArgs) (s : State) : Host.Outcome State Fault Refusal := .next (s.readOut a)

/-- IGNORED_TRANSACTION: the first byte is neither marker (R177). -/
def execIgnoredTransaction (bytes : List Byte) (s : State) : Host.Outcome State Fault Refusal :=
  .next (s.transact bytes)

end Sys2Proof.Machine
end

