-- ==== Sys2Proof/Machine/Search.lean ====
section
/-! DEFINITION. SRU: LOOKUP_AT, LIST_ROOM and the FIND_ROOMS scan (chapter 6). -/

namespace Sys2Proof.Machine

open Sys2Proof

/-! ## The booking summary (R91) -/

/-- A booking summary, 43 bytes (R91, R186). The lead and the other times are those of the chain room. -/
def Records.summaryBytes (b : Records) (c : Clock) (x : Seen) : List Byte :=
  let k := x.booking
  let st := reportedState c (b.room x.chainRoom).attrs k
  handleBytes (b.bookingHandle x.slot) ++ roomBytes x.chainRoom ++ minuteBytes k.start ++ minuteBytes k.stop ++
  [k.cls.byte] ++ [st.byte] ++ [(b.dueOf c x.chainRoom k).byte] ++ yesNo k.checkedIn ++
  optMinute (if st = .held then k.holdExpiry else none) ++ be 1 k.extensions ++ be 2 k.attendees ++
  be 4 k.organizer ++ k.title.toList

/-! ## LOOKUP_AT (R92) -/

/-- The living booking of room `r`'s view that covers minute `m` (R92). -/
def Records.covering (b : Records) (now : Nat) (r : RoomNo) (m : Nat) : Option Seen :=
  (b.livingView now r).find? fun x => decide (x.booking.start ≤ m) && decide (m < x.booking.stop)

/-- The earliest start after minute `m` in room `r`'s living view (R92). -/
def Records.nextStart (b : Records) (now : Nat) (r : RoomNo) (m : Nat) : Option Nat :=
  ((b.livingView now r).find? fun x => decide (m < x.booking.start)).map fun x => x.booking.start

/-- The latest end at or before minute `m` in room `r`'s living view (R92). -/
def Records.previousEnd (b : Records) (now : Nat) (r : RoomNo) (m : Nat) : Option Nat :=
  ((b.livingView now r).filter fun x => decide (x.booking.stop ≤ m)).foldl
    (fun a x => laterOf a (some x.booking.stop)) none

/-- The response items of LOOKUP_AT (R92). DEDUCED: NONE in place of a booking summary is an item that is absent, a
presence byte 0 and 43 bytes of 0 (R186; log entry 10). -/
def Records.lookupPayload (b : Records) (c : Clock) (r : RoomNo) (m : Nat) : List Byte :=
  (match b.covering c.minute r m with
    | some x => 1 :: b.summaryBytes c x
    | none => List.replicate 44 0) ++
  optMinute (b.nextStart c.minute r m) ++ optMinute (b.previousEnd c.minute r m)

/-- What SRU does with LOOKUP_AT (R92). -/
def State.lookupAt (room minute : Nat) (s : State) : State × Answer :=
  if s.recs.pool.isReady then
    match roomNo? room with
    | none => refuse s .badRoom
    | some r =>
      if Config.maxMinute < minute then refuse s .badTime
      else (s, .now .ok (s.recs.lookupPayload s.clk r minute))
  else refuse s .notReady

/-- LOOKUP_AT. -/
def execLookupAt (tag : Byte) (room minute : Nat) (s : State) : Host.Outcome State Fault Refusal :=
  s.serve (.lookupAt tag room minute) (State.lookupAt room minute)

/-! ## LIST_ROOM (R94) -/

/-- The bookings of room `r`'s living view that qualify after a start (R94). -/
def Records.listed (b : Records) (now : Nat) (r : RoomNo) (after : Option Nat) : List Seen :=
  (b.livingView now r).filter fun x =>
    match after with
    | some a => decide (a < x.booking.start)
    | none => true

/-- The response items of LIST_ROOM: up to `count` summaries, the more indication and the next cursor (R94). -/
def Records.listPayload (b : Records) (c : Clock) (r : RoomNo) (count : Nat) (after : Option Nat) : List Byte :=
  let l := b.listed c.minute r after
  listBytes 1 (b.summaryBytes c) (l.take count) ++ yesNo (decide (count < l.length)) ++
  optMinute ((l.take count).getLast?.map fun x => x.booking.start)

/-- What SRU does with LIST_ROOM (R94). -/
def State.listRoom (room count : Nat) (after : Option Nat) (s : State) : State × Answer :=
  if s.recs.pool.isReady then
    match roomNo? room with
    | none => refuse s .badRoom
    | some r =>
      match firstRefusal
        [(decide (1 ≤ count ∧ count ≤ 8), .badValue), (suppliedInRange after, .badTime)] with
      | some st => refuse s st
      | none => (s, .now .ok (s.recs.listPayload s.clk r count after))
  else refuse s .notReady

/-- LIST_ROOM. -/
def execListRoom (tag : Byte) (room count : Nat) (after : Option Nat) (s : State) :
    Host.Outcome State Fault Refusal :=
  s.serve (.listRoom tag room count after) (State.listRoom room count after)

/-! ## FIND_ROOMS (R96 to R98) -/

/-- The times of a FIND_ROOMS judged as those of a new booking (R96). -/
def Clock.findTimesOk (c : Clock) (horizon : Nat) (a : FindArgs) : Bool :=
  decide (a.start ≤ Config.maxMinute) && decide (a.stop ≤ Config.maxMinute) &&
  newTimesOk c.minute horizon (floor5 a.start) (ceil5 a.stop)

/-- The checks of R96 after the gate: the scan to be held, or the refusal. -/
def State.judgeFind (s : State) (a : FindArgs) : Except Status Scan :=
  if decide (1 ≤ a.seats ∧ a.seats ≤ 500) && ((a.building.map fun n => decide (n < 16)).getD true) then
    match roomNo? a.fromRoom with
    | none => .error .badRoom
    | some r =>
      if s.clk.findTimesOk s.recs.pool.horizon a then
        .ok { start := floor5 a.start, stop := ceil5 a.stop, building := a.building, seats := a.seats,
              combined := a.combined, next := r, found := [] }
      else .error .badTime
  else .error .badValue

/-- What SRU does with FIND_ROOMS (R96). -/
def State.findRooms (a : FindArgs) (s : State) : State × Answer :=
  s.gated
    (match s.judgeFind a with
      | .error st => refuse s st
      | .ok x => ({ s with scan := some x }, .later))

/-- FIND_ROOMS. -/
def execFindRooms (tag : Byte) (a : FindArgs) (s : State) : Host.Outcome State Fault Refusal :=
  s.serve (.findRooms tag a) (State.findRooms a)

/-- The conditions of R97 but the conflict test. -/
def Records.suits (b : Records) (x : Scan) (r : RoomNo) : Bool :=
  let a := (b.room r).attrs
  b.bookable r && (x.combined || !(b.room r).isCombined) &&
  ((x.building.map fun n => decide (a.building = n)).getD true) && decide (x.seats ≤ a.seats)

/-- Room `r` judged: whether it is found, and the records with the turnaround-until fields that the test met at or
before now made absent (R97). -/
def Records.judgeRoom (b : Records) (now : Nat) (x : Scan) (r : RoomNo) : Records × Bool :=
  if b.suits x r then
    let b1 := b.readTurnarounds now r
    (b1, (b1.obstacle now r none true x.start x.stop).isNone)
  else (b, false)

/-- The response items of FIND_ROOMS (R98). -/
def Records.foundPayload (b : Records) (x : Scan) (next : Option Nat) : List Byte :=
  minuteBytes x.start ++ minuteBytes x.stop ++
  listBytes 1 (fun r =>
    let a := (b.room r).attrs
    roomBytes r ++ be 1 a.building ++ be 2 a.seats ++ optByte (a.kitchen.map fun k => k.val) ++
    yesNo (b.room r).isCombined) x.found ++
  optBytes 2 next

/-- The scan after room `x.next` has been judged: the next room, or the end and the response (R98). -/
def State.scanOn (s : State) (x : Scan) : State :=
  if h : x.next.val + 1 < 384 then
    if x.found.length < 16 then { s with scan := some { x with next := ⟨x.next.val + 1, h⟩ } }
    else ({ s with scan := none } : State).finish .ok (s.recs.foundPayload x (some (x.next.val + 1)))
  else ({ s with scan := none } : State).finish .ok (s.recs.foundPayload x none)

/-- FIND_ROOMS_SCAN_STEP. Without a scan in flight nothing is done. -/
def execFindRoomsScanStep (s : State) : Host.Outcome State Fault Refusal :=
  match s.scan with
  | none => .next s
  | some x =>
    let r := s.recs.judgeRoom s.clk.minute x x.next
    .next ((s.withRecs r.1).scanOn (if r.2 then { x with found := x.found ++ [x.next] } else x))

end Sys2Proof.Machine
end

