-- ==== Sys2Proof/Machine/Dispatch.lean ====
section
/-! DEFINITION. One arm per command: each calls its meaning. -/

namespace Sys2Proof.Machine

open Sys2Proof

/-- The effect of a command on everything but the queue of waiting commands. -/
def exec (i : Instr) (s : State) : Host.Outcome State Fault Refusal :=
  match i with
  | .hardReset => Sys2Proof.Machine.execHardReset s
  | .poolInitComplete => Sys2Proof.Machine.execPoolInitComplete s
  | .elapsedSecond => Sys2Proof.Machine.execElapsedSecond s
  | .secondPulse l => Sys2Proof.Machine.execSecondPulse l s
  | .bkeMinuteAdvance => Sys2Proof.Machine.execBkeMinuteAdvance s
  | .minuteWalkStep => Sys2Proof.Machine.execMinuteWalkStep s
  | .windowRoll k => Sys2Proof.Machine.execWindowRoll k s
  | .sheddingStep k => Sys2Proof.Machine.execSheddingStep k s
  | .promotingStep k => Sys2Proof.Machine.execPromotingStep k s
  | .closeWalkStep r => Sys2Proof.Machine.execCloseWalkStep r s
  | .clearSlotVisit => Sys2Proof.Machine.execClearSlotVisit s
  | .clearAllComplete => Sys2Proof.Machine.execClearAllComplete s
  | .findRoomsScanStep => Sys2Proof.Machine.execFindRoomsScanStep s
  | .visitStart l => Sys2Proof.Machine.execVisitStart l s
  | .panelAnswer l frame => Sys2Proof.Machine.execPanelAnswer l frame s
  | .terminalAnswer l frame => Sys2Proof.Machine.execTerminalAnswer l frame s
  | .badAnswer l frame => Sys2Proof.Machine.execBadAnswer l frame s
  | .visitTimeout l => Sys2Proof.Machine.execVisitTimeout l s
  | .frameDiscarded l frame => Sys2Proof.Machine.execFrameDiscarded l frame s
  | .motionReport l n => Sys2Proof.Machine.execMotionReport l n s
  | .motionCheckIn l n => Sys2Proof.Machine.execMotionCheckIn l n s
  | .checkIn l n => Sys2Proof.Machine.execCheckIn l n s
  | .extend l n => Sys2Proof.Machine.execExtend l n s
  | .release l n => Sys2Proof.Machine.execRelease l n s
  | .walkUp l n => Sys2Proof.Machine.execWalkUp l n s
  | .requestResult l n => Sys2Proof.Machine.execRequestResult l n s
  | .terminalReport a => Sys2Proof.Machine.execTerminalReport a s
  | .terminalLoss k => Sys2Proof.Machine.execTerminalLoss k s
  | .noticeRaise n => Sys2Proof.Machine.execNoticeRaise n s
  | .commandWrite bytes => Sys2Proof.Machine.execCommandWrite bytes s
  | .overrun bytes => Sys2Proof.Machine.execOverrun bytes s
  | .readOut a => Sys2Proof.Machine.execReadOut a s
  | .ignoredTransaction bytes => Sys2Proof.Machine.execIgnoredTransaction bytes s
  | .setClock tag v => Sys2Proof.Machine.execSetClock tag v s
  | .readClock tag => Sys2Proof.Machine.execReadClock tag s
  | .poolStatus tag => Sys2Proof.Machine.execPoolStatus tag s
  | .setReserve tag floor => Sys2Proof.Machine.execSetReserve tag floor s
  | .setHorizon tag days => Sys2Proof.Machine.execSetHorizon tag days s
  | .clearAll tag => Sys2Proof.Machine.execClearAll tag s
  | .writeRoom tag a => Sys2Proof.Machine.execWriteRoom tag a s
  | .writeRoomRemove tag room => Sys2Proof.Machine.execWriteRoomRemove tag room s
  | .readRoom tag room => Sys2Proof.Machine.execReadRoom tag room s
  | .setRoomService tag inService room => Sys2Proof.Machine.execSetRoomService tag inService room s
  | .closeAndCancel tag room => Sys2Proof.Machine.execCloseAndCancel tag room s
  | .hold tag a holdTime => Sys2Proof.Machine.execHold tag a holdTime s
  | .book tag a => Sys2Proof.Machine.execBook tag a s
  | .confirm tag h cls => Sys2Proof.Machine.execConfirm tag h cls s
  | .amend tag a => Sys2Proof.Machine.execAmend tag a s
  | .cancel tag h => Sys2Proof.Machine.execCancel tag h s
  | .readBooking tag h => Sys2Proof.Machine.execReadBooking tag h s
  | .lookupAt tag room minute => Sys2Proof.Machine.execLookupAt tag room minute s
  | .listRoom tag room count after => Sys2Proof.Machine.execListRoom tag room count after s
  | .findRooms tag a => Sys2Proof.Machine.execFindRooms tag a s
  | .writeMenuClass tag cls weight setup lead => Sys2Proof.Machine.execWriteMenuClass tag cls weight setup lead s
  | .writeBanks tag kitchen banks => Sys2Proof.Machine.execWriteBanks tag kitchen banks s
  | .writeKitchen tag kitchen opens closes fallback => Sys2Proof.Machine.execWriteKitchen tag kitchen opens closes fallback s
  | .setStaffing tag kitchen level => Sys2Proof.Machine.execSetStaffing tag kitchen level s
  | .readKitchen tag kitchen => Sys2Proof.Machine.execReadKitchen tag kitchen s
  | .readWindow tag kitchen window => Sys2Proof.Machine.execReadWindow tag kitchen window s
  | .order tag h menuClass headcount delivery => Sys2Proof.Machine.execOrder tag h menuClass headcount delivery s
  | .amendOrder tag a => Sys2Proof.Machine.execAmendOrder tag a s
  | .cancelOrder tag h => Sys2Proof.Machine.execCancelOrder tag h s
  | .readOrder tag h => Sys2Proof.Machine.execReadOrder tag h s
  | .setLine tag line state timeout refresh => Sys2Proof.Machine.execSetLine tag line state timeout refresh s
  | .restartLine tag line => Sys2Proof.Machine.execRestartLine tag line s
  | .writeNode tag line node kind target => Sys2Proof.Machine.execWriteNode tag line node kind target s
  | .readNode tag line node => Sys2Proof.Machine.execReadNode tag line node s
  | .readNotices tag indicator number => Sys2Proof.Machine.execReadNotices tag indicator number s
  | .setNoticeMask tag masks => Sys2Proof.Machine.execSetNoticeMask tag masks s
  | .noticeSummary tag => Sys2Proof.Machine.execNoticeSummary tag s

end Sys2Proof.Machine
end

