-- ==== Sys2Proof/Safety.lean ====
section
/-! DEFINITION. What the part's states keep through every step: the laws of the manual that one step can be held to,
in the terms that the claims use. -/

namespace Sys2Proof.Machine

open Sys2Proof

/-- READY is high, and the buffer holds a response, exactly in ANSWER_READY (R177). -/
def Port.Lawful (p : Port) : Prop :=
  (p.ready = true ↔ p.state = .answerReady) ∧ (p.buffer.isSome = true ↔ p.state = .answerReady)

/-- The clock's items within their ranges (R1), 0 and absent in UNSET, at the end of the range in STOPPED (R3, R4, R9),
a last jump that ends above its beginning and at or before now (R8), and a second that is not to be counted only right
after a SET_CLOCK that left the clock RUNNING with seconds 0 (R7). -/
def Clock.Lawful (c : Clock) : Prop :=
  c.minute ≤ Config.maxMinute ∧ c.seconds < 60 ∧
  (c.state = .unset → c.minute = 0 ∧ c.seconds = 0 ∧ c.lastJump = none) ∧
  (c.state = .running → c.minute < Config.maxMinute) ∧
  (c.state = .stopped → c.minute = Config.maxMinute ∧ c.seconds = 0) ∧
  (∀ j, c.lastJump = some j → j.1 < j.2 ∧ j.2 ≤ c.minute) ∧
  (c.uncounted = true → c.state = .running ∧ c.seconds = 0)

/-- The floor and the horizon within their ranges (table "Slots"), the free count equal to the length of the free list
once initialization has completed (R17), and above the floor whenever a READY pool's low notice is armed (R20). -/
def Pool.Lawful (p : Pool) : Prop :=
  p.floor ≤ 4095 ∧ 1 ≤ p.horizon ∧ p.horizon ≤ 120 ∧
  (p.state ≠ .initializing → p.freeCount = p.freeList.length) ∧
  (p.state = .ready → p.lowArmed = true → p.floor < p.freeCount)

/-- During initialization no slot holds a record; afterwards the free list holds each FREE slot once and no other slot
(R14, R16, R17). -/
def Pool.FreeLawful (p : Pool) : Prop :=
  (p.state = .initializing → ∀ sl : SlotNo, p.slots[sl.val].body = .free) ∧
  (p.state ≠ .initializing →
    p.freeList.Nodup ∧ ∀ sl : SlotNo, sl ∈ p.freeList ↔ p.slots[sl.val].body = .free)

/-- A kitchen's banks, hours and stamp counters within their ranges (R100), and its active level the override level
when one is present, else the reported level when the terminal is online and has reported, else the fallback (R101). -/
def Kitchen.Lawful (k : Kitchen) : Prop :=
  (∀ c ∈ k.banks.toList, c ≤ 4095) ∧
  k.opens % 30 = 0 ∧ k.closes % 30 = 0 ∧ k.opens ≤ k.closes ∧ k.closes ≤ 1440 ∧
  k.admissions ≤ Config.maxStamp ∧ k.waits ≤ Config.maxStamp ∧
  (∀ v, k.override = some v → k.active = v) ∧
  (∀ v, k.override = none → k.online = true → k.reported = some v → k.active = v) ∧
  (k.override = none → (k.online = false ∨ k.reported = none) → k.active = k.fallback)

/-- A menu class within the ranges of R104. -/
def MenuClass.Lawful (m : MenuClass) : Prop := m.weight ≤ 255 ∧ m.setup ≤ 63 ∧ 1 ≤ m.lead ∧ m.lead ≤ 4

/-- A node's misses and page age within their bounds, and SILENT exactly at three misses (R147, R157). -/
def Node.Lawful (x : Node) : Prop := x.misses ≤ 3 ∧ x.age ≤ 255 ∧ (x.state = .silent ↔ x.misses = 3)

/-- A line's settings within their ranges (R146), no visit in flight while it is DISABLED (R149), every node lawful. -/
def Line.Lawful (l : Line) : Prop :=
  1 ≤ l.timeout ∧ l.timeout ≤ 20 ∧ 10 ≤ l.refresh ∧ l.refresh ≤ 110 ∧ l.sweepCount ≤ 7 ∧
  (l.running = false → l.visit = none) ∧ ∀ n : NodeNo, (l.node n).Lawful

/-- NOTICE is high exactly when some set holds an unmasked kind (R181). -/
def Notices.Lawful (n : Notices) : Prop :=
  n.line = true ↔
    (∃ p ∈ n.part, n.masks[p.num.val] = false) ∨
    (∃ (k : KitchenNo) (x : KitchenNotice), x ∈ n.kitchens[k.val] ∧ n.masks[x.num.val] = false) ∨
    ∃ (r : RoomNo) (x : RoomNotice), x ∈ n.rooms[r.val] ∧ n.masks[x.num.val] = false

/-- Every set lists its kinds once and in the order of the notice table (R181, R182; the numbering: log entry 10; the
order: log entry 33). -/
def Notices.Ordered (n : Notices) : Prop :=
  (∀ r : RoomNo, (n.rooms[r.val].map RoomNotice.num).Pairwise fun x y => x < y) ∧
  (∀ k : KitchenNo, (n.kitchens[k.val].map KitchenNotice.num).Pairwise fun x y => x < y) ∧
  (n.part.map PartNotice.num).Pairwise fun x y => x < y

/-- A room's attributes within their ranges (R31). -/
def RoomAttrs.Lawful (a : RoomAttrs) : Prop :=
  a.building ≤ 15 ∧ 1 ≤ a.seats ∧ a.seats ≤ 500 ∧ a.gap % 5 = 0 ∧ a.gap ≤ 60 ∧ a.lead ≤ 15 ∧ 5 ≤ a.grace ∧
  a.grace ≤ 30 ∧ (a.vacate = 0 ∨ (10 ≤ a.vacate ∧ a.vacate ≤ 120)) ∧
  ∀ ms, a.members = some ms → 2 ≤ ms.length ∧ ms.length ≤ 4 ∧ ms.Nodup

/-- The memberships of a room list exactly the combined rooms whose member lists name it, at most three; a combined
room has none (R31, R35). -/
def Records.MembershipsLawful (b : Records) : Prop :=
  (∀ m r : RoomNo, r ∈ (b.room m).memberships ↔ m ∈ (b.room r).attrs.members.getD []) ∧
  (∀ r : RoomNo, (b.room r).memberships.length ≤ 3) ∧
  ∀ r : RoomNo, (b.room r).attrs.members ≠ none → (b.room r).memberships = []

/-- No two nodes of the four lines name one room or one kitchen, and no node names a combined room (R147). -/
def Records.NodesLawful (b : Records) : Prop :=
  (∀ (l l' : LineNo) (n n' : NodeNo), ((b.line l).node n).kind ≠ .unused →
    ((b.line l).node n).kind = ((b.line l').node n').kind → l = l' ∧ n = n') ∧
  ∀ (l : LineNo) (n : NodeNo) (r : RoomNo), ((b.line l).node n).kind = .panel r → (b.room r).attrs.members = none

/-- A kitchen's terminal node field names the node that is the TERMINAL node of the kitchen, and none when there is
no such node (R100, R102, R151). -/
def Records.TerminalsLawful (b : Records) : Prop :=
  ∀ (k : KitchenNo) (l : LineNo) (n : NodeNo),
    (b.kitchen k).terminal = some (l, n) ↔ ((b.line l).node n).kind = .terminal k

/-- A kitchen has terminal online yes only while its terminal node is ONLINE on a RUNNING line (R149, R158). -/
def Records.OnlineLawful (b : Records) : Prop :=
  ∀ k : KitchenNo, (b.kitchen k).online = true → ∃ (l : LineNo) (n : NodeNo),
    (b.line l).running = true ∧ ((b.line l).node n).kind = .terminal k ∧ ((b.line l).node n).state = .online

/-- Every order that is not VOIDING stands on the annex chain of the living booking that owns it (R127); a HELD booking
has no orders (R129); a kitchen's waitlist holds exactly its WAITLISTED orders, each once, in the order of class and
stamp (R115; equal stamps: log entry 17). -/
def Records.OrdersLawful (b : Records) : Prop :=
  (∀ (sl : SlotNo) (o : Order), (b.slot sl).body = .order o → o.state ≠ .voiding →
    ∃ (g : Handle) (owner : SlotNo) (k : Booking), o.owner = some g ∧ g.slot = owner.val ∧
      (b.slot owner).body = .booking k ∧ sl ∈ k.annex) ∧
  (∀ (sl : SlotNo) (k : Booking), (b.slot sl).body = .booking k → k.state = .held → k.annex = []) ∧
  ∀ q : KitchenNo,
    (∀ sl : SlotNo, sl ∈ (b.kitchen q).waitlist ↔
      ∃ o : Order, (b.slot sl).body = .order o ∧ o.state = .waitlisted ∧ o.kitchen = q) ∧
    (b.kitchen q).waitlist.Pairwise fun x y => (b.placeOf x).ahead (b.placeOf y) = true

/-- No conflict set holds more than 12 rooms (R36, R38). -/
def Records.SetsBounded (b : Records) : Prop := ∀ r : RoomNo, (b.conflictSet r).length ≤ 12

/-- A FIND_ROOMS scan, and CLEARING, hold the port EXECUTING with their command (R24, R96, R179); during CLEARING no
minute walk and no close-and-cancel walk is in flight (R24, R26), and no slot already visited holds a booking or a
VOIDING order (R25). -/
def State.ClearingLawful (s : State) : Prop :=
  (s.scan ≠ none → ∃ (tag : Byte) (a : FindArgs), s.port.state = .executing (.findRooms tag a) true) ∧
  ∀ n bookings orders : Nat, s.recs.pool.state = .clearing n bookings orders →
    (∃ tag : Byte, s.port.state = .executing (.clearAll tag) true) ∧ s.walk.next = none ∧
    (∀ r : RoomNo, (s.recs.room r).service ≠ .closing) ∧
    ∀ sl : SlotNo, sl.val < n →
      match (s.recs.slot sl).body with
      | .free => True
      | .booking _ => False
      | .order o => o.state ≠ .voiding

/-- A state of the part that keeps every law above. -/
structure State.Lawful (s : State) : Prop where
  port : s.port.Lawful
  clock : s.clk.Lawful
  pool : s.recs.pool.Lawful
  free : s.recs.pool.FreeLawful
  orders : s.recs.OrdersLawful
  clearing : s.ClearingLawful
  menu : ∀ c : Fin 16, s.menu[c.val].Lawful
  kitchens : ∀ k : KitchenNo, (s.recs.kitchen k).Lawful
  lines : ∀ l : LineNo, (s.recs.line l).Lawful
  notices : s.recs.notices.Lawful
  ordered : s.recs.notices.Ordered
  rooms : ∀ r : RoomNo, (s.recs.room r).attrs.Lawful
  memberships : s.recs.MembershipsLawful
  bounded : s.recs.SetsBounded
  nodes : s.recs.NodesLawful
  terminals : s.recs.TerminalsLawful
  online : s.recs.OnlineLawful

/-- From `b` to `b'` the stale flags of exactly the PANEL nodes that name a room satisfying `p` were set, and nothing
else of the four lines changed (R39, R159). -/
def Records.Marks (b b' : Records) (p : RoomNo → Prop) : Prop :=
  ∀ l : LineNo, { b'.line l with nodes := (b.line l).nodes } = b.line l ∧
    ∀ n : NodeNo,
      { (b'.line l).node n with stale := ((b.line l).node n).stale } = (b.line l).node n ∧
      (((b'.line l).node n).stale = true ↔
        ((b.line l).node n).stale = true ∨ ∃ q, ((b.line l).node n).kind = .panel q ∧ p q)

/-- From `b` to `b'` kitchen `k` was replaced by `x`, whose active level has been formed: LEVEL_CHANGED when that level
differs, and when the capacity of some window start time differs and triggers act, SHEDDING begun at w0 + 1 or the
restart mark set (R101, R116). Nothing else changed. -/
def Records.KitchenReplaced (b b' : Records) (c : Clock) (k : KitchenNo) (x : Kitchen) : Prop :=
  let trigger := (∃ i, i < 48 ∧ (b.kitchen k).capacityAt (30 * i) ≠ x.capacityAt (30 * i)) ∧
    b.pool.state = .ready ∧ c.state ≠ .unset
  (¬ trigger → b'.kitchen k = x) ∧
  (trigger → b'.kitchen k =
    if x.pass = .idle then { x with pass := .shedding (c.minute / 30 + 1) } else { x with restart := true }) ∧
  (∀ q : KitchenNo, q ≠ k → b'.kitchen q = b.kitchen q) ∧
  b'.notices = (if x.active = (b.kitchen k).active then b.notices else b.notices.raise (.kitchen k .levelChanged)) ∧
  b' = { b with kitchens := b'.kitchens, notices := b'.notices }

end Sys2Proof.Machine
end

