-- ==== Sys2Proof/Certificates/Slice0/Obligations.lean ====
section
/-! DEFINITION. The statements about the part, for the provers. Each docstring names the rules of the manual it comes
from and, where a clause rests on a choice of the model, the log entry. -/

open Sys2Proof Sys2Proof.Machine

/-! ## The queue and the port -/

/-- A step runs the command at the front of the queue on the state with the queue's rest; on an empty queue the part
idles (the model's queue: log entries 1 and 2). -/
def Obligations.StepTakesFrontCommand : Prop :=
  ∀ s : State,
    (s.pending = [] → step s = .next s) ∧
    ∀ (c : Instr) (rest : List Instr), s.pending = c :: rest → step s = exec c { s with pending := rest }

/-- Decoding the frame of a well-formed server command gives the command back (R178, R184, R186). -/
def Obligations.CommandFrameRoundTrip : Prop :=
  ∀ (c : Instr) (bytes : List Byte),
    c.wellFormed = true → encodeFrame c = some bytes → judgeFrame bytes = .command c

/-- COMMAND_WRITE of a well-formed command's frame in IDLE makes the port EXECUTING with that command and changes
nothing else; the owner's event that follows answers what the command's own row answers in IDLE (R177, R178; log
entry 6). -/
def Obligations.WrittenCommandReachesOwner : Prop :=
  ∀ (c : Instr) (bytes : List Byte) (s : State),
    c.wellFormed = true → encodeFrame c = some bytes → s.port.state = .idle →
    exec (.commandWrite bytes) s = .next { s with port := { s.port with state := .executing c false } } ∧
    exec c { s with port := { s.port with state := .executing c false } } = exec c s

/-- A frame of at least five bytes that fails the judgement of R178 is answered with the code and tag received and no
payload: BAD_FRAME for a bad check or a wrong number of bytes, then BAD_COMMAND for a code that names no command,
then BAD_FRAME for a payload length that is not that of the command's form. The three free values drawn are the
model's (log entry 12). -/
def Obligations.FailedFrameAnsweredAtOnce : Prop :=
  ∀ (s : State) (code tag high low : Byte) (rest : List Byte), s.port.state = .idle →
    let len := high.toNat * 256 + low.toNat
    let good := rest.length = len + 2 ∧ rest.drop len = crcBytes (code :: tag :: high :: low :: rest.take len)
    let rejected := fun st : Status =>
      exec (.commandWrite (165 :: code :: tag :: high :: low :: rest)) s =
        .next { s.respond code tag st [] with freeDraws := s.freeDraws + 3 }
    (¬ good → rejected .badFrame) ∧
    (good →
      (code.toNat ∉ [1, 2, 16, 17, 18, 19, 32, 33, 34, 48, 49, 50, 51, 52, 53, 64, 65, 66, 80, 81, 82, 83, 84, 85, 96,
        97, 98, 99, 112, 113, 114, 115, 128, 129, 130] → rejected .badCommand) ∧
      (∀ p ∈ [(1, 4), (2, 0), (16, 0), (17, 2), (18, 1), (19, 0), (33, 2), (48, 34), (49, 33), (50, 6), (51, 34), (52, 4),
          (53, 4), (64, 6), (65, 8), (66, 14), (80, 4), (81, 17), (82, 6), (83, 3), (84, 1), (85, 4), (96, 11), (97, 14),
          (98, 4), (99, 4), (112, 4), (113, 1), (114, 5), (115, 2), (128, 3), (129, 18), (130, 0)],
        code.toNat = p.1 → len ≠ p.2 → rejected .badFrame) ∧
      (code = 32 → (len ≠ 38 ∨ rest.head? ≠ some 0) → (len ≠ 3 ∨ rest.head? ≠ some 1) → rejected .badFrame) ∧
      (code = 34 → (len ≠ 3 ∨ (rest.head? ≠ some 0 ∧ rest.head? ≠ some 1 ∧ rest.head? ≠ some 2)) → rejected .badFrame))

/-- The transactions of the server port by its state. A command write that meets a busy port is discarded whole and
OVERRUN is set: as bytes that begin with the command marker (R180), and as the row of a server command that is not the
one waiting for its owner (log entry 6). A read-out in ANSWER_READY sends the buffered response under the header flags,
and when every byte of the frame is clocked the buffer empties, READY falls, the port is IDLE and OVERRUN is clear; a
shorter one clears nothing. In IDLE and EXECUTING it sends a filler and clears nothing. A frame discarded between the
sampling of the flags and the end of a read-out sets OVERRUN again (R177, R180; the byte beside the marker, the bytes kept,
none of them past the frame's last check byte, and the discarded frame as an operand: log entries 5 and 9). A transaction that begins with neither marker changes
nothing. -/
def Obligations.PortTransactionsByState : Prop :=
  ∀ s : State,
    let discarded := { s with port := { s.port with overrun := true } }
    let flags : Byte :=
      (if s.port.fresh then 1 else 0) + (if s.port.overrun then 2 else 0) + (if s.recs.notices.line then 4 else 0)
    (s.port.state ≠ .idle →
      (∀ rest : List Byte, exec (.overrun (165 :: rest)) s = .next discarded) ∧
      (∀ rest : List Byte, exec (.commandWrite (165 :: rest)) s = .next discarded) ∧
      ∀ c : Instr, c.wire.isSome = true → s.port.state ≠ .executing c false → exec c s = .next discarded) ∧
    (∀ (n : Nat) (lost : Bool) (r : Response), 0 < n → s.port.state = .answerReady → s.port.buffer = some r →
      let frame := sealFrame 90 ([r.code, r.tag, r.status.code, flags] ++ be 2 r.payload.length ++ r.payload)
      (frame.length ≤ n →
        exec (.readOut { clocked := n, discarded := lost }) s = .next { s with port :=
          { s.port with state := .idle, buffer := none, ready := false, overrun := lost, miso := frame } }) ∧
      (n < frame.length →
        exec (.readOut { clocked := n, discarded := lost }) s =
          .next { s with port := { s.port with miso := frame.take n, overrun := s.port.overrun || lost } })) ∧
    (∀ (n : Nat) (lost : Bool), 0 < n → s.port.state ≠ .answerReady →
      exec (.readOut { clocked := n, discarded := lost }) s =
        .next { s with port := { s.port with
          miso := (sealFrame 90 [0, 0, 0, flags, 0, 0]).take n
          overrun := s.port.overrun || (lost && decide (s.port.state ≠ .idle)) } }) ∧
    ∀ (first : Byte) (rest : List Byte), first ≠ 165 → first ≠ 60 →
      exec (.ignoredTransaction (first :: rest)) s = .next s

/-! ## Invariants that every step keeps -/

/-- READY and the buffer follow the port state through every step (R177). -/
def Obligations.StepKeepsPortLawful : Prop :=
  ∀ s t : State, s.port.Lawful → step s = .next t → t.port.Lawful

/-- The clock's items stay within their ranges and agree with its state through every step (R1, R3, R4, R8, R9). An elapsed
second that is not to be counted is so only while the clock is RUNNING with seconds 0 (R7; log entry 31). -/
def Obligations.StepKeepsClockLawful : Prop :=
  ∀ s t : State, s.clk.Lawful → step s = .next t → t.clk.Lawful

/-- Through every step: the free count is the length of the free list after initialization, and stands above the floor
whenever a READY pool's low notice is armed (R17, R20). The free list holds each FREE slot once and no other, and no slot
holds a record during initialization (R14, R16, R17); this goes through CLEAR_ALL (R25, R27) because every order that is
not VOIDING stands on its owner's annex chain (R127), with the waitlists in their order (R115; equal stamps: log entry
17), and because CLEARING has left no booking and no VOIDING order behind it. So after initialization the free count is
the number of FREE slots, and with the numbers of BOOKING and ORDER slots it makes 32,768 (R17). -/
def Obligations.StepKeepsPoolLawful : Prop :=
  (∀ s t : State, step s = .next t →
    (s.recs.pool.Lawful → t.recs.pool.Lawful) ∧
    (s.recs.pool.FreeLawful → s.recs.OrdersLawful → s.ClearingLawful →
      t.recs.pool.FreeLawful ∧ t.recs.OrdersLawful ∧ t.ClearingLawful)) ∧
  ∀ p : Pool, p.Lawful → p.FreeLawful →
    let count := fun f : SlotBody → Bool => p.slots.toList.countP fun x => f x.body
    (p.state ≠ .initializing →
      p.freeCount = count (fun x => decide (x = .free)) ∧
      p.freeCount + count (fun x => decide (x.kind? = some 1)) + count (fun x => decide (x.kind? = some 2)) = 32768) ∧
    (p.state = .initializing →
      count (fun x => decide (x.kind? = some 1)) = 0 ∧ count (fun x => decide (x.kind? = some 2)) = 0)

/-- Every kitchen's active level stays the one that R101 forms, and its settings and the menu class table stay within
their ranges (R100, R101, R104). -/
def Obligations.StepKeepsKitchensLawful : Prop :=
  ∀ s t : State, step s = .next t →
    ((∀ k : KitchenNo, (s.recs.kitchen k).Lawful) → ∀ k : KitchenNo, (t.recs.kitchen k).Lawful) ∧
    ((∀ c : Fin 16, s.menu[c.val].Lawful) → ∀ c : Fin 16, t.menu[c.val].Lawful)

/-- A node is SILENT exactly at three misses, a DISABLED line has no visit in flight, and the fields of lines and nodes
stay within their ranges (R146, R147, R149, R157). -/
def Obligations.StepKeepsLinesLawful : Prop :=
  ∀ s t : State, (∀ l : LineNo, (s.recs.line l).Lawful) → step s = .next t → ∀ l : LineNo, (t.recs.line l).Lawful

/-- NOTICE is high exactly while some set holds an unmasked kind, through every step, and every set keeps its kinds in
the order of the notice table (R181; the model's choice for the order of the kinds: log entry 33; the numbering of the
table: log entry 10). -/
def Obligations.StepKeepsNoticeLine : Prop :=
  ∀ s t : State, step s = .next t →
    (s.recs.notices.Lawful → t.recs.notices.Lawful) ∧ (s.recs.notices.Ordered → t.recs.notices.Ordered)

/-- Room attributes stay within their ranges, and memberships stay the mirror of the member lists (R31, R35, R36). -/
def Obligations.StepKeepsRoomsLawful : Prop :=
  ∀ s t : State, (∀ r : RoomNo, (s.recs.room r).attrs.Lawful) → s.recs.MembershipsLawful → step s = .next t →
    (∀ r : RoomNo, (t.recs.room r).attrs.Lawful) ∧ t.recs.MembershipsLawful

/-- No two nodes name one room or one kitchen, no node names a combined room, and every kitchen's terminal node field
names its TERMINAL node, through every step (R102, R147, R151). With lawful lines a kitchen has terminal online yes only
while its terminal node is ONLINE on a RUNNING line, so on a DISABLED line it has it no throughout (R149, R158). -/
def Obligations.StepKeepsNodeTable : Prop :=
  ∀ s t : State, s.recs.NodesLawful → s.recs.TerminalsLawful → step s = .next t →
    t.recs.NodesLawful ∧ t.recs.TerminalsLawful ∧
    ((∀ l : LineNo, (s.recs.line l).Lawful) → s.recs.OnlineLawful → t.recs.OnlineLawful)

/-- The state after hard reset has every law that the steps keep. -/
def Obligations.ResetStateIsLawful : Prop := State.reset.Lawful

/-! ## The whole machine -/

/-- Every command completes from every state, and none touches the queue of waiting commands: the part has no fault and
every refusal is a response (00_scope.md, Responses; the queue is the model's, log entry 1). -/
def Obligations.EveryCommandCompletes : Prop :=
  ∀ (i : Instr) (s : State), ∃ t : State, exec i s = .next t ∧ t.pending = s.pending

/-- Only HARD_RESET, ELAPSED_SECOND and SET_CLOCK change the clock's items (R1). -/
def Obligations.OnlyClockEventsMoveClock : Prop :=
  ∀ (i : Instr) (s t : State), exec i s = .next t →
    match i with
    | .hardReset => True
    | .elapsedSecond => True
    | .setClock _ _ => True
    | _ => t.clk = s.clk

/-- What the server configures is changed by HARD_RESET and by its own command alone: the menu class table (R104), the
reserve floor and the horizon (table "Slots"), the notice masks (R181), the room attributes (R31), a kitchen's banks,
hours, fallback level and override (R100), a line's settings (R146) and a node's kind (R147). -/
def Obligations.ConfigurationHasOneWriter : Prop :=
  ∀ (i : Instr) (s t : State), i ≠ .hardReset → exec i s = .next t →
    ((∀ tag c w u l, i ≠ .writeMenuClass tag c w u l) → t.menu = s.menu) ∧
    ((∀ tag f, i ≠ .setReserve tag f) → t.recs.pool.floor = s.recs.pool.floor) ∧
    ((∀ tag d, i ≠ .setHorizon tag d) → t.recs.pool.horizon = s.recs.pool.horizon) ∧
    ((∀ tag m, i ≠ .setNoticeMask tag m) → t.recs.notices.masks = s.recs.notices.masks) ∧
    ((∀ tag a, i ≠ .writeRoom tag a) → (∀ tag r, i ≠ .writeRoomRemove tag r) →
      ∀ r : RoomNo, (t.recs.room r).attrs = (s.recs.room r).attrs) ∧
    ((∀ tag k b, i ≠ .writeBanks tag k b) → ∀ k : KitchenNo, (t.recs.kitchen k).banks = (s.recs.kitchen k).banks) ∧
    ((∀ tag k o c f, i ≠ .writeKitchen tag k o c f) → ∀ k : KitchenNo,
      (t.recs.kitchen k).opens = (s.recs.kitchen k).opens ∧ (t.recs.kitchen k).closes = (s.recs.kitchen k).closes ∧
      (t.recs.kitchen k).fallback = (s.recs.kitchen k).fallback) ∧
    ((∀ tag k v, i ≠ .setStaffing tag k v) → ∀ k : KitchenNo,
      (t.recs.kitchen k).override = (s.recs.kitchen k).override) ∧
    ((∀ tag l st m r, i ≠ .setLine tag l st m r) → ∀ l : LineNo,
      (t.recs.line l).running = (s.recs.line l).running ∧ (t.recs.line l).timeout = (s.recs.line l).timeout ∧
      (t.recs.line l).refresh = (s.recs.line l).refresh) ∧
    ((∀ tag l n k g, i ≠ .writeNode tag l n k g) → ∀ (l : LineNo) (n : NodeNo),
      ((t.recs.line l).node n).kind = ((s.recs.line l).node n).kind)

/-! ## The clock and the pool -/

/-- HARD_RESET leaves every item at the value that the tables of the chapters give (R1, R13, R22, R31, R76, R100, R104,
R137, R146, R147, R177, R180, R181), with no hand-off waiting (log entry 4), no pass cursor and no next room of the
minute walk (log entry 24); the queue and the count of free values are kept (log entry 8). POOL_INIT_COMPLETE in
INITIALIZING makes the pool READY with every slot linked in ascending order and a free count of 32,768, and touches nothing
else; with no initialization in flight it changes nothing (R22; log entry 4). -/
def Obligations.ResetAndInitialization : Prop :=
  ∀ s : State,
    (s.recs.pool.state = .initializing → ∃ l : List SlotNo, l.map Fin.val = List.range 32768 ∧
      exec .poolInitComplete s = .next { s with recs := { s.recs with pool :=
        { s.recs.pool with state := .ready, freeList := l, freeCount := 32768 } } }) ∧
    (s.recs.pool.state ≠ .initializing → exec .poolInitComplete s = .next s) ∧
    ∃ t : State, exec .hardReset s = .next t ∧ t.pending = s.pending ∧ t.freeDraws = s.freeDraws ∧
    t.mail.bkeAdvances = [] ∧ (∀ k : KitchenNo, t.mail.kluAdvances[k.val] = []) ∧
    (∀ l : LineNo, t.mail.pulses[l.val] = 0) ∧ t.mail.panel = [] ∧ t.mail.results = [] ∧
    t.clk = { state := .unset, minute := 0, seconds := 0, lastJump := none } ∧
    t.recs.pool.state = .initializing ∧ t.recs.pool.freeCount = 0 ∧ t.recs.pool.floor = 256 ∧
    t.recs.pool.lowArmed = true ∧ t.recs.pool.horizon = 60 ∧
    (∀ sl : SlotNo, t.recs.slot sl = { gen := 0, body := .free }) ∧
    (∀ r : RoomNo, t.recs.room r =
      { attrs := { name := Vector.replicate 16 32, building := 0, seats := 1, kitchen := none, gap := 0, lead := 5,
                   grace := 10, vacate := 0, autoRelease := false, motionCheckIn := false, compact := false,
                   members := none },
        service := .undefined, memberships := [], chain := [], turnaround := none, lastRelease := none,
        lastMotion := none }) ∧
    (∀ c : Fin 16, t.menu[c.val] = { weight := 0, setup := 0, lead := 1 }) ∧
    (∀ k : KitchenNo, t.recs.kitchen k =
      { banks := Vector.replicate 8 0, opens := 0, closes := 1440, fallback := 0, override := none, reported := none,
        terminal := none, online := false, active := 0, ring := Vector.replicate 336 { window := none, units := 0 },
        waitlist := [], pass := .idle, restart := false, again := false, admissions := 0, waits := 0 } ∧
      t.recs.queue k = { entries := [], inFlight := none } ∧ t.recs.notices.kitchens[k.val] = []) ∧
    (∀ l : LineNo, (t.recs.line l).running = false ∧ (t.recs.line l).timeout = 5 ∧ (t.recs.line l).refresh = 60 ∧
      (t.recs.line l).sweepCount = 0 ∧ (t.recs.line l).sweepPos = none ∧ (t.recs.line l).visit = none ∧
      ∀ n : NodeNo, (t.recs.line l).node n =
        { kind := .unused, state := .unknown, misses := 0, stale := false, age := 0, pendingResult := none,
          carried := false, compact := false, timeChange := none }) ∧
    (∀ r : RoomNo, t.recs.notices.rooms[r.val] = []) ∧ t.recs.notices.part = [] ∧
    (∀ x : Fin 18, t.recs.notices.masks[x.val] = true) ∧ t.recs.notices.line = false ∧
    t.walk = { next := none, rewalk := false } ∧ t.scan = none ∧
    t.port.state = .idle ∧ t.port.buffer = none ∧ t.port.overrun = false ∧ t.port.fresh = true ∧ t.port.ready = false

/-- An elapsed second delivers one second pulse to each line in every clock state. In RUNNING it also counts the
seconds; the sixtieth sets them to 0, increments the minute and delivers one advance to BKE and to each kitchen, and
the advance that reaches the last minute stops the clock and raises CLOCK_END (R3, R4, R5). A completing second that
arrived with a SET_CLOCK taken first is not counted (R7; log entry 31). A pulse or an advance delivered waits for the
block that takes it (log entry 4). -/
def Obligations.ElapsedSecondCountsAndAdvances : Prop :=
  ∀ s : State,
    let m := s.clk.minute
    let pulsed := { s.mail with pulses := s.mail.pulses.map fun p => p + 1 }
    (s.clk.state ≠ .running → exec .elapsedSecond s = .next { s with mail := pulsed }) ∧
    (s.clk.state = .running → s.clk.uncounted = true →
      exec .elapsedSecond s = .next { s with clk := { s.clk with uncounted := false }, mail := pulsed }) ∧
    (s.clk.state = .running → s.clk.uncounted = false → s.clk.seconds < 59 →
      exec .elapsedSecond s = .next { s with clk := { s.clk with seconds := s.clk.seconds + 1 }, mail := pulsed }) ∧
    (s.clk.state = .running → s.clk.uncounted = false → s.clk.seconds = 59 → m < 16777215 →
      exec .elapsedSecond s = .next { s with
        clk := { s.clk with state := if m + 1 = 16777215 then .stopped else .running, minute := m + 1, seconds := 0 }
        mail := { pulsed with
          bkeAdvances := s.mail.bkeAdvances ++ [(m, m + 1)]
          kluAdvances := s.mail.kluAdvances.map fun a => a ++ [(m, m + 1)] }
        recs := if m + 1 = 16777215 then s.recs.raise (.part .clockEnd) else s.recs })

/-- SET_CLOCK in UNSET accepts every minute of the range: the minute is set, the seconds are 0, the clock runs, or stops
with CLOCK_END at the last minute, no advance is delivered, FRESH is cleared and every PANEL node is marked stale; a
greater value is refused with BAD_VALUE and changes nothing but the port (R6, R169). -/
def Obligations.SetClockStartsUnsetClock : Prop :=
  ∀ (tag : Byte) (v : Nat) (s : State), s.port.state = .idle → s.clk.state = .unset →
    (16777215 < v → exec (.setClock tag v) s = .next (s.respond 1 tag .badValue [])) ∧
    (v ≤ 16777215 → ∃ b : Records,
      exec (.setClock tag v) s = .next
        (({ s with
            clk := { s.clk with state := if v = 16777215 then .stopped else .running, minute := v, seconds := 0 }
            port := { s.port with fresh := false }
            recs := if v = 16777215 then b.raise (.part .clockEnd) else b } : State).respond 1 tag .ok
          ((if v = 16777215 then 2 else 1) :: be 3 v)) ∧
      b = { s.recs with lines := b.lines } ∧ s.recs.Marks b (fun _ => True))

/-- SET_CLOCK in RUNNING restarts the seconds at the present minute, jumps to a later one with the pair of minutes kept
and one advance delivered, and is refused below now with CLOCK_BACKWARD; in STOPPED it is accepted at the last minute
alone and changes nothing; above the range it is refused with BAD_VALUE (R7, R8, R9). The completing second that arrives
with an accepted command, taken after it, is not to be counted (R7); that it is the ELAPSED_SECOND directly behind the
command in the queue, 59 seconds being counted, is log entry 31. That the response to v equal to now gives the clock
state and the minute, which R7 and R9 do not list, is log entry 35. -/
def Obligations.SetClockAfterStart : Prop :=
  ∀ (tag : Byte) (v : Nat) (s : State), s.port.state = .idle → s.clk.state ≠ .unset →
    let m := s.clk.minute
    let arrives : Bool := decide (s.clk.seconds = 59 ∧ s.pending.head? = some .elapsedSecond)
    (16777215 < v → exec (.setClock tag v) s = .next (s.respond 1 tag .badValue [])) ∧
    (v ≤ 16777215 → v < m → exec (.setClock tag v) s = .next (s.respond 1 tag .clockBackward [])) ∧
    (s.clk.state = .stopped → m = 16777215 → v = m →
      exec (.setClock tag v) s = .next (s.respond 1 tag .ok (2 :: be 3 v))) ∧
    (s.clk.state = .running → v ≤ 16777215 → v = m →
      exec (.setClock tag v) s =
        .next (({ s with clk := { s.clk with seconds := 0, uncounted := arrives } } : State).respond 1 tag .ok
          (1 :: be 3 v))) ∧
    (s.clk.state = .running → v ≤ 16777215 → m < v →
      exec (.setClock tag v) s = .next
        (({ s with
            clk := { state := if v = 16777215 then .stopped else .running, minute := v, seconds := 0,
                     lastJump := some (m, v), uncounted := arrives && decide (v ≠ 16777215) }
            mail := { s.mail with
              bkeAdvances := s.mail.bkeAdvances ++ [(m, v)]
              kluAdvances := s.mail.kluAdvances.map fun a => a ++ [(m, v)] }
            recs := if v = 16777215 then s.recs.raise (.part .clockEnd) else s.recs } : State).respond 1 tag .ok
          ((if v = 16777215 then 2 else 1) :: be 3 v)))

/-- READ_CLOCK is taken in every clock state and every pool state with status OK, gives the items of R10 in their order
and changes no state but the port's. The bytes are stated for minutes of the campus range, coded by R186; that the pair
of the last jump shares one presence byte, and is seven bytes of 0 when absent, is log entry 10. -/
def Obligations.ReadClockReportsClock : Prop :=
  ∀ (tag : Byte) (s : State), s.port.state = .idle → s.clk.minute ≤ 16777215 →
    (∀ j, s.clk.lastJump = some j → j.1 ≤ 16777215 ∧ j.2 ≤ 16777215) →
    let state : Byte :=
      match s.clk.state with
      | .unset => 0
      | .running => 1
      | .stopped => 2
    let jump : List Byte :=
      match s.clk.lastJump with
      | some j => 1 :: be 3 j.1 ++ be 3 j.2
      | none => [0, 0, 0, 0, 0, 0, 0]
    exec (.readClock tag) s = .next (s.respond 2 tag .ok
      ([state] ++ be 3 s.clk.minute ++ be 1 s.clk.seconds ++ be 2 (s.clk.minute / 1440) ++
        be 2 (s.clk.minute % 1440) ++ be 3 (s.clk.minute / 30) ++ jump))

/-- SET_HORIZON replaces the horizon by a value of 1..120 and refuses another with BAD_VALUE (R29). SET_RESERVE replaces
the floor by a value of 0..4,095, judges the low notice of a READY pool against it and refuses another value with
BAD_VALUE (R30; the armed byte: log entry 10). -/
def Obligations.SetReserveAndHorizon : Prop :=
  ∀ (tag : Byte) (v : Nat) (s : State), s.port.state = .idle →
    let p := s.recs.pool
    (1 ≤ v → v ≤ 120 → exec (.setHorizon tag v) s = .next
      (({ s with recs := { s.recs with pool := { p with horizon := v } } } : State).respond 18 tag .ok (be 1 v))) ∧
    (v = 0 ∨ 120 < v → exec (.setHorizon tag v) s = .next (s.respond 18 tag .badValue [])) ∧
    (4095 < v → exec (.setReserve tag v) s = .next (s.respond 17 tag .badValue [])) ∧
    (v ≤ 4095 →
      let raised := p.state = .ready ∧ p.lowArmed = true ∧ p.freeCount ≤ v
      let rearmed := p.state = .ready ∧ p.lowArmed = false ∧ v + 64 < p.freeCount
      (raised → exec (.setReserve tag v) s = .next
        (({ s with recs :=
          ({ s.recs with pool := { p with floor := v, lowArmed := false } } : Records).raise (.part .poolLow) } :
          State).respond 17 tag .ok (be 2 v ++ be 2 p.freeCount ++ [0]))) ∧
      (rearmed → exec (.setReserve tag v) s = .next
        (({ s with recs := { s.recs with pool := { p with floor := v, lowArmed := true } } } : State).respond 17 tag .ok
          (be 2 v ++ be 2 p.freeCount ++ [1]))) ∧
      (¬ raised → ¬ rearmed → exec (.setReserve tag v) s = .next
        (({ s with recs := { s.recs with pool := { p with floor := v } } } : State).respond 17 tag .ok
          (be 2 v ++ be 2 p.freeCount ++ [if p.lowArmed then 1 else 0]))))

/-- CLEAR_ALL with the pool READY makes it CLEARING, holds the port EXECUTING, and does at once what R24 lists: the
minute walk is abandoned, passes end, closing rooms become OUT_OF_SERVICE, dynamic fields become absent, notice sets
are emptied with their masks kept, and every PANEL node is marked stale. While INITIALIZING it is refused. -/
def Obligations.ClearAllBegins : Prop :=
  ∀ (tag : Byte) (s : State), s.port.state = .idle →
    (s.recs.pool.state = .initializing → exec (.clearAll tag) s = .next (s.respond 19 tag .notReady [])) ∧
    (s.recs.pool.state = .ready → ∃ t : State, exec (.clearAll tag) s = .next t ∧
      t.recs.pool = { s.recs.pool with state := .clearing 0 0 0 } ∧
      t.port = { s.port with state := .executing (.clearAll tag) true } ∧
      t.walk = { next := none, rewalk := false } ∧
      t.clk = s.clk ∧ t.menu = s.menu ∧ t.scan = s.scan ∧ t.mail = s.mail ∧ t.recs.queues = s.recs.queues ∧
      (∀ r : RoomNo, t.recs.room r =
        { s.recs.room r with
          service := if (s.recs.room r).service = .closing then .outOfService else (s.recs.room r).service
          turnaround := none, lastRelease := none, lastMotion := none }) ∧
      (∀ k : KitchenNo,
        t.recs.kitchen k = { s.recs.kitchen k with pass := .idle, restart := false, again := false } ∧
        t.recs.notices.kitchens[k.val] = []) ∧
      (∀ r : RoomNo, t.recs.notices.rooms[r.val] = []) ∧ t.recs.notices.part = [] ∧
      t.recs.notices.masks = s.recs.notices.masks ∧ t.recs.notices.line = false ∧
      s.recs.Marks t.recs (fun _ => True))

/-- CLEAR_SLOT_VISIT passes over a FREE slot and an order with an owner, and returns a VOIDING order, or a booking after
its orders, with the generation incremented: each order of the annex chain in turn leaves the waitlist or queue that
holds it, its shares in windows not yet begun are subtracted, and its slot is returned; then the booking is unlinked,
which marks the panels that show its room stale, and its own slot is returned (R25). CLEAR_ALL_COMPLETE, once slot 32,767
has been visited, makes the pool READY with the free list in ascending order and every generation kept, sets every
committed unit to 0, arms the low notice, marks every PANEL node stale and answers the CLEAR_ALL with the numbers of
bookings and orders returned (R27), those that the visits returned (log entry 32). -/
def Obligations.ClearingVisitsAndCompletes : Prop :=
  ∀ (s : State) (bookings orders : Nat),
    (∀ sl : SlotNo, s.recs.pool.state = .clearing sl.val bookings orders →
      ∃ t : State, exec .clearSlotVisit s = .next t ∧ t.clk = s.clk ∧ t.port = s.port ∧ t.walk = s.walk ∧
        t.mail = s.mail ∧ t.menu = s.menu ∧ t.scan = s.scan ∧ t.recs.notices = s.recs.notices ∧
        (∀ r : RoomNo, { t.recs.room r with chain := (s.recs.room r).chain } = s.recs.room r) ∧
        ((s.recs.slot sl).body = .free →
          t.recs = { s.recs with pool := { s.recs.pool with state := .clearing (sl.val + 1) bookings orders } }) ∧
        (∀ k, (s.recs.slot sl).body = .booking k →
          let orderReturned := fun (b : Records) (o : SlotNo) =>
            match (b.slot o).body with
            | .order x =>
              ({ b with
                kitchens := b.kitchens.set x.kitchen.val
                  (({ b.kitchen x.kitchen with
                      waitlist := (b.kitchen x.kitchen).waitlist.filter fun y => decide (y ≠ o) } :
                        Kitchen).subShares (s.clk.minute / 30) x.shares)
                queues := b.queues.set x.kitchen.val
                  { b.queue x.kitchen with
                    entries := (b.queue x.kitchen).entries.filter fun e => decide (e.slot ≠ o) } } :
                      Records).returnSlot o
            | _ => b
          let returned := (k.annex.foldl orderReturned s.recs).returnSlot sl
          t.recs = { returned with
            pool := { returned.pool with state := .clearing (sl.val + 1) (bookings + 1) (orders + k.annex.length) }
            rooms := t.recs.rooms, lines := t.recs.lines } ∧
          s.recs.Marks t.recs (fun q => q = k.room ∨ q ∈ (s.recs.room k.room).attrs.members.getD []) ∧
          t.recs.pool.state = .clearing (sl.val + 1) (bookings + 1) (orders + k.annex.length) ∧
          t.recs.slot sl = { gen := (s.recs.slot sl).gen + 1, body := .free } ∧
          t.recs.pool.freeList.head? = some sl ∧
          (t.recs.room k.room).chain = (s.recs.room k.room).chain.filter (fun x => decide (x ≠ sl)) ∧
          (∀ r : RoomNo, r ≠ k.room → t.recs.room r = s.recs.room r) ∧
          (∀ o x, k.annex = [o] → (s.recs.slot o).body = .order x →
            t.recs.slot o = { gen := (s.recs.slot o).gen + 1, body := .free } ∧
            t.recs.kitchen x.kitchen =
              ({ s.recs.kitchen x.kitchen with
                waitlist := (s.recs.kitchen x.kitchen).waitlist.filter fun y => decide (y ≠ o) } :
                  Kitchen).subShares (s.clk.minute / 30) x.shares ∧
            (t.recs.queue x.kitchen).entries =
              (s.recs.queue x.kitchen).entries.filter fun e => decide (e.slot ≠ o)) ∧
          (k.annex = [] → t.recs.kitchens = s.recs.kitchens ∧ t.recs.queues = s.recs.queues ∧
            (∀ x : SlotNo, x ≠ sl → t.recs.slot x = s.recs.slot x) ∧
            t.recs.pool.freeCount = s.recs.pool.freeCount + 1)) ∧
        ∀ o, (s.recs.slot sl).body = .order o →
          t.recs.rooms = s.recs.rooms ∧ t.recs.kitchens = s.recs.kitchens ∧
          (o.state ≠ .voiding →
            t.recs = { s.recs with pool := { s.recs.pool with state := .clearing (sl.val + 1) bookings orders } }) ∧
          (o.state = .voiding →
            t.recs.pool.state = .clearing (sl.val + 1) bookings (orders + 1) ∧
            t.recs.slot sl = { gen := (s.recs.slot sl).gen + 1, body := .free } ∧
            (t.recs.queue o.kitchen).entries =
              (s.recs.queue o.kitchen).entries.filter (fun e => decide (e.slot ≠ sl)) ∧
            ∀ x : SlotNo, x ≠ sl → t.recs.slot x = s.recs.slot x)) ∧
    ∀ (tag : Byte) (n : Nat), s.recs.pool.state = .clearing n bookings orders → 32768 ≤ n →
      s.port.state = .executing (.clearAll tag) true →
      ∃ t : State, exec .clearAllComplete s = .next t ∧
        t.recs.pool = { s.recs.pool with
          state := .ready, freeList := t.recs.pool.freeList, freeCount := 32768, lowArmed := true } ∧
        t.recs.pool.freeList.map Fin.val = List.range 32768 ∧
        t.port = { s.port with
          state := .answerReady, ready := true
          buffer := some { code := 19, tag := tag, status := .ok, payload := be 2 bookings ++ be 2 orders } } ∧
        (∀ (k : KitchenNo) (i : Fin 336),
          (t.recs.kitchen k).ring[i.val] = { (s.recs.kitchen k).ring[i.val] with units := 0 } ∧
          { t.recs.kitchen k with ring := (s.recs.kitchen k).ring } = s.recs.kitchen k) ∧
        s.recs.Marks t.recs (fun _ => True) ∧
        t.recs.rooms = s.recs.rooms ∧ t.recs.queues = s.recs.queues ∧ t.recs.notices = s.recs.notices ∧
        t.clk = s.clk ∧ t.menu = s.menu ∧ t.walk = s.walk ∧ t.scan = s.scan ∧ t.mail = s.mail

/-- An allocation takes the head of the free list of a READY pool unless the reserve rule refuses it, and raises POOL_LOW
when the armed count reaches the floor (R15, R19, R20). In another pool state it is refused with NOT_READY, which for
CLEARING is the model's choice (log entry 20). A return increments the generation, frees the slot, pushes it
on the head and re-arms above the floor plus 64 (R16, R20). -/
def Obligations.SlotsAreTakenAndReturned : Prop :=
  ∀ (b : Records) (privileged : Bool) (body : SlotBody) (sl : SlotNo) (rest : List SlotNo),
    let p := b.pool
    let count := p.freeCount
    (p.state ≠ .ready → b.allocate privileged body = .error .notReady) ∧
    (p.state = .ready → count = 0 → b.allocate privileged body = .error .poolEmpty) ∧
    (p.state = .ready → 0 < count → count ≤ p.floor → privileged = false →
      b.allocate privileged body = .error .poolLow) ∧
    (p.state = .ready → 0 < count → (p.floor < count ∨ privileged = true) → p.freeList = sl :: rest →
      ∃ b' : Records, b.allocate privileged body = .ok (sl, b') ∧
        b'.pool.freeList = rest ∧ b'.pool.freeCount = count - 1 ∧ b'.pool.floor = p.floor ∧
        b'.pool.horizon = p.horizon ∧ b'.pool.state = p.state ∧
        b'.slot sl = { gen := (b.slot sl).gen, body := body } ∧ (∀ x : SlotNo, x ≠ sl → b'.slot x = b.slot x) ∧
        b'.pool.lowArmed = (p.lowArmed && decide (count - 1 ≠ p.floor)) ∧
        b'.notices = (if p.lowArmed = true ∧ count - 1 = p.floor then b.notices.raise (.part .poolLow)
          else b.notices) ∧
        b'.rooms = b.rooms ∧ b'.kitchens = b.kitchens ∧ b'.queues = b.queues ∧ b'.lines = b.lines) ∧
    ((b.returnSlot sl).slot sl = { gen := (b.slot sl).gen + 1, body := .free } ∧
      (∀ x : SlotNo, x ≠ sl → (b.returnSlot sl).slot x = b.slot x) ∧
      b.returnSlot sl = { b with pool :=
        { p with slots := (b.returnSlot sl).pool.slots, freeList := sl :: p.freeList, freeCount := count + 1,
                 lowArmed := p.lowArmed || decide (p.floor + 64 < count + 1) } })

/-! ## Handles and the reading commands -/

/-- READ_BOOKING and READ_ORDER check the handle in the order of R18, answer NOT_READY while the pool is not READY
(R23; while CLEARING it is the model's choice, log entry 20), and change nothing but the port. A booking that counts as
retired is STALE (R52); a VOIDING order reads by its handle (R136; the coding of its items: log entry 10). What the
commands that change a record answer for the handle they name, and the records they leave: naming a booking checks kind,
slot, kind of the record and generation (R18), then the room not CLOSING, then brings the room's conflict set up to date,
and answers STALE or the booking as it then stands (R53); naming an order checks the handle, then not VOIDING, then the
room not CLOSING for AMEND_ORDER alone, then brings the order's room up to date, and answers STALE, WRONG_STATE or the
order as it then stands (checks 3 to 6 of R133, R135). A refusal before the bringing up to date leaves the records as
they were. -/
def Obligations.HandlesAreChecked : Prop :=
  (∀ (tag : Byte) (h : Handle) (s : State), s.port.state = .idle →
    let booking := fun (st : Status) (p : List Byte) => exec (.readBooking tag h) s = .next (s.respond 53 tag st p)
    let order := fun (st : Status) (p : List Byte) => exec (.readOrder tag h) s = .next (s.respond 99 tag st p)
    (s.recs.pool.state ≠ .ready → booking .notReady [] ∧ order .notReady []) ∧
    (s.recs.pool.state = .ready →
      (h.kind ≠ 1 → booking .wrongKind []) ∧ (h.kind ≠ 2 → order .wrongKind []) ∧
      (32768 ≤ h.slot → (h.kind = 1 → booking .stale []) ∧ (h.kind = 2 → order .stale [])) ∧
      ∀ sl : SlotNo, h.slot = sl.val →
        let x := s.recs.slot sl
        (x.body = .free → (h.kind = 1 → booking .stale []) ∧ (h.kind = 2 → order .stale [])) ∧
        (∀ k, x.body = .booking k →
          let retired := k.stop ≤ s.clk.minute ∨ (k.state = .held ∧ ∃ e, k.holdExpiry = some e ∧ e ≤ s.clk.minute)
          (h.kind = 2 → order .wrongKind []) ∧
          (h.kind = 1 → (x.gen ≠ h.gen ∨ retired) → booking .stale []) ∧
          (h.kind = 1 → x.gen = h.gen → ¬ retired → booking .ok (s.recs.bookingPayload k))) ∧
        ∀ o, x.body = .order o →
          (h.kind = 1 → booking .wrongKind []) ∧
          (h.kind = 2 → x.gen ≠ h.gen → order .stale []) ∧
          (h.kind = 2 → x.gen = h.gen → order .ok (s.recs.orderPayload sl o)))) ∧
  ∀ (b : Records) (c : Clock) (h : Handle),
    let booking := fun (b' : Records) (st : Status) => b.nameBooking c h = (b', .error st)
    let order := fun (closes : Bool) (b' : Records) (st : Status) => b.nameOrder c h closes = (b', .error st)
    (h.kind ≠ 1 → booking b .wrongKind) ∧ (h.kind ≠ 2 → ∀ closes, order closes b .wrongKind) ∧
    (32768 ≤ h.slot → (h.kind = 1 → booking b .stale) ∧ (h.kind = 2 → ∀ closes, order closes b .stale)) ∧
    ∀ sl : SlotNo, h.slot = sl.val →
      let x := b.slot sl
      (x.body = .free → (h.kind = 1 → booking b .stale) ∧ (h.kind = 2 → ∀ closes, order closes b .stale)) ∧
      (∀ k, x.body = .booking k →
        (h.kind = 2 → ∀ closes, order closes b .wrongKind) ∧
        (h.kind = 1 → x.gen ≠ h.gen → booking b .stale) ∧
        (h.kind = 1 → x.gen = h.gen → (b.room k.room).service = .closing → booking b .roomClosed) ∧
        (h.kind = 1 → x.gen = h.gen → (b.room k.room).service ≠ .closing →
          let b' := b.bringUpSet c k.room
          ((b'.slot sl).gen ≠ h.gen ∨ (∀ k', (b'.slot sl).body ≠ .booking k') → booking b' .stale) ∧
          ∀ k', (b'.slot sl).gen = h.gen → (b'.slot sl).body = .booking k' →
            b.nameBooking c h = (b', .ok (sl, k')))) ∧
      ∀ o, x.body = .order o →
        (h.kind = 1 → booking b .wrongKind) ∧
        (h.kind = 2 → ∀ closes,
          (x.gen ≠ h.gen → order closes b .stale) ∧
          (x.gen = h.gen → o.state = .voiding → order closes b .wrongState) ∧
          (x.gen = h.gen → o.state ≠ .voiding → closes = true → (b.room o.room).service = .closing →
            order closes b .roomClosed) ∧
          (x.gen = h.gen → o.state ≠ .voiding → (closes = false ∨ (b.room o.room).service ≠ .closing) →
            let b' := b.bringUp c o.room
            ((b'.slot sl).gen ≠ h.gen ∨ (∀ o', (b'.slot sl).body ≠ .order o') → order closes b' .stale) ∧
            ∀ o', (b'.slot sl).gen = h.gen → (b'.slot sl).body = .order o' →
              (o'.state = .voiding → order closes b' .wrongState) ∧
              (o'.state ≠ .voiding → b.nameOrder c h closes = (b', .ok (sl, o')))))

/-- POOL_STATUS, READ_KITCHEN, READ_NODE and NOTICE_SUMMARY are taken in every pool and clock state, answer OK with
their items, and change nothing but the port (R28, R125, R152, R183; 1 for low notice armed, READ_NODE's target and visit
in flight as items that may be absent, the target in two bytes, and the masks and banks without a count: log entry 10;
the minute of a result without one: log entry 38; the order of the notice kinds in a response: log entry 33). READ_ROOM
first makes a turnaround-until at or before now absent (R40, R47). READ_WINDOW sets the ring entry that it reads, which leaves the committed units of its window as they were (R103,
R110, R126). -/
def Obligations.ReadingCommandsAnswer : Prop :=
  ∀ (tag : Byte) (s : State), s.port.state = .idle →
    let b := s.recs
    let now := s.clk.minute
    let w0 := now / 30
    let count := fun (p : SlotBody → Bool) => be 2 (b.pool.slots.toList.countP fun x => p x.body)
    exec (.poolStatus tag) s = .next (s.respond 16 tag .ok
      ([b.pool.state.byte] ++ be 2 b.pool.freeCount ++ count (fun x => decide (x.kind? = some 1)) ++
        count (fun x => decide (x.kind? = some 2)) ++
        count (fun x =>
          match x with
          | .order o => decide (o.state = .voiding)
          | _ => false) ++
        be 2 b.pool.floor ++ [if b.pool.lowArmed then 1 else 0] ++ be 1 b.pool.horizon)) ∧
    (∀ n, 8 ≤ n → exec (.readKitchen tag n) s = .next (s.respond 84 tag .badKitchen [])) ∧
    (∀ k : KitchenNo, exec (.readKitchen tag k.val) s = .next (s.respond 84 tag .ok (b.kitchenPayload k))) ∧
    (∀ l n, 4 ≤ l → exec (.readNode tag l n) s = .next (s.respond 115 tag .badValue [])) ∧
    (∀ (l : LineNo) (n : Nat), n = 0 ∨ 100 < n →
      exec (.readNode tag l.val n) s = .next (s.respond 115 tag .badNode [])) ∧
    (∀ (l : LineNo) (n : NodeNo),
      exec (.readNode tag l.val (n.val + 1)) s = .next (s.respond 115 tag .ok (b.nodePayload l n))) ∧
    exec (.noticeSummary tag) s = .next (s.respond 130 tag .ok b.notices.summary) ∧
    (∀ n, 384 ≤ n → exec (.readRoom tag n) s = .next (s.respond 33 tag .badRoom [])) ∧
    (∀ r : RoomNo, ∃ b' : Records,
      exec (.readRoom tag r.val) s = .next ((s.withRecs b').respond 33 tag .ok (b'.roomPayload now r)) ∧
      b' = { b with rooms := b'.rooms } ∧ (∀ q : RoomNo, q ≠ r → b'.room q = b.room q) ∧
      b'.room r = { b.room r with turnaround := (b.room r).turnaround.filter fun t => decide (now < t) }) ∧
    (∀ n w, 8 ≤ n → exec (.readWindow tag n w) s = .next (s.respond 85 tag .badKitchen [])) ∧
    ∀ (k : KitchenNo) (w : Nat),
      (w < w0 ∨ w0 + 335 < w → exec (.readWindow tag k.val w) s = .next (s.respond 85 tag .badValue [])) ∧
      (w0 ≤ w → w ≤ w0 + 335 →
        let x := b.kitchen k
        let tod := 30 * w % 1440
        ∃ b' : Records,
          exec (.readWindow tag k.val w) s = .next ((s.withRecs b').respond 85 tag .ok
            (be 3 w ++ be 2 (30 * w / 1440) ++ be 2 tod ++ [if w = w0 then 1 else 0] ++
              be 2 (if x.opens ≤ tod ∧ tod < x.closes then x.banks[x.active.val] else 0) ++ be 2 (x.committed w) ++
              be 2 (b.countConfirmed k fun o => decide (0 < o.shareIn w)))) ∧
          b' = { b with kitchens := b'.kitchens } ∧ (∀ q : KitchenNo, q ≠ k → b'.kitchen q = b.kitchen q) ∧
          { b'.kitchen k with ring := x.ring } = x ∧
          ∀ v, v = w ∨ v % 336 ≠ w % 336 → (b'.kitchen k).committed v = x.committed v)

/-- The living view of a room holds exactly the bookings on its own chain and, for a plain room, on the chains of its
memberships that do not count as retired, in ascending order of start (R39, R52). LOOKUP_AT answers the one that covers
the minute, the next start and the latest end (R92), NONE coded as an absent item (log entry 10); LIST_ROOM the first `count` of those that qualify (R94). Neither
changes anything but the port. NOT_READY while the pool is CLEARING is the model's choice (log entry 20). -/
def Obligations.LookupAndListUseLivingView : Prop :=
  ∀ (tag : Byte) (r : RoomNo) (s : State), s.port.state = .idle →
    let b := s.recs
    let now := s.clk.minute
    let l := b.livingView now r
    l.Pairwise (fun x y => x.booking.start ≤ y.booking.start) ∧
    (∀ x : Seen, x ∈ l ↔
      (x.chainRoom = r ∨ ((b.room r).attrs.members = none ∧ x.chainRoom ∈ (b.room r).memberships)) ∧
      x.slot ∈ (b.room x.chainRoom).chain ∧ (b.slot x.slot).body = .booking x.booking ∧ now < x.booking.stop ∧
      ¬ (x.booking.state = .held ∧ ∃ e, x.booking.holdExpiry = some e ∧ e ≤ now)) ∧
    (s.recs.pool.state ≠ .ready → ∀ n m c a,
      exec (.lookupAt tag n m) s = .next (s.respond 64 tag .notReady []) ∧
      exec (.listRoom tag n c a) s = .next (s.respond 65 tag .notReady [])) ∧
    (s.recs.pool.state = .ready →
      (∀ n m c a, 384 ≤ n →
        exec (.lookupAt tag n m) s = .next (s.respond 64 tag .badRoom []) ∧
        exec (.listRoom tag n c a) s = .next (s.respond 65 tag .badRoom [])) ∧
      (∀ m, 16777215 < m → exec (.lookupAt tag r.val m) s = .next (s.respond 64 tag .badTime [])) ∧
      (∀ m, m ≤ 16777215 → ∃ last : Option Nat,
        exec (.lookupAt tag r.val m) s = .next (s.respond 64 tag .ok
          (((l.find? fun x => decide (x.booking.start ≤ m) && decide (m < x.booking.stop)).elim (List.replicate 44 0)
              fun x => 1 :: b.summaryBytes s.clk x) ++
            optMinute ((l.find? fun x => decide (m < x.booking.start)).map fun x => x.booking.start) ++
            optMinute last)) ∧
        ∀ e, last = some e ↔
          (∃ x ∈ l, x.booking.stop = e ∧ e ≤ m) ∧ ∀ x ∈ l, x.booking.stop ≤ m → x.booking.stop ≤ e) ∧
      (∀ c a, c = 0 ∨ 8 < c → exec (.listRoom tag r.val c a) s = .next (s.respond 65 tag .badValue [])) ∧
      (∀ c a, 1 ≤ c → c ≤ 8 → 16777215 < a →
        exec (.listRoom tag r.val c (some a)) s = .next (s.respond 65 tag .badTime [])) ∧
      ∀ c a, 1 ≤ c → c ≤ 8 → (∀ m, a = some m → m ≤ 16777215) →
        let q := l.filter fun x => a.all fun m => decide (m < x.booking.start)
        exec (.listRoom tag r.val c a) s = .next (s.respond 65 tag .ok
          (be 1 (q.take c).length ++ (q.take c).flatMap (b.summaryBytes s.clk) ++
            [if c < q.length then 1 else 0] ++ optMinute ((q.take c).getLast?.map fun x => x.booking.start))))

/-! ## Rooms -/

/-- The conflict set of a room, while the memberships mirror the member lists (an invariant, StepKeepsRoomsLawful): each
room once; the room itself, its members, the combined rooms whose lists contain it and those whose lists share a room
with its list; for a plain room itself and its memberships, for a combined room itself, its members and every combined
room that names one of them. The relation is symmetric, two plain rooms are never in each other's set, only WRITE_ROOM
and a removal (and HARD_RESET) change a set, and no step makes a set of more than 12 rooms (R38). -/
def Obligations.ConflictSetsMirror : Prop :=
  (∀ b : Records, b.MembershipsLawful → ∀ r q : RoomNo,
    let members := fun x : RoomNo => (b.room x).attrs.members.getD []
    (b.conflictSet r).Pairwise (fun x y => x < y) ∧
    (q ∈ b.conflictSet r ↔
      q = r ∨ q ∈ members r ∨ r ∈ members q ∨ ∃ m, m ∈ members r ∧ m ∈ members q) ∧
    ((b.room r).attrs.members = none → (q ∈ b.conflictSet r ↔ q = r ∨ q ∈ (b.room r).memberships)) ∧
    (∀ ms, (b.room r).attrs.members = some ms →
      (q ∈ b.conflictSet r ↔ q = r ∨ q ∈ ms ∨ ∃ m ∈ ms, m ∈ members q)) ∧
    (q ∈ b.conflictSet r ↔ r ∈ b.conflictSet q) ∧
    ((b.room r).attrs.members = none → (b.room q).attrs.members = none → r ≠ q → q ∉ b.conflictSet r)) ∧
  (∀ (i : Instr) (s t : State), i ≠ .hardReset → (∀ tag a, i ≠ .writeRoom tag a) →
    (∀ tag n, i ≠ .writeRoomRemove tag n) → exec i s = .next t →
    ∀ r : RoomNo, t.recs.conflictSet r = s.recs.conflictSet r) ∧
  ∀ s t : State, s.recs.MembershipsLawful → (∀ r : RoomNo, (s.recs.room r).attrs.Lawful) → s.recs.SetsBounded →
    step s = .next t → t.recs.SetsBounded

/-- The conflict test finds no obstacle exactly when, for a new start, no turnaround-until of the conflict set lies
after now and after the start, and every booking of the set's chains that lives and is not set aside keeps the larger
gap free on the side where it stands (R55, R56). A reported obstacle is one of these (R57). -/
def Obligations.ConflictTestKeepsGap : Prop :=
  ∀ (b : Records) (now : Nat) (r : RoomNo) (aside : Option SlotNo) (newStart : Bool) (s e : Nat),
    let gap := fun q : RoomNo => max (b.room r).attrs.gap (b.room q).attrs.gap
    let blocks := fun (q : RoomNo) (sl : SlotNo) (k : Booking) =>
      q ∈ b.conflictSet r ∧ sl ∈ (b.room q).chain ∧ (b.slot sl).body = .booking k ∧ aside ≠ some sl ∧
      now < k.stop ∧ ¬ (k.state = .held ∧ ∃ x, k.holdExpiry = some x ∧ x ≤ now) ∧
      s < k.stop + gap q ∧ k.start < e + gap q
    let waits := fun (q : RoomNo) (t : Nat) =>
      newStart = true ∧ q ∈ b.conflictSet r ∧ (b.room q).turnaround = some t ∧ now < t ∧ s < t
    (b.obstacle now r aside newStart s e = none ↔ (∀ q t, ¬ waits q t) ∧ ∀ q sl k, ¬ blocks q sl k) ∧
    (∀ q t, b.obstacle now r aside newStart s e = some (.turnaround q t) → waits q t) ∧
    ∀ q h xs xe g, b.obstacle now r aside newStart s e = some (.booking q h xs xe g) →
      (∀ q' t, ¬ waits q' t) ∧
      ∃ sl k, blocks q sl k ∧ h = { kind := 1, gen := (b.slot sl).gen, slot := sl.val } ∧ xs = k.start ∧ xe = k.stop ∧
        g = gap q

/-- A WRITE_ROOM that fails a check of R33 answers that check's refusal and changes nothing but the port: the seven checks
in their order, the member list by R35, the change of the list judged as a set, and the limits by R36 on the table as the
change would leave it, which is described. One that passes replaces the attributes whole; the room is OUT_OF_SERVICE, the
memberships follow its member list, and the panels that show it, its members and its former members are marked stale
(R34); the dynamic fields of the room stay as they were. The response is the entry as READ_ROOM would return it (R34,
R47); that it reports a turnaround-until at or before now absent, as READ_ROOM does (R40), though the field stays, is log
entry 19. -/
def Obligations.RoomWritten : Prop :=
  ∀ (tag : Byte) (a : WriteRoomArgs) (s : State), s.port.state = .idle →
    let refused := fun st => exec (.writeRoom tag a) s = .next (s.respond 32 tag st [])
    (384 ≤ a.room → refused .badRoom) ∧
    (∀ r : RoomNo, a.room = r.val →
      ((s.recs.room r).service = .closing → refused .busy) ∧
      ((s.recs.room r).service = .inService → refused .wrongState) ∧
      ((s.recs.room r).service = .undefined ∨ (s.recs.room r).service = .outOfService →
        ¬ (a.building < 16 ∧ 1 ≤ a.seats ∧ a.seats ≤ 500 ∧ (∀ k, a.kitchen = some k → k < 8) ∧ a.gap % 5 = 0 ∧
            a.gap ≤ 60 ∧ a.lead ≤ 15 ∧ 5 ≤ a.grace ∧ a.grace ≤ 30 ∧
            (a.vacate = 0 ∨ (10 ≤ a.vacate ∧ a.vacate ≤ 120))) →
        refused .badValue)) ∧
    (∀ r : RoomNo, a.room = r.val →
      let y := s.recs.room r
      let valuesOk := a.building < 16 ∧ 1 ≤ a.seats ∧ a.seats ≤ 500 ∧ (∀ k, a.kitchen = some k → k < 8) ∧
        a.gap % 5 = 0 ∧ a.gap ≤ 60 ∧ a.lead ≤ 15 ∧ 5 ≤ a.grace ∧ a.grace ≤ 30 ∧
        (a.vacate = 0 ∨ (10 ≤ a.vacate ∧ a.vacate ≤ 120))
      let supplied := a.memberFields.toList.take a.memberCount
      let lists := fun ms : List RoomNo => 2 ≤ a.memberCount ∧ a.memberCount ≤ 4 ∧ ms.map Fin.val = supplied ∧
        ms.Nodup ∧ r ∉ ms ∧ (∀ m ∈ ms, (s.recs.room m).service ≠ .undefined ∧ (s.recs.room m).attrs.members = none) ∧
        y.memberships = []
      y.service = .undefined ∨ y.service = .outOfService → valuesOk →
        (a.memberCount ≠ 0 → (∀ ms, ¬ lists ms) → refused .badRoom) ∧
        ∀ ms : Option (List RoomNo), (a.memberCount = 0 → ms = none) →
          (a.memberCount ≠ 0 → ∃ l, ms = some l ∧ lists l) →
          let x : RoomAttrs :=
            { name := a.name, building := a.building, seats := a.seats, kitchen := a.kitchen.map (Fin.ofNat 8), gap := a.gap,
              lead := a.lead, grace := a.grace, vacate := a.vacate, autoRelease := a.flags.getLsbD 0,
              motionCheckIn := a.flags.getLsbD 1, compact := a.flags.getLsbD 2, members := ms }
          let named := ms ≠ none ∧ ∃ (l : LineNo) (n : NodeNo), ((s.recs.line l).node n).kind = .panel r
          let same := y.attrs.gap = a.gap ∧ ((ms = none ∧ y.attrs.members = none) ∨
            ∃ new old, ms = some new ∧ y.attrs.members = some old ∧ ∀ q, q ∈ new ↔ q ∈ old)
          let after := s.recs.withAttrs r x
          let tooMany := ∃ new, ms = some new ∧ ((∃ m ∈ new, 3 < (after.room m).memberships.length) ∨
            ∃ q ∈ after.conflictSet r, 12 < (after.conflictSet q).length)
          (s.recs.MembershipsLawful →
            (after.room r).attrs = x ∧
            (∀ m, r ∈ (after.room m).memberships ↔ m ∈ ms.getD []) ∧
            (∀ m q, q ≠ r → (q ∈ (after.room m).memberships ↔ q ∈ (s.recs.room m).memberships)) ∧
            ∀ m, m ≠ r → (after.room m).attrs = (s.recs.room m).attrs) ∧
          (named → refused .nodeInUse) ∧
          (¬ named → ¬ same → y.chain ≠ [] → refused .roomNotEmpty) ∧
          (¬ named → (same ∨ y.chain = []) → tooMany → refused .limit) ∧
          (¬ named → (same ∨ y.chain = []) → ¬ tooMany → s.recs.judgeWriteRoom a = .ok (r, x))) ∧
    (∀ st, s.recs.judgeWriteRoom a = .error st → refused st) ∧
    ∀ (r : RoomNo) (x : RoomAttrs), s.recs.MembershipsLawful → s.recs.judgeWriteRoom a = .ok (r, x) →
      ∃ b : Records,
        let seen := { b with rooms := b.rooms.set r.val { b.room r with
          turnaround := (b.room r).turnaround.filter fun t => decide (s.clk.minute < t) } }
        exec (.writeRoom tag a) s = .next ((s.withRecs b).respond 32 tag .ok (seen.roomPayload s.clk.minute r)) ∧
        a.room = r.val ∧
        x = { name := a.name, building := a.building, seats := a.seats, kitchen := x.kitchen, gap := a.gap,
              lead := a.lead, grace := a.grace, vacate := a.vacate, autoRelease := a.flags.getLsbD 0,
              motionCheckIn := a.flags.getLsbD 1, compact := a.flags.getLsbD 2, members := x.members } ∧
        x.kitchen.map Fin.val = a.kitchen ∧ (a.memberCount = 0 → x.members = none) ∧
        (∀ ms, x.members = some ms → ms.map Fin.val = a.memberFields.toList.take a.memberCount) ∧
        b.room r = { s.recs.room r with attrs := x, service := .outOfService } ∧
        (∀ m : RoomNo, m ≠ r →
          b.room m = { s.recs.room m with memberships := (b.room m).memberships } ∧
          (r ∈ (b.room m).memberships ↔ m ∈ x.members.getD []) ∧
          ∀ q : RoomNo, q ≠ r → (q ∈ (b.room m).memberships ↔ q ∈ (s.recs.room m).memberships)) ∧
        s.recs.Marks b (fun q =>
          q = r ∨ q ∈ x.members.getD [] ∨ q ∈ (s.recs.room r).attrs.members.getD []) ∧
        b = { s.recs with rooms := b.rooms, lines := b.lines }

/-- WRITE_ROOM with the remove indication returns a room without bookings, memberships and panel nodes to UNDEFINED with
its reset attributes, and takes it out of its members' memberships (R37). SET_ROOM_SERVICE sets the service state, or
answers OK with nothing changed in the state the room is in (R43); its CLOSE_AND_CANCEL form makes the room CLOSING and
answers STARTED (R44). -/
def Obligations.RoomRemovedAndServiceSet : Prop :=
  ∀ (tag : Byte) (s : State), s.port.state = .idle →
    let remove := fun n st => exec (.writeRoomRemove tag n) s = .next (s.respond 32 tag st [])
    let service := fun up n st => exec (.setRoomService tag up n) s = .next (s.respond 34 tag st [])
    let close := fun n st => exec (.closeAndCancel tag n) s = .next (s.respond 34 tag st [])
    (∀ n, 384 ≤ n → remove n .badRoom ∧ (∀ up, service up n .badRoom) ∧
      (s.recs.pool.state ≠ .initializing → close n .badRoom)) ∧
    (∀ n, s.recs.pool.state = .initializing → close n .notReady) ∧
    ∀ r : RoomNo,
      let x := s.recs.room r
      let named := ∃ (l : LineNo) (n : NodeNo), ((s.recs.line l).node n).kind = .panel r
      (x.service = .undefined → remove r.val .ok ∧ (∀ up, service up r.val .badRoom) ∧
        (s.recs.pool.state ≠ .initializing → close r.val .badRoom)) ∧
      (x.service = .closing → remove r.val .busy ∧ (∀ up, service up r.val .busy) ∧
        (s.recs.pool.state ≠ .initializing → close r.val .busy)) ∧
      (x.service = .inService → remove r.val .wrongState) ∧
      (x.service = .outOfService →
        (x.chain ≠ [] → remove r.val .roomNotEmpty) ∧
        (x.chain = [] → x.memberships ≠ [] → remove r.val .badRoom) ∧
        (x.chain = [] → x.memberships = [] → named → remove r.val .nodeInUse) ∧
        (x.chain = [] → x.memberships = [] → ¬ named → s.recs.MembershipsLawful → ∃ b : Records,
          exec (.writeRoomRemove tag r.val) s = .next ((s.withRecs b).respond 32 tag .ok []) ∧
          b.room r = Room.reset ∧
          (∀ m : RoomNo, m ≠ r → b.room m =
            { s.recs.room m with memberships := (s.recs.room m).memberships.filter fun q => decide (q ≠ r) }) ∧
          s.recs.Marks b (fun q => q ∈ x.attrs.members.getD []) ∧
          b = { s.recs with rooms := b.rooms, lines := b.lines })) ∧
      (x.service = .inService ∨ x.service = .outOfService →
        (∀ up : Bool, ∃ b : Records,
          let target : Service := if up then .inService else .outOfService
          let bookable := b.inService r = true ∧ ∀ m ∈ x.attrs.members.getD [], (b.room m).service = .inService
          exec (.setRoomService tag up r.val) s = .next ((s.withRecs b).respond 34 tag .ok
            [if up then 1 else 2, if bookable then 1 else 0]) ∧
          (x.service = target → b = s.recs) ∧
          (x.service ≠ target →
            b.room r = { x with service := target } ∧ (∀ q : RoomNo, q ≠ r → b.room q = s.recs.room q) ∧
            s.recs.Marks b (fun q => q = r ∨ q ∈ x.attrs.members.getD []) ∧
            b = { s.recs with rooms := b.rooms, lines := b.lines })) ∧
        (s.recs.pool.state ≠ .initializing → ∃ b : Records,
          exec (.closeAndCancel tag r.val) s = .next ((s.withRecs b).respond 34 tag .started []) ∧
          b.room r = { x with service := .closing } ∧ (∀ q : RoomNo, q ≠ r → b.room q = s.recs.room q) ∧
          s.recs.Marks b (fun q => q = r ∨ q ∈ x.attrs.members.getD []) ∧
          b = { s.recs with rooms := b.rooms, lines := b.lines }))

/-- A step of the close-and-cancel walk of a CLOSING room brings it up to date and then retires the booking at the head
of its chain with the reason CLOSED; with no booking left the room becomes OUT_OF_SERVICE and CLOSE_DONE is raised
(R45, R46). A room that is not CLOSING has no such step (log entry 4). -/
def Obligations.CloseWalkRetiresAndCompletes : Prop :=
  ∀ (r : RoomNo) (s : State),
    let b := s.recs.bringUp s.clk r
    ((s.recs.room r).service ≠ .closing → exec (.closeWalkStep r) s = .next s) ∧
    ((s.recs.room r).service = .closing →
      (∀ sl rest k, (b.room r).chain = sl :: rest → (b.slot sl).body = .booking k →
        exec (.closeWalkStep r) s = .next { s with recs := (b.retire s.clk sl k .closed).1 }) ∧
      ((b.room r).chain = [] → ∃ b' : Records,
        exec (.closeWalkStep r) s = .next { s with recs := b' } ∧
        b'.room r = { b.room r with service := .outOfService } ∧
        (∀ q : RoomNo, q ≠ r → b'.room q = b.room q) ∧
        b'.notices = b.notices.raise (.room r .closeDone) ∧
        b.Marks b' (fun q => q = r ∨ q ∈ (b.room r).attrs.members.getD []) ∧
        b' = { b with rooms := b'.rooms, lines := b'.lines, notices := b'.notices }))

/-! ## Bookings -/

/-- HOLD (with a hold time) and BOOK judge the checks of R58 in order and, once the conflict set is up to date, make the
record: the head free slot, inserted in its room's chain before the first booking that starts later (R50, R54, R60).
The test makes every turnaround-until of the set that is at or before now absent (R40, R56; log entry 27). A claim that
the pool refuses answers POOL_EMPTY or POOL_LOW. The record is brought up to date at once: a BOOK within the lead is
ARRIVING, and the room's other bookings stand as they were (log entry 19). NOT_READY while CLEARING is log entry 20.
That the hold expiry ends the HOLD response without a presence byte and the BOOK response has no such item is log entry 34. The
grace of the room is one that R31 allows. -/
def Obligations.BookingMade : Prop :=
  ∀ (tag : Byte) (a : BookArgs) (ht : Option Nat) (s : State), s.port.state = .idle →
    let cmd : Instr := ht.elim (.book tag a) fun h => .hold tag a h
    let code : Byte := if ht.isSome then 48 else 49
    let refused := fun st => exec cmd s = .next (s.respond code tag st [])
    let now := s.clk.minute
    let st := a.start / 5 * 5
    let en := (a.stop + 4) / 5 * 5
    let valuesOk := a.cls < 3 ∧ 1 ≤ a.attendees ∧ a.attendees ≤ 500 ∧ ∀ h, ht = some h → 1 ≤ h ∧ h ≤ 30
    let timesOk := a.start ≤ 16777215 ∧ a.stop ≤ 16777215 ∧ now / 5 * 5 ≤ st ∧ st + 15 ≤ en ∧ en ≤ st + 720 ∧
      st < now + s.recs.pool.horizon * 1440
    (s.recs.pool.state ≠ .ready → refused .notReady) ∧
    (s.recs.pool.state = .ready → s.clk.state = .unset → refused .clockUnset) ∧
    (s.recs.pool.state = .ready → s.clk.state ≠ .unset →
      (384 ≤ a.room → refused .badRoom) ∧
      ∀ r : RoomNo, a.room = r.val →
        let x := s.recs.room r
        let bookable := x.service = .inService ∧
          ∀ m ∈ x.attrs.members.getD [], (s.recs.room m).service = .inService
        (x.service = .undefined → refused .badRoom) ∧
        (x.service ≠ .undefined → ¬ bookable → refused .roomClosed) ∧
        (bookable → ¬ valuesOk → refused .badValue) ∧
        (bookable → valuesOk → ¬ timesOk → refused .badTime) ∧
        (bookable → valuesOk → timesOk →
          let upToDate := s.recs.bringUpSet s.clk r
          let b := upToDate.readTurnarounds now r
          (b = { upToDate with rooms := b.rooms } ∧ ∀ q : RoomNo, b.room q = if q ∈ upToDate.conflictSet r then
              { upToDate.room q with turnaround := (upToDate.room q).turnaround.filter fun t => decide (now < t) }
            else upToDate.room q) ∧
          (∀ o, b.obstacle now r none true st en = some o →
            exec cmd s = .next ((s.withRecs b).respond code tag .conflict (obstacleBytes o st en))) ∧
          (b.obstacle now r none true st en = none → b.pool.freeCount = 0 →
            exec cmd s = .next ((s.withRecs b).respond code tag .poolEmpty [])) ∧
          (b.obstacle now r none true st en = none → b.pool.freeCount ≠ 0 → b.pool.freeCount ≤ b.pool.floor →
            a.cls ≠ 0 → exec cmd s = .next ((s.withRecs b).respond code tag .poolLow [])) ∧
          ∀ (sl : SlotNo) (rest : List SlotNo) (p : Prio), b.obstacle now r none true st en = none →
            b.pool.state = .ready → b.pool.freeList = sl :: rest → b.pool.freeCount ≠ 0 → (b.slot sl).body = .free →
            (b.pool.floor < b.pool.freeCount ∨ a.cls = 0) → p.rank = a.cls → 5 ≤ (b.room r).attrs.grace →
            let made : BookingState :=
              if ht.isSome then .held else if st ≤ now + (b.room r).attrs.lead then .arriving else .booked
            let record : Booking :=
              { room := r, start := st, stop := en, cls := p, state := made, checkedIn := false, checkInMinute := none,
                holdExpiry := ht.map fun h => now + h, extensions := 0, attendees := a.attendees,
                organizer := a.organizer % 4294967296, title := a.title, annex := [] }
            ∃ (b' : Records) (front back : List SlotNo),
              exec cmd s = .next ((s.withRecs b').respond code tag
                (if (b.room r).attrs.seats < a.attendees then .warnSeats else .ok)
                (handleBytes { kind := 1, gen := (b.slot sl).gen, slot := sl.val } ++ be 3 st ++ be 3 en ++
                  [made.byte] ++ be 1 a.cls ++ ht.elim [] fun h => minuteBytes (now + h))) ∧
              b'.slot sl = { gen := (b.slot sl).gen, body := .booking record } ∧
              (∀ y : SlotNo, y ≠ sl → b'.slot y = b.slot y) ∧
              b'.pool.freeList = rest ∧ b'.pool.freeCount = b.pool.freeCount - 1 ∧
              b'.notices = (if b.pool.lowArmed = true ∧ b.pool.freeCount - 1 = b.pool.floor then
                b.notices.raise (.part .poolLow) else b.notices) ∧
              (b.room r).chain = front ++ back ∧ b'.room r = { b.room r with chain := front ++ sl :: back } ∧
              (∀ y ∈ front, ∀ k, (b.slot y).body = .booking k → k.start ≤ st) ∧
              (∀ y, back.head? = some y → ∃ k, (b.slot y).body = .booking k ∧ st < k.start) ∧
              (∀ q : RoomNo, q ≠ r → b'.room q = b.room q) ∧ b'.kitchens = b.kitchens ∧ b'.queues = b.queues ∧
              b.Marks b' (fun q => q = r ∨ q ∈ (b.room r).attrs.members.getD [])))

/-- CONFIRM and CANCEL are refused with NOT_READY while the pool is not READY (R23; while CLEARING it is the model's
choice, log entry 20) and with CLOCK_UNSET while the clock is UNSET (R2), the records as they were. CONFIRM, CANCEL and
AMEND answer the refusal of the checks of R53 (HandlesAreChecked says which) with the records as the bringing up to date
left them; a booking of a CLOSING room is refused with ROOM_CLOSED and nothing is done. CONFIRM of a HELD booking makes it
BOOKED with its new class, clears its hold expiry and brings it up to date; a class that is none of the three is
BAD_VALUE, another state WRONG_STATE (R62). CANCEL retires the booking with the reason CANCELLED and answers the numbers
of its orders freed and made VOIDING (R66). -/
def Obligations.BookingConfirmedOrCancelled : Prop :=
  ∀ (tag : Byte) (h : Handle) (cls : Option Nat) (s : State), s.port.state = .idle →
    let both := fun st => exec (.confirm tag h cls) s = .next (s.respond 50 tag st []) ∧
      exec (.cancel tag h) s = .next (s.respond 52 tag st [])
    (s.recs.pool.state ≠ .ready → both .notReady) ∧
    (s.recs.pool.state = .ready → s.clk.state = .unset → both .clockUnset) ∧
    (s.recs.pool.state = .ready → s.clk.state ≠ .unset →
      (∀ b st, s.recs.nameBooking s.clk h = (b, .error st) →
        exec (.confirm tag h cls) s = .next ((s.withRecs b).respond 50 tag st []) ∧
        exec (.cancel tag h) s = .next ((s.withRecs b).respond 52 tag st []) ∧
        ∀ a : AmendArgs, a.handle = h → exec (.amend tag a) s = .next ((s.withRecs b).respond 51 tag st [])) ∧
      (∀ (sl : SlotNo) (k : Booking), h = { kind := 1, gen := (s.recs.slot sl).gen, slot := sl.val } →
        (s.recs.slot sl).body = .booking k → (s.recs.room k.room).service = .closing →
        exec (.confirm tag h cls) s = .next (s.respond 50 tag .roomClosed []) ∧
        exec (.cancel tag h) s = .next (s.respond 52 tag .roomClosed [])) ∧
      ∀ (b : Records) (sl : SlotNo) (k : Booking), s.recs.nameBooking s.clk h = (b, .ok (sl, k)) →
        let cancelled := b.retire s.clk sl k .cancelled
        exec (.cancel tag h) s = .next ((s.withRecs cancelled.1).respond 52 tag .ok
          (be 1 cancelled.2.1 ++ be 1 cancelled.2.2)) ∧
        (∀ n, cls = some n → 3 ≤ n → exec (.confirm tag h cls) s = .next ((s.withRecs b).respond 50 tag .badValue [])) ∧
        ((∀ n, cls = some n → n < 3) → k.state ≠ .held →
          exec (.confirm tag h cls) s = .next ((s.withRecs b).respond 50 tag .wrongState [])) ∧
        ∀ p : Prio, (∀ n, cls = some n → p.rank = n) → (∀ n, cls = some n → n < 3) → (cls = none → p = k.cls) →
          k.state = .held →
          let k' := { k with state := .booked, holdExpiry := none, cls := p }
          let b1 := (b.setBody sl (.booking k')).markShowing k.room
          let b2 := b1.updateBooking s.clk sl
          (∃ items : List Byte, exec (.confirm tag h cls) s = .next ((s.withRecs b2).respond 50 tag .ok
            (items ++ [p.byte] ++ minuteBytes k.start ++ minuteBytes k.stop))) ∧
          (s.clk.minute < k.stop → s.clk.minute + (b.room k.room).attrs.lead < k.start →
            b2 = b1 ∧ exec (.confirm tag h cls) s = .next ((s.withRecs b1).respond 50 tag .ok
              ([1, 1, 0, 0] ++ [p.byte] ++ minuteBytes k.start ++ minuteBytes k.stop))))

/-- AMEND is refused with NOT_READY while the pool is not READY (R23; while CLEARING it is the model's choice, log entry
20) and with CLOCK_UNSET while the clock is UNSET (R2), the records as they were. AMEND of a booking that passed R53
judges checks 4 to 9 of R63 in order on what it would set, and applies it whole: a
new start moves the record in its chain, any change marks the panels stale, and a change of times brings the booking up
to date (R64, R65). A test with a new start makes every turnaround-until of the conflict set that is at or before now
absent, whatever the test finds (R40, R56; log entry 27). -/
def Obligations.BookingAmended : Prop :=
  ∀ (tag : Byte) (a : AmendArgs) (s : State), s.port.state = .idle →
    (s.recs.pool.state ≠ .ready → exec (.amend tag a) s = .next (s.respond 51 tag .notReady [])) ∧
    (s.recs.pool.state = .ready → s.clk.state = .unset →
      exec (.amend tag a) s = .next (s.respond 51 tag .clockUnset [])) ∧
    ∀ (b : Records) (sl : SlotNo) (k : Booking), s.recs.pool.state = .ready → s.clk.state ≠ .unset →
      s.recs.nameBooking s.clk a.handle = (b, .ok (sl, k)) →
      let k' := { k with
        start := (a.start.map fun m => m / 5 * 5).getD k.start
        stop := (a.stop.map fun m => (m + 4) / 5 * 5).getD k.stop
        attendees := a.attendees.getD k.attendees
        title := a.title.getD k.title }
      let now := s.clk.minute
      let moves := k'.start ≠ k.start ∨ k'.stop ≠ k.stop
      let refused := fun st => exec (.amend tag a) s = .next ((s.withRecs b).respond 51 tag st [])
      let stateOk := k'.start = k.start ∨ k.state = .held ∨ k.state = .booked
      let valueOk := ∀ n, a.attendees = some n → 1 ≤ n ∧ n ≤ 500
      let bookable := (b.room k.room).service = .inService ∧
        ∀ m ∈ (b.room k.room).attrs.members.getD [], (b.room m).service = .inService
      let timesOk := (∀ m, a.start = some m → m ≤ 16777215) ∧ (∀ m, a.stop = some m → m ≤ 16777215) ∧
        k'.start + 15 ≤ k'.stop ∧ k'.stop ≤ k'.start + 720 ∧
        (k'.start ≠ k.start → now / 5 * 5 ≤ k'.start ∧ k'.start < now + b.pool.horizon * 1440) ∧
        (k'.start = k.start → now < k'.stop)
      let ordersOk := ∀ o ∈ k.annex, ∀ x, (b.slot o).body = .order x → k'.start ≤ x.delivery + 30 ∧ x.delivery < k'.stop
      let b1 := if k'.start ≠ k.start then b.readTurnarounds now k.room else b
      let found := b1.obstacle now k.room (some sl) (decide (k'.start ≠ k.start)) k'.start k'.stop
      (k'.start ≠ k.start → b1 = { b with rooms := b1.rooms } ∧
        ∀ q : RoomNo, b1.room q = if q ∈ b.conflictSet k.room then
          { b.room q with turnaround := (b.room q).turnaround.filter fun t => decide (now < t) } else b.room q) ∧
      (¬ stateOk → refused .wrongState) ∧
      (stateOk → ¬ valueOk → refused .badValue) ∧
      (stateOk → valueOk → moves → ¬ bookable → refused .roomClosed) ∧
      (stateOk → valueOk → moves → bookable → ¬ timesOk → refused .badTime) ∧
      (stateOk → valueOk → moves → bookable → timesOk → ¬ ordersOk → refused .ordersAttached) ∧
      (stateOk → valueOk → moves → bookable → timesOk → ordersOk → ∀ o, found = some o →
        exec (.amend tag a) s =
          .next ((s.withRecs b1).respond 51 tag .conflict (obstacleBytes o k'.start k'.stop))) ∧
      (stateOk → valueOk → (moves → bookable ∧ timesOk ∧ ordersOk ∧ found = none) →
        let placed := if k'.start ≠ k.start then ((b1.unlink k.room sl).setBody sl (.booking k')).link k.room sl k'.start
          else b1.setBody sl (.booking k')
        let marked := if k' = k then placed else placed.markShowing k.room
        let b' := if k'.start ≠ k.start ∨ k'.stop ≠ k.stop then marked.updateBooking s.clk sl else marked
        exec (.amend tag a) s = .next ((s.withRecs b').respond 51 tag
          (if (b1.room k.room).attrs.seats < k'.attendees then .warnSeats else .ok)
          (b'.bookingPayload ((b'.booking? sl).getD k'))))

/-- Retirement unlinks the booking, settles every order of its annex chain in the order of the chain, returns its slot,
writes the last release and the turnaround, and raises the notice of its reason (R16, R40, R41, R68, R69). The numbers
answered are those of the orders freed and of the orders made VOIDING; what the settlement of one order does is
OrdersSettledByState. -/
def Obligations.RetirementReleasesRoom : Prop :=
  ∀ (b : Records) (c : Clock) (sl : SlotNo) (k : Booking) (why : Reason), (b.slot sl).body = .booking k →
    let t := b.retire c sl k why
    let x := b.room k.room
    let minute := if why = .ended ∨ why = .skipped then k.stop else c.minute
    let settle := fun (p : Records × Nat × Nat) (o : SlotNo) =>
      let r := p.1.settleOrder c o
      (r.1, p.2.1 + (if r.2 = .freed then 1 else 0), p.2.2 + if r.2 = .voiding then 1 else 0)
    let settled := k.annex.foldl settle (b, 0, 0)
    let b' := settled.1
    t.2 = settled.2 ∧ t.2.1 + t.2.2 = k.annex.length ∧ (k.annex = [] → t.2 = (0, 0) ∧ b' = b) ∧
      t.1.slot sl = { gen := (b.slot sl).gen + 1, body := .free } ∧
      (∀ y : SlotNo, y ≠ sl → t.1.slot y = b'.slot y) ∧
      t.1.pool.freeList = sl :: b'.pool.freeList ∧ t.1.pool.freeCount = b'.pool.freeCount + 1 ∧
      t.1.pool.lowArmed = (b'.pool.lowArmed || decide (b'.pool.floor + 64 < b'.pool.freeCount + 1)) ∧
      t.1.pool.state = b.pool.state ∧ t.1.pool.floor = b.pool.floor ∧ t.1.pool.horizon = b.pool.horizon ∧
      t.1.room k.room = { x with
        chain := x.chain.filter fun y => decide (y ≠ sl)
        lastRelease := some (why, minute)
        turnaround :=
          if why = .ended ∨ why = .skipped ∨ why = .doorRelease ∨ why = .vacated then
            some (max (x.turnaround.getD 0) (minute + x.attrs.gap))
          else x.turnaround } ∧
      (∀ q : RoomNo, q ≠ k.room → t.1.room q = b.room q) ∧
      b.Marks t.1 (fun q => q = k.room ∨ q ∈ x.attrs.members.getD []) ∧
      t.1.notices =
        (match why with
          | .noShow => b.notices.raise (.room k.room .noShow)
          | .vacated => b.notices.raise (.room k.room .vacated)
          | .doorRelease => b.notices.raise (.room k.room .doorRelease)
          | .holdExpired => b.notices.raise (.room k.room .holdExpired)
          | _ => b.notices) ∧
      t.1.kitchens = b'.kitchens ∧ t.1.queues = b'.queues

/-- An order is settled by its state (R69): off its waitlist, or its shares in windows not yet begun released with a
promotion trigger, or out of the ticket queue, and its slot returned; or, when its ticket is in flight or with the
kitchen, made VOIDING without an owner, an order with the kitchen joining the queue as a void behind the last void that
waits, and when none waits ahead of every ticket but the one in flight (R137, R139; a ticket that a loss left ahead of
waiting voids: log entry 29). -/
def Obligations.OrdersSettledByState : Prop :=
  ∀ (b : Records) (c : Clock) (sl : SlotNo) (o : Order), (b.slot sl).body = .order o →
    let t := b.settleOrder c sl
    let q := b.queue o.kitchen
    let inFlight := q.entries.head?.map (fun e => e.slot) = some sl ∧
      q.inFlight = some ({ kind := 2, gen := (b.slot sl).gen, slot := sl.val }, false)
    let returned := t.2 = .freed ∧ t.1.slot sl = { gen := (b.slot sl).gen + 1, body := .free } ∧
      t.1.pool.freeList = sl :: b.pool.freeList ∧ t.1.pool.freeCount = b.pool.freeCount + 1
    let voiding := t.2 = .voiding ∧
      t.1.slot sl = { gen := (b.slot sl).gen, body := .order { o with state := .voiding, owner := none } } ∧
      t.1.kitchens = b.kitchens
    t.1.rooms = b.rooms ∧ t.1.lines = b.lines ∧ t.1.notices = b.notices ∧
    (∀ y : SlotNo, y ≠ sl → t.1.slot y = b.slot y) ∧
    (∀ p : KitchenNo, p ≠ o.kitchen → t.1.kitchen p = b.kitchen p ∧ t.1.queue p = b.queue p) ∧
    match o.state with
    | .waitlisted => returned ∧ t.1.queues = b.queues ∧ t.1.kitchen o.kitchen =
        { b.kitchen o.kitchen with waitlist := (b.kitchen o.kitchen).waitlist.filter fun y => decide (y ≠ sl) }
    | .confirmed => returned ∧ t.1.queues = b.queues ∧
        let released := (b.kitchen o.kitchen).subShares (c.minute / 30) o.shares
        t.1.kitchen o.kitchen =
          if b.pool.state = .ready ∧ c.state ≠ .unset then
            if released.pass = .idle then { released with pass := .promoting none, again := false }
            else { released with again := true }
          else released
    | .queued =>
        (inFlight → voiding ∧ t.1.queues = b.queues) ∧
        (¬ inFlight → returned ∧ t.1.kitchens = b.kitchens ∧
          t.1.queue o.kitchen = { q with entries := q.entries.filter fun e => decide (e.slot ≠ sl) })
    | .ticketed | .accepted => voiding ∧ ∃ front back : List QueueEntry,
        q.entries = front ++ back ∧
        t.1.queue o.kitchen = { q with entries := front ++ { slot := sl, asVoid := true } :: back } ∧
        (∀ e ∈ back, e.asVoid = false) ∧
        (∀ e, front.getLast? = some e → e.asVoid = true ∨ (front = [e] ∧ b.inFlightAtHead o.kitchen e.slot = true)) ∧
        (front = [] → ∀ e, back.head? = some e → b.inFlightAtHead o.kitchen e.slot = false)
    | .done | .lapsed => returned ∧ t.1.kitchens = b.kitchens ∧ t.1.queues = b.queues
    | .voiding => t = (b, .voiding)

/-- Bringing a room up to date makes a turnaround-until at or before now absent and then brings each booking of the
room's chain, as the chain stood, up to date from its head on, which is in ascending order of start (R50, R54, R70); a
slot that holds no booking by then is left alone, a FREE slot stays as it is, and no room changes but in its chain, its
turnaround-until and its last release. Bringing a conflict set up to date does so for its rooms in ascending order (R54,
R76; ConflictSetsMirror says which rooms). Bringing one booking up to date follows the table of R70: hold expiry, end or skip (R71), the states that R91 reports
(R72, R73), the end of the grace with its panel condition (R74), the vacate limit (R75). A retired booking is retired
whole; a booking that stays and changes marks the panels showing its room stale. -/
def Obligations.DayTableJudgesBooking : Prop :=
  (∀ (b : Records) (c : Clock) (r : RoomNo),
    let t := b.bringUp c r
    (∃ b1 : Records, b1 = { b with rooms := b1.rooms } ∧
      (∀ q : RoomNo, b1.room q = if q = r then
          { b.room q with turnaround := (b.room q).turnaround.filter fun m => decide (c.minute < m) }
        else b.room q) ∧
      t = (b.room r).chain.foldl (fun x sl => x.updateBooking c sl) b1) ∧
    (∀ sl, (∀ k, (b.slot sl).body ≠ .booking k) → b.updateBooking c sl = b) ∧
    (∀ sl, (b.slot sl).body = .free → t.slot sl = b.slot sl) ∧
    (t.pool.state = b.pool.state ∧ t.pool.floor = b.pool.floor ∧ t.pool.horizon = b.pool.horizon) ∧
    (∀ q : RoomNo, { t.room q with
      chain := (b.room q).chain, turnaround := (b.room q).turnaround, lastRelease := (b.room q).lastRelease } =
        b.room q) ∧
    b.bringUpSet c r = (b.conflictSet r).foldl (fun x q => x.bringUp c q) b) ∧
  ∀ (b : Records) (c : Clock) (sl : SlotNo) (k : Booking), (b.slot sl).body = .booking k →
    let t := b.updateBooking c sl
    let now := c.minute
    let x := b.room k.room
    let retired := fun (k' : Booking) (why : Reason) => t = (b.retire c sl k' why).1
    let kept := fun k' : Booking =>
      (k' = k → t = b) ∧ (k' ≠ k → t = (b.setBody sl (.booking k')).markShowing k.room)
    let panel := fun (rs : List RoomNo) (st : NodeState) =>
      ∃ (l : LineNo) (n : NodeNo) (q : RoomNo), q ∈ rs ∧ ((b.line l).node n).kind = .panel q ∧
        ((b.line l).node n).state = st
    let watched := (x.attrs.members = none → panel [k.room] .online) ∧
      ∀ ms, x.attrs.members = some ms → panel ms .online ∧ ¬ panel ms .silent
    let vacate := fun k' : Booking =>
      x.attrs.vacate ≠ 0 ∧ watched ∧ (∀ m, b.lastMotionOf k.room = some m → x.attrs.vacate ≤ now - m) ∧
      k'.start + x.attrs.vacate ≤ now ∧ ∀ m, k'.checkInMinute = some m → m + x.attrs.vacate ≤ now
    let graceOver := k.start + x.attrs.grace ≤ now ∧ ∀ j, c.lastJump = some j → j.2 + x.attrs.grace ≤ now
    let expired := k.state = .held ∧ ∃ e, k.holdExpiry = some e ∧ e ≤ now ∧ e ≤ k.stop
    x.attrs.vacate ≤ 255 →
    (expired → retired k .holdExpired) ∧
    (¬ expired → k.stop ≤ now →
      ((∃ j, c.lastJump = some j ∧ j.1 < k.stop ∧ k.stop ≤ j.2) → retired k .skipped) ∧
      (¬ (∃ j, c.lastJump = some j ∧ j.1 < k.stop ∧ k.stop ≤ j.2) → retired k .ended)) ∧
    (¬ expired → now < k.stop →
      (k.state = .held → kept k) ∧
      (k.state = .booked → now + x.attrs.lead < k.start → kept k) ∧
      ((k.state = .arriving ∨ (k.state = .booked ∧ k.start ≤ now + x.attrs.lead)) →
        (k.checkedIn = true → now < k.start → kept { k with state := .arriving }) ∧
        (k.checkedIn = false → ¬ graceOver → kept { k with state := .arriving }) ∧
        (k.checkedIn = false → graceOver →
          (x.attrs.autoRelease = true → watched → retired { k with state := .arriving } .noShow) ∧
          (¬ (x.attrs.autoRelease = true ∧ watched) →
            let k' := { k with state := .inUse, checkedIn := false, checkInMinute := none }
            (vacate k' → retired k' .vacated) ∧ (¬ vacate k' → kept k')))) ∧
      (k.state = .inUse ∨
          ((k.state = .arriving ∨ (k.state = .booked ∧ k.start ≤ now + x.attrs.lead)) ∧ k.checkedIn = true ∧
            k.start ≤ now) →
        let k' := { k with state := .inUse }
        (vacate k' → retired k' .vacated) ∧ (¬ vacate k' → kept k')))

/-! ## Panels and the minute walk -/

/-- BKE takes the oldest minute advance that waits: with the pool READY a walk begins at room 0, or a walk in flight is
marked to begin again; otherwise it starts none (R5, R76, R77). A walk step brings the next room up to date and moves
on; after room 383 it begins again if marked, and ends otherwise (R76). A room without bookings has only its
turnaround-until made absent (R40). A row without a waiting advance or a walk changes nothing (log entry 4). That no next
room is held in IDLE is log entry 24. -/
def Obligations.MinuteWalkVisitsRooms : Prop :=
  ∀ s : State,
    (s.mail.bkeAdvances = [] → exec .bkeMinuteAdvance s = .next s) ∧
    (∀ x rest, s.mail.bkeAdvances = x :: rest →
      exec .bkeMinuteAdvance s = .next { s with
        mail := { s.mail with bkeAdvances := rest }
        walk := if s.recs.pool.state = .ready then
            if s.walk.next = none then { next := some 0, rewalk := s.walk.rewalk }
            else { next := s.walk.next, rewalk := true }
          else s.walk }) ∧
    (s.walk.next = none → exec .minuteWalkStep s = .next s) ∧
    ∀ r : RoomNo, s.walk.next = some r → ∃ (b : Records) (w : Walk),
      exec .minuteWalkStep s = .next { s with recs := b, walk := w } ∧
      b = s.recs.bringUp s.clk r ∧
      (r.val < 383 → w.rewalk = s.walk.rewalk ∧ w.next.map Fin.val = some (r.val + 1)) ∧
      (r.val = 383 → w = { next := if s.walk.rewalk then some 0 else none, rewalk := false }) ∧
      ((s.recs.room r).chain = [] →
        b = { s.recs with rooms := b.rooms } ∧ (∀ q : RoomNo, q ≠ r → b.room q = s.recs.room q) ∧
        b.room r =
          { s.recs.room r with turnaround := (s.recs.room r).turnaround.filter fun t => decide (s.clk.minute < t) })

/-- The oldest hand-off of a node is taken by the event of its kind and by no other. A request is judged by R79 and then
by its own rule on the view brought up to date, and its result is handed back (R161). A motion report with a count above
0 sets the room's last motion to the answer's minute and hands the motion to BKE, ahead of the answer's request (R42,
R172, R173); BKE checks in by it when the pool is READY, the clock set and the room IN_SERVICE (R81). The hand-off lists
are the model's (log entries 4 and 11), and so is the room of a motion whose node has been renamed since (log entry
15). -/
def Obligations.PanelHandoffsTaken : Prop :=
  ∀ (l : LineNo) (n : NodeNo) (s : State),
    let asks : Request → Instr := fun q =>
      match q with
      | .checkIn => .checkIn l n
      | .extend => .extend l n
      | .release => .release l n
      | .walkUp => .walkUp l n
    let judged : Request → Records → RoomNo → Records × PanelResult := fun q b r =>
      match q with
      | .checkIn => b.panelCheckIn s.clk r
      | .extend => b.panelExtend s.clk r
      | .release => b.panelRelease s.clk r
      | .walkUp => b.panelWalkUp s.clk r
    ((∀ x ∈ s.mail.panel, ¬ (x.line = l ∧ x.node = n)) →
      (∀ q, exec (asks q) s = .next s) ∧ exec (.motionReport l n) s = .next s ∧
      exec (.motionCheckIn l n) s = .next s) ∧
    ∀ (front back : List PanelHandoff) (r : RoomNo) (item : PanelItem),
      s.mail.panel = front ++ { line := l, node := n, room := r, item := item } :: back →
      (∀ x ∈ front, ¬ (x.line = l ∧ x.node = n)) →
      let rest := front ++ back
      (∀ q : Request, item = .request q →
        let done := fun (b : Records) (res : PanelResult) => exec (asks q) s = .next { s with
          recs := b
          mail := { s.mail with
            panel := rest
            results := s.mail.results ++ [{ line := l, node := n, room := r, result := res }] } }
        (s.recs.pool.state ≠ .ready → done s.recs .busy) ∧
        (s.recs.pool.state = .ready → s.clk.state = .unset → done s.recs .nothing) ∧
        (s.recs.pool.state = .ready → s.clk.state ≠ .unset → (s.recs.room r).service ≠ .inService →
          done s.recs .closed) ∧
        (s.recs.pool.state = .ready → s.clk.state ≠ .unset → (s.recs.room r).service = .inService →
          let t := judged q (s.recs.bringUpSet s.clk r) r
          done t.1 t.2)) ∧
      (∀ q : Request, item ≠ .request q → exec (asks q) s = .next s) ∧
      (∀ count minute, item = .motion count minute →
        (count = 0 → exec (.motionReport l n) s = .next { s with mail := { s.mail with panel := rest } }) ∧
        (0 < count → ∃ b : Records,
          exec (.motionReport l n) s = .next { s with
            recs := b
            mail := { s.mail with panel := { line := l, node := n, room := r, item := .motionCheckIn } :: rest } } ∧
          b = { s.recs with rooms := b.rooms } ∧ (∀ q : RoomNo, q ≠ r → b.room q = s.recs.room q) ∧
          b.room r = { s.recs.room r with lastMotion := some minute })) ∧
      ((∀ count minute, item ≠ .motion count minute) → exec (.motionReport l n) s = .next s) ∧
      (item ≠ .motionCheckIn → exec (.motionCheckIn l n) s = .next s) ∧
      (item = .motionCheckIn →
        let taken := fun b : Records =>
          exec (.motionCheckIn l n) s = .next { s with recs := b, mail := { s.mail with panel := rest } }
        let act := s.recs.pool.state = .ready ∧ s.clk.state ≠ .unset ∧ (s.recs.room r).service = .inService
        let b := s.recs.bringUpSet s.clk r
        (¬ act → taken s.recs) ∧
        (act →
          let first := (b.livingView s.clk.minute r).find? fun x =>
            decide (x.booking.state = .arriving ∧ x.booking.checkedIn = false)
          (first = none → taken b) ∧
          ∀ x, first = some x →
            let free := (b.room x.chainRoom).attrs.motionCheckIn = true ∧ (b.room x.chainRoom).service ≠ .closing
            (¬ free → taken b) ∧
            (free → taken ((b.setBody x.slot (.booking { x.booking with
              checkedIn := true
              checkInMinute := some s.clk.minute
              state := if x.booking.start ≤ s.clk.minute then .inUse else x.booking.state })).markShowing
                x.chainRoom))))

/-- What the four requests do on a view brought up to date. CHECK_IN checks in the earliest ARRIVING booking not checked
in (R80); RELEASE retires the IN_USE or else the earliest ARRIVING booking (R84); EXTEND adds 15 minutes to an IN_USE
booking of a bookable room with fewer than four extensions and no obstacle, for a combined room after the rest of its
conflict set has been brought up to date (R83; CLOSED comes first: log entry 28); WALK_UP makes an IN_USE record from the
5-minute floor of now to the least of the three terms of R85, at its place in the chain, marking the panels that show the
room and raising WALKUP (R50, R85, R86), its test making every turnaround-until of the set that is at or before now absent
(R40, R56; log entry 27); that NONE answers a WALK_UP behind a BOOK that is ARRIVING at once, as R85 says, is log entry 37
(R87). The spaces that fill the title WALK-UP are log entry 10. -/
def Obligations.PanelRequestsActOnView : Prop :=
  ∀ (b : Records) (c : Clock) (r : RoomNo),
    let now := c.minute
    let l := b.livingView now r
    let isIn := fun (st : BookingState) (x : Seen) => decide (x.booking.state = st)
    let busy := ∃ x ∈ l, x.booking.state = .arriving ∨ x.booking.state = .inUse
    let due := l.find? fun x => decide (x.booking.state = .arriving ∧ x.booking.checkedIn = false)
    let leaving := (l.find? (isIn .inUse)).or (l.find? (isIn .arriving))
    (due = none → busy → b.panelCheckIn c r = (b, .already)) ∧
    (¬ busy → b.panelCheckIn c r = (b, .nothing)) ∧
    (∀ x, due = some x → (b.room x.chainRoom).service = .closing → b.panelCheckIn c r = (b, .closed)) ∧
    (∀ x, due = some x → (b.room x.chainRoom).service ≠ .closing → b.panelCheckIn c r =
      ((b.setBody x.slot (.booking { x.booking with
          checkedIn := true, checkInMinute := some now
          state := if x.booking.start ≤ now then .inUse else .arriving })).markShowing x.chainRoom, .checkedIn)) ∧
    (leaving = none → b.panelRelease c r = (b, .nothing)) ∧
    (∀ x, leaving = some x → (b.room x.chainRoom).service = .closing → b.panelRelease c r = (b, .closed)) ∧
    (∀ x, leaving = some x → (b.room x.chainRoom).service ≠ .closing →
      b.panelRelease c r = ((b.retire c x.slot x.booking .doorRelease).1, .released)) ∧
    (l.find? (isIn .inUse) = none → b.panelExtend c r = (b, .nothing)) ∧
    (∀ x, l.find? (isIn .inUse) = some x → (b.room x.chainRoom).service = .closing →
      b.panelExtend c r = (b, .closed)) ∧
    (∀ x, l.find? (isIn .inUse) = some x → (b.room x.chainRoom).service ≠ .closing →
      (b.room x.chainRoom).attrs.members = none →
      let q := x.chainRoom
      let k := x.booking
      let found := b.obstacle now q (some x.slot) false k.start (k.stop + 15)
      let full := 4 ≤ k.extensions ∨ 16777215 < k.stop + 15
      ((b.room q).service ≠ .inService → b.panelExtend c r = (b, .closed)) ∧
      ((b.room q).service = .inService → full → b.panelExtend c r = (b, .extLimit)) ∧
      ((b.room q).service = .inService → ¬ full → found ≠ none → b.panelExtend c r = (b, .extConflict)) ∧
      ((b.room q).service = .inService → ¬ full → found = none → b.panelExtend c r =
        (((b.setBody x.slot (.booking { k with stop := k.stop + 15, extensions := k.extensions + 1 })).markShowing
          q).raise (.room q .extended), .extended (k.stop + 15)))) ∧
    (∀ x ms, l.find? (isIn .inUse) = some x → (b.room x.chainRoom).service ≠ .closing →
      (b.room x.chainRoom).attrs.members = some ms →
      let q := x.chainRoom
      let b1 := b.bringUpAll c ((b.conflictSet q).filter fun m => decide (m ∉ b.conflictSet r))
      ((b1.slot x.slot).gen ≠ (b.slot x.slot).gen ∨ b1.booking? x.slot = none → b.panelExtend c r = (b1, .nothing)) ∧
      ∀ k, (b1.slot x.slot).gen = (b.slot x.slot).gen → (b1.slot x.slot).body = .booking k →
        let bookable := (b1.room q).service = .inService ∧
          ∀ m ∈ (b1.room q).attrs.members.getD [], (b1.room m).service = .inService
        let found := b1.obstacle now q (some x.slot) false k.start (k.stop + 15)
        let full := 4 ≤ k.extensions ∨ 16777215 < k.stop + 15
        (¬ bookable → b.panelExtend c r = (b1, .closed)) ∧
        (bookable → full → b.panelExtend c r = (b1, .extLimit)) ∧
        (bookable → ¬ full → found ≠ none → b.panelExtend c r = (b1, .extConflict)) ∧
        (bookable → ¬ full → found = none → b.panelExtend c r =
          (((b1.setBody x.slot (.booking { k with stop := k.stop + 15, extensions := k.extensions + 1 })).markShowing
            q).raise (.room q .extended), .extended (k.stop + 15)))) ∧
    let st := now / 5 * 5
    let en := b.walkUpEnd now r st
    let b1 := b.readTurnarounds now r
    (b1 = { b with rooms := b1.rooms } ∧ ∀ q : RoomNo, b1.room q = if q ∈ b.conflictSet r then
        { b.room q with turnaround := (b.room q).turnaround.filter fun t => decide (now < t) } else b.room q) ∧
    (en = st + 30 ∨ en = 16777215 ∨ ∃ (q : RoomNo) (x : Seen), q ∈ b.conflictSet r ∧ x ∈ b.chainOf q ∧
      x.booking.countsRetired now = false ∧ st ≤ x.booking.start ∧
      en = x.booking.start - max (b.room r).attrs.gap (b.room q).attrs.gap) ∧
    (en ≤ st + 30 ∧ en ≤ 16777215 ∧
      (∀ (q : RoomNo) (x : Seen), q ∈ b.conflictSet r → x ∈ b.chainOf q →
        x.booking.countsRetired now = false → st ≤ x.booking.start →
        en ≤ x.booking.start - max (b.room r).attrs.gap (b.room q).attrs.gap)) ∧
    (busy → b.panelWalkUp c r = (b, .nothing)) ∧
    (¬ busy → en < st + 15 → b.panelWalkUp c r = (b, .tooShort)) ∧
    (¬ busy → st + 15 ≤ en → b1.obstacle now r none true st en ≠ none → b.panelWalkUp c r = (b1, .turnaround)) ∧
    (¬ busy → st + 15 ≤ en → b1.obstacle now r none true st en = none → b.pool.state = .ready →
      (b.pool.freeCount = 0 → b.panelWalkUp c r = (b1, .poolEmpty)) ∧
      ∀ (sl : SlotNo) (rest : List SlotNo), b.pool.freeList = sl :: rest → b.pool.freeCount ≠ 0 →
        (b.slot sl).body = .free →
        let count := b.pool.freeCount - 1
        let made : Booking :=
          { room := r, start := st, stop := en, cls := .walkup, state := .inUse, checkedIn := true,
            checkInMinute := some now, holdExpiry := none, extensions := 0, attendees := 1, organizer := 0,
            title := walkupTitle, annex := [] }
        ∃ (b' : Records) (front back : List SlotNo), b.panelWalkUp c r = (b', .booked en) ∧
          b'.slot sl = { gen := (b.slot sl).gen, body := .booking made } ∧
          (∀ y : SlotNo, y ≠ sl → b'.slot y = b.slot y) ∧
          (b1.room r).chain = front ++ back ∧ b'.room r = { b1.room r with chain := front ++ sl :: back } ∧
          (∀ y ∈ front, ∀ k, (b.slot y).body = .booking k → k.start ≤ st) ∧
          (∀ y, back.head? = some y → ∃ k, (b.slot y).body = .booking k ∧ st < k.start) ∧
          (∀ q : RoomNo, q ≠ r → b'.room q = b1.room q) ∧
          b'.pool = { b.pool with slots := b'.pool.slots, freeList := rest, freeCount := count
                                  lowArmed := b.pool.lowArmed && decide (count ≠ b.pool.floor) } ∧
          b.Marks b' (fun q => q = r ∨ q ∈ (b.room r).attrs.members.getD []) ∧
          b'.notices = (if b.pool.lowArmed = true ∧ count = b.pool.floor then b.notices.raise (.part .poolLow)
            else b.notices).raise (.room r .walkup) ∧
          RoomNotice.walkup ∈ b'.notices.rooms[r.val] ∧ b'.kitchens = b.kitchens ∧ b'.queues = b.queues)

/-! ## The search -/

/-- FIND_ROOMS that passes the checks of R96 begins a scan at its from room and holds the port EXECUTING; one that fails
answers the refusal. Each scan step judges one room by R97; the scan ends after room 383, or after a room once 16 are
found, with the response of R98. The model's choices: NOT_READY while CLEARING (log entry 20), a step without a scan
changes nothing (log entry 4), turnarounds made absent only where the test runs (log entry 19), END as an item that is
absent (log entry 10). -/
def Obligations.FindRoomsScans : Prop :=
  ∀ (tag : Byte) (a : FindArgs) (s : State),
    let now := s.clk.minute
    let st := a.start / 5 * 5
    let en := (a.stop + 4) / 5 * 5
    let valuesOk := 1 ≤ a.seats ∧ a.seats ≤ 500 ∧ ∀ n, a.building = some n → n < 16
    let timesOk := a.start ≤ 16777215 ∧ a.stop ≤ 16777215 ∧ now / 5 * 5 ≤ st ∧ st + 15 ≤ en ∧ en ≤ st + 720 ∧
      st < now + s.recs.pool.horizon * 1440
    (s.port.state = .idle →
      let refused := fun e => exec (.findRooms tag a) s = .next (s.respond 66 tag e [])
      (s.recs.pool.state ≠ .ready → refused .notReady) ∧
      (s.recs.pool.state = .ready → s.clk.state = .unset → refused .clockUnset) ∧
      (s.recs.pool.state = .ready → s.clk.state ≠ .unset →
        (¬ valuesOk → refused .badValue) ∧
        (valuesOk → 384 ≤ a.fromRoom → refused .badRoom) ∧
        (valuesOk → a.fromRoom < 384 → ¬ timesOk → refused .badTime) ∧
        ∀ r : RoomNo, valuesOk → a.fromRoom = r.val → timesOk →
          exec (.findRooms tag a) s = .next { s with
            scan := some { start := st, stop := en, building := a.building, seats := a.seats, combined := a.combined,
                           next := r, found := [] }
            port := { s.port with state := .executing (.findRooms tag a) true } })) ∧
    (s.scan = none → exec .findRoomsScanStep s = .next s) ∧
    ∀ x : Scan, s.scan = some x → s.port.state = .executing (.findRooms tag a) true →
      let b := s.recs
      let y := b.room x.next
      let suits := (y.service = .inService ∧ ∀ m ∈ y.attrs.members.getD [], (b.room m).service = .inService) ∧
        (x.combined = true ∨ y.attrs.members = none) ∧ (∀ n, x.building = some n → y.attrs.building = n) ∧
        x.seats ≤ y.attrs.seats
      ∃ (b' : Records) (found : List RoomNo),
        b' = { b with rooms := b'.rooms } ∧
        (¬ suits → b' = b) ∧ (∀ q : RoomNo, q ∉ b.conflictSet x.next → b'.room q = b.room q) ∧
        (suits → ∀ q ∈ b.conflictSet x.next, b'.room q =
          { b.room q with turnaround := (b.room q).turnaround.filter fun t => decide (now < t) }) ∧
        (suits → b'.obstacle now x.next none true x.start x.stop = none → found = x.found ++ [x.next]) ∧
        (¬ (suits ∧ b'.obstacle now x.next none true x.start x.stop = none) → found = x.found) ∧
        (∀ r : RoomNo, r.val = x.next.val + 1 → found.length < 16 →
          exec .findRoomsScanStep s =
            .next { s with recs := b', scan := some { x with next := r, found := found } }) ∧
        (x.next.val = 383 ∨ 16 ≤ found.length →
          exec .findRoomsScanStep s = .next
            (({ s with recs := b', scan := none } : State).respond 66 tag .ok
              (minuteBytes x.start ++ minuteBytes x.stop ++ be 1 found.length ++
                found.flatMap (fun q => be 2 q.val ++ be 1 (b.room q).attrs.building ++ be 2 (b.room q).attrs.seats ++
                  optBytes 1 ((b.room q).attrs.kitchen.map Fin.val) ++
                  [if (b.room q).attrs.members.isSome then 1 else 0]) ++
                optBytes 2 (if x.next.val = 383 then none else some (x.next.val + 1)))))

/-! ## Kitchens -/

/-- The load arithmetic: the units of R105, their spread over the prep windows with the remainder on the latest (R106,
R107), and the late drop, which keeps the sum and leaves none exactly when the last prep window has begun (R108). The
lead is one that R104 allows. -/
def Obligations.LoadArithmetic : Prop :=
  ∀ (m : MenuClass) (headcount delivery w0 : Nat), 1 ≤ m.lead →
    let u := loadUnits m headcount
    let wd := delivery / 30
    m.setup ≤ u ∧ headcount * m.weight ≤ 16 * (u - m.setup) ∧ 16 * (u - m.setup) < headcount * m.weight + 16 ∧
    (spread u m.lead wd).length = m.lead ∧ ((spread u m.lead wd).map fun x => x.2).sum = u ∧
    (∀ i, i < m.lead → (spread u m.lead wd)[i]? =
      some ((wd : Int) - (m.lead : Int) + (i : Int), u / m.lead + if m.lead ≤ i + u % m.lead then 1 else 0)) ∧
    (headcount ≤ 250 → m.weight ≤ 255 → m.setup ≤ 63 → u ≤ 4048) ∧
    (1 ≤ headcount → (u = 0 ↔ m.setup = 0 ∧ m.weight = 0)) ∧
    (computeLoad m headcount delivery w0 = none ↔ wd ≤ w0 + 1) ∧
    ∀ x, computeLoad m headcount delivery w0 = some x →
      x.units = u ∧ x.prepStart = max (w0 + 1) (wd - m.lead) ∧
      (x.shares.map fun p => p.1) = List.range' x.prepStart (wd - x.prepStart) ∧
      (x.shares.map fun p => p.2).sum = u ∧
      ∀ p ∈ x.shares, p.1 ≠ x.prepStart → p.2 = u / m.lead + if wd - p.1 ≤ u % m.lead then 1 else 0

/-- WRITE_MENU_CLASS, WRITE_BANKS, WRITE_KITCHEN and SET_STAFFING check their values and then replace what they carry;
the last two form the active level again (R101, R116, R122, R123, R124). The response of WRITE_BANKS gives eight numbers
without a count (log entry 10). -/
def Obligations.KitchenSettingsApplied : Prop :=
  ∀ (tag : Byte) (s : State), s.port.state = .idle →
    let formed := fun x : Kitchen =>
      { x with active := x.override.getD (if x.online then x.reported.getD x.fallback else x.fallback) }
    let hours := fun o c : Nat => o % 30 = 0 ∧ c % 30 = 0 ∧ o ≤ c ∧ c ≤ 1440
    (∀ c w u l, 16 ≤ c ∨ 255 < w ∨ 63 < u ∨ l = 0 ∨ 4 < l →
      exec (.writeMenuClass tag c w u l) s = .next (s.respond 80 tag .badValue [])) ∧
    (∀ (c : Fin 16) (w u l : Nat), w ≤ 255 → u ≤ 63 → 1 ≤ l → l ≤ 4 →
      exec (.writeMenuClass tag c.val w u l) s =
        .next (({ s with menu := s.menu.set c.val { weight := w, setup := u, lead := l } } : State).respond 80 tag .ok
          (be 1 w ++ be 1 u ++ be 1 l))) ∧
    (∀ n, 8 ≤ n →
      (∀ banks, exec (.writeBanks tag n banks) s = .next (s.respond 81 tag .badKitchen [])) ∧
      (∀ o c f, exec (.writeKitchen tag n o c f) s = .next (s.respond 82 tag .badKitchen [])) ∧
      ∀ v, exec (.setStaffing tag n v) s = .next (s.respond 83 tag .badKitchen [])) ∧
    ∀ k : KitchenNo,
      let x := s.recs.kitchen k
      (∀ banks : Vector Nat 8, (∃ c ∈ banks.toList, 4095 < c) →
        exec (.writeBanks tag k.val banks) s = .next (s.respond 81 tag .badValue [])) ∧
      (∀ banks : Vector Nat 8, (∀ c ∈ banks.toList, c ≤ 4095) → ∃ b : Records,
        exec (.writeBanks tag k.val banks) s = .next ((s.withRecs b).respond 81 tag .ok
          (banks.toList.flatMap (be 2) ++ be 2 banks[x.active.val])) ∧
        s.recs.KitchenReplaced b s.clk k { x with banks := banks }) ∧
      (∀ o c f, 8 ≤ f ∨ ¬ hours o c →
        exec (.writeKitchen tag k.val o c f) s = .next (s.respond 82 tag .badValue [])) ∧
      (∀ (o c : Nat) (f : Fin 8), hours o c → ∃ b : Records,
        let y := formed { x with opens := o, closes := c, fallback := f }
        exec (.writeKitchen tag k.val o c f.val) s = .next ((s.withRecs b).respond 82 tag .ok
          (be 2 o ++ be 2 c ++ be 1 f.val ++ be 1 y.active.val)) ∧
        s.recs.KitchenReplaced b s.clk k y) ∧
      (∀ v, 8 ≤ v → exec (.setStaffing tag k.val (some v)) s = .next (s.respond 83 tag .badValue [])) ∧
      ∀ v : Option (Fin 8), ∃ b : Records,
        let y := formed { x with override := v }
        exec (.setStaffing tag k.val (v.map Fin.val)) s = .next ((s.withRecs b).respond 83 tag .ok
          (optBytes 1 (v.map Fin.val) ++ optBytes 1 (x.reported.map Fin.val) ++ [if x.online then 1 else 0] ++
            be 1 y.active.val)) ∧
        s.recs.KitchenReplaced b s.clk k y

/-- A terminal report taken alone makes the terminal online with the level reported, and a loss makes it offline and
keeps the level; the active level is formed again (R101, R102). A report with the level that an online terminal last
reported changes nothing (R102). That the two rows may be taken alone, and that a report needs an ONLINE terminal node on
a RUNNING line (R158), is log entry 7. -/
def Obligations.TerminalEventsSetLevel : Prop :=
  ∀ (k : KitchenNo) (v : Fin 8) (s : State),
    let x := s.recs.kitchen k
    let report : Instr := .terminalReport { kitchen := k, level := v }
    let formed := fun y : Kitchen =>
      { y with active := y.override.getD (if y.online then y.reported.getD y.fallback else y.fallback) }
    let heard := ∃ (l : LineNo) (n : NodeNo), x.terminal = some (l, n) ∧ (s.recs.line l).running = true ∧
      ((s.recs.line l).node n).kind = .terminal k ∧ ((s.recs.line l).node n).state = .online
    (¬ heard → exec report s = .next s) ∧
    (heard → ∃ b : Records, exec report s = .next { s with recs := b } ∧
      s.recs.KitchenReplaced b s.clk k (formed { x with online := true, reported := some v })) ∧
    (x.Lawful → x.online = true → x.reported = some v → exec report s = .next s) ∧
    ∃ b : Records, exec (.terminalLoss k) s = .next { s with recs := b } ∧
      s.recs.KitchenReplaced b s.clk k (formed { x with online := false })

/-- The window roll of an advance that crosses a window keeps the committed units of the windows at or after the current
one and drops those before it (R110, R111); the CONFIRMED orders whose prep start window has begun join the ticket queue
in the order of R112 and R138, their shares dropped: each window not yet begun loses the units that the dispatched orders
held in it, and when some window has lost units a promotion trigger acts (R112, R114, R116); the waitlisted orders whose
last prep window has begun lapse (R113). During CLEARING only the ring is rolled. The kitchen's waitlist is one of its own
WAITLISTED orders (R115). Without a waiting advance the row changes nothing (log entry 4). -/
def Obligations.WindowRollDispatchesAndLapses : Prop :=
  ∀ (k : KitchenNo) (s : State),
    (s.mail.kluAdvances[k.val] = [] → exec (.windowRoll k) s = .next s) ∧
    ∀ o n rest, s.mail.kluAdvances[k.val] = (o, n) :: rest →
      let b := s.recs
      let x := b.kitchen k
      let w0 := s.clk.minute / 30
      let due := fun (p : SlotNo × Order) => (b.slot p.1).body = .order p.2 ∧ p.2.kitchen = k ∧
        p.2.state = .confirmed ∧ p.2.prepStart ≤ w0
      let late := fun (sl : SlotNo) (y : Order) => sl ∈ x.waitlist ∧ (b.slot sl).body = .order y ∧
        y.delivery / 30 ≤ w0 + 1
      (∀ sl ∈ x.waitlist, ∃ y, (b.slot sl).body = .order y ∧ y.state = .waitlisted ∧ y.kitchen = k) →
      ∃ b' : Records,
        exec (.windowRoll k) s = .next { s with
          recs := b', mail := { s.mail with kluAdvances := s.mail.kluAdvances.set k.val rest } } ∧
        (o / 30 = n / 30 → b' = b) ∧
        (o / 30 ≠ n / 30 →
          (∀ w, w < w0 → (b'.kitchen k).committed w = 0) ∧
          (∀ q : KitchenNo, q ≠ k → b'.kitchen q = b.kitchen q ∧ b'.queue q = b.queue q) ∧
          b'.rooms = b.rooms ∧ b'.lines = b.lines ∧ b'.pool = { b.pool with slots := b'.pool.slots } ∧
          (b.pool.isClearing = true → (∀ w, w0 ≤ w → (b'.kitchen k).committed w = x.committed w) ∧
            { b'.kitchen k with ring := x.ring } = x ∧ b' = { b with kitchens := b'.kitchens }) ∧
          (b.pool.isClearing = false → ∃ l : List (SlotNo × Order),
            (∀ p, p ∈ l ↔ due p) ∧
            l.Pairwise (fun p q => p.2.prepStart < q.2.prepStart ∨ (p.2.prepStart = q.2.prepStart ∧
              (p.2.admission.getD 0 < q.2.admission.getD 0 ∨
                (p.2.admission.getD 0 = q.2.admission.getD 0 ∧ p.1 < q.1)))) ∧
            (b'.queue k).entries =
              (b.queue k).entries ++ l.map (fun p => ({ slot := p.1, asVoid := false } : QueueEntry)) ∧
            (b'.queue k).inFlight = (b.queue k).inFlight ∧
            (∀ p ∈ l, b'.slot p.1 =
              { gen := (b.slot p.1).gen, body := .order { p.2 with state := .queued, shares := [] } }) ∧
            (∀ sl y, late sl y → sl ∉ (b'.kitchen k).waitlist ∧
              b'.slot sl = { gen := (b.slot sl).gen, body := .order { y with state := .lapsed, wait := none } } ∧
              RoomNotice.orderLapsed ∈ b'.notices.rooms[y.room.val]) ∧
            (∀ sl, (∀ y, ¬ late sl y) → (sl ∈ (b'.kitchen k).waitlist ↔ sl ∈ x.waitlist)) ∧
            (∀ sl, (∀ p ∈ l, p.1 ≠ sl) → (∀ y, ¬ late sl y) → b'.slot sl = b.slot sl) ∧
            (∀ w, w0 ≤ w → (∀ p ∈ l, ∀ h ∈ p.2.shares, h.1 % 336 ≠ w % 336) →
              (b'.kitchen k).committed w = x.committed w) ∧
            ((∀ p ∈ l, ∀ h ∈ p.2.shares, h.1 ≤ w0 + 335) →
              let lowered := ∃ w, w0 < w ∧ w ≤ w0 + 335 ∧ (b'.kitchen k).committed w < x.committed w
              let acts := lowered ∧ b.pool.state = .ready ∧ s.clk.state ≠ .unset
              (∀ w, w0 ≤ w → w ≤ w0 + 335 → (b'.kitchen k).committed w =
                x.committed w - if w0 < w then (l.map fun p => p.2.shareIn w).sum else 0) ∧
              { b'.kitchen k with ring := x.ring, waitlist := x.waitlist, pass := x.pass, again := x.again } = x ∧
              (acts → x.pass = .idle → (b'.kitchen k).pass = .promoting none ∧ (b'.kitchen k).again = false) ∧
              (acts → x.pass ≠ .idle → (b'.kitchen k).pass = x.pass ∧ (b'.kitchen k).again = true) ∧
              (¬ acts → (b'.kitchen k).pass = x.pass ∧ (b'.kitchen k).again = x.again))))

/-- A SHEDDING step begins again at w0 + 1 under the restart mark, passes over the windows that have begun, and hands over
to PROMOTING past the last window (R117, R118). Within a window over its capacity it sheds the order of the lowest
class, then the latest admission, then the highest slot, and stays at the window; otherwise it moves to the next. The
order shed releases its share of every window not yet begun (R114) and stands on the waitlist by class, stamp and slot
(R100, R115). A kitchen that is not SHEDDING has no such step (log entry 4). -/
def Obligations.SheddingStepShedsOneOrder : Prop :=
  ∀ (k : KitchenNo) (s : State),
    let b := s.recs
    let x := b.kitchen k
    let w0 := s.clk.minute / 30
    let rank := fun o : Order => (b.orderClass o).rank
    ((∀ c, x.pass ≠ .shedding c) → exec (.sheddingStep k) s = .next s) ∧
    ∀ cursor, x.pass = .shedding cursor →
      let w := max (if x.restart then w0 + 1 else cursor) (w0 + 1)
      let full := x.capacity w < x.committed w
      let may := fun (sl : SlotNo) (o : Order) => (b.slot sl).body = .order o ∧ o.kitchen = k ∧
        o.state = .confirmed ∧ w0 < o.prepStart ∧ 0 < o.shareIn w
      (w0 + 335 < w → ∃ b' : Records, exec (.sheddingStep k) s = .next { s with recs := b' } ∧
        b'.kitchen k = { x with pass := .promoting none, restart := false, again := false } ∧
        (∀ q : KitchenNo, q ≠ k → b'.kitchen q = b.kitchen q) ∧ b' = { b with kitchens := b'.kitchens }) ∧
      (w ≤ w0 + 335 → (¬ full ∨ ∀ sl o, ¬ may sl o) → ∃ b' : Records,
        exec (.sheddingStep k) s = .next { s with recs := b' } ∧
        b'.kitchen k = { x with ring := (b'.kitchen k).ring, pass := .shedding (w + 1), restart := false } ∧
        (∀ v, v = w ∨ v % 336 ≠ w % 336 → (b'.kitchen k).committed v = x.committed v) ∧
        (∀ q : KitchenNo, q ≠ k → b'.kitchen q = b.kitchen q) ∧ b' = { b with kitchens := b'.kitchens }) ∧
      ∀ sl o, w ≤ w0 + 335 → full → may sl o →
        (∀ sl' o', may sl' o' → sl' ≠ sl → rank o' < rank o ∨ (rank o' = rank o ∧
          (o'.admission.getD 0 < o.admission.getD 0 ∨ (o'.admission.getD 0 = o.admission.getD 0 ∧ sl' < sl)))) →
        let stamp := if x.waits < 4294967295 then x.waits + 1 else x.waits
        let o' := { o with state := .waitlisted, shares := [], admission := none, wait := some (stamp, .shed) }
        let before := fun p q : WaitPlace => p.cls.rank < q.cls.rank ∨ (p.cls.rank = q.cls.rank ∧
          (p.stamp < q.stamp ∨ (p.stamp = q.stamp ∧ p.slot < q.slot)))
        ∃ (b' : Records) (front back : List SlotNo),
          exec (.sheddingStep k) s = .next { s with recs := b' } ∧
          b'.slot sl = { gen := (b.slot sl).gen, body := .order o' } ∧
          (∀ y : SlotNo, y ≠ sl → b'.slot y = b.slot y) ∧
          x.waitlist = front ++ back ∧
          b'.kitchen k = { x with ring := (b'.kitchen k).ring, pass := .shedding w, restart := false, waits := stamp,
                                  waitlist := front ++ sl :: back } ∧
          (∀ v, v % 336 ≠ w % 336 → (∀ h ∈ o.shares, h.1 % 336 ≠ v % 336) →
            (b'.kitchen k).committed v = x.committed v) ∧
          ((∀ h ∈ o.shares, h.1 ≤ w0 + 335) → ∀ v, w0 ≤ v → v ≤ w0 + 335 →
            (b'.kitchen k).committed v = x.committed v - if w0 < v then o.shareIn v else 0) ∧
          b'.placeOf sl = { cls := b.orderClass o, stamp := stamp, slot := sl } ∧
          (∀ y ∈ front, ¬ before (b'.placeOf sl) (b'.placeOf y)) ∧
          (∀ y, back.head? = some y → before (b'.placeOf sl) (b'.placeOf y)) ∧
          b'.notices = b.notices.raise (.room o.room .orderShed) ∧
          (∀ q : KitchenNo, q ≠ k → b'.kitchen q = b.kitchen q) ∧
          b' = { b with kitchens := b'.kitchens, pool := { b.pool with slots := b'.pool.slots }
                        notices := b'.notices }

/-- A PROMOTING step under the restart mark begins SHEDDING again; past the last order it begins a new walk under the
again mark or ends; otherwise it examines the first order of the waitlist behind the cursor, which is the one of least
place by class, stamp and slot while the waitlist is in its order (an invariant, StepKeepsPoolLawful): lapsed when no prep
window remains, promoted when its load fits, and else left with the load of this computation (R118, R119, R120). The
windows without a share of that load keep their committed units (R110). The model's choices: a kitchen that is
not PROMOTING has no such step (log entry 4), a first entry behind the cursor whose slot holds no order ends the walk, or
begins a new one under the again mark, as past the last order (log entry 25), the cursor keeps the slot beside class
and stamp (log entry 17), the load is stored when the order does not fit and kept when it lapses (log entry 18). -/
def Obligations.PromotingStepExaminesOneOrder : Prop :=
  ∀ (k : KitchenNo) (s : State),
    let b := s.recs
    let x := b.kitchen k
    let w0 := s.clk.minute / 30
    ((∀ c, x.pass ≠ .promoting c) → exec (.promotingStep k) s = .next s) ∧
    ∀ cursor, x.pass = .promoting cursor →
      let before := fun p q : WaitPlace => p.cls.rank < q.cls.rank ∨ (p.cls.rank = q.cls.rank ∧
        (p.stamp < q.stamp ∨ (p.stamp = q.stamp ∧ p.slot < q.slot)))
      let behind := fun y : SlotNo => ∀ p, cursor = some p → before p (b.placeOf y)
      let only := fun y : Kitchen => ∃ b' : Records, exec (.promotingStep k) s = .next { s with recs := b' } ∧
        b'.kitchen k = y ∧ (∀ q : KitchenNo, q ≠ k → b'.kitchen q = b.kitchen q) ∧
        b' = { b with kitchens := b'.kitchens }
      (x.restart = true → only { x with pass := .shedding (w0 + 1), restart := false }) ∧
      (x.restart = false →
        ((∀ y ∈ x.waitlist, ¬ behind y) ∨ ∃ front sl back, x.waitlist = front ++ sl :: back ∧
          (∀ y ∈ front, ¬ behind y) ∧ behind sl ∧ ∀ o, (b.slot sl).body ≠ .order o) →
        only (if x.again then { x with pass := .promoting none, again := false } else { x with pass := .idle })) ∧
      ∀ front sl back o, x.restart = false → x.waitlist = front ++ sl :: back → (∀ y ∈ front, ¬ behind y) →
        behind sl → (b.slot sl).body = .order o → o.kitchen = k → s.menu[o.menuClass.val].lead ≤ 4 →
        (x.waitlist.Pairwise (fun y z => before (b.placeOf y) (b.placeOf z)) →
          ∀ y ∈ x.waitlist, behind y → y ≠ sl → before (b.placeOf sl) (b.placeOf y)) ∧
        let load := computeLoad s.menu[o.menuClass.val] o.headcount o.delivery w0
        let fits := fun y : Load => ∀ p ∈ y.shares, p.2 = 0 ∨ x.committed p.1 + p.2 ≤ x.capacity p.1
        let stamp := if x.admissions < 4294967295 then x.admissions + 1 else x.admissions
        let off := x.waitlist.filter fun y => decide (y ≠ sl)
        let place := PassState.promoting (some (b.placeOf sl))
        ∃ (b' : Records) (o' : Order),
          exec (.promotingStep k) s = .next { s with recs := b' } ∧
          b'.slot sl = { gen := (b.slot sl).gen, body := .order o' } ∧
          (∀ y : SlotNo, y ≠ sl → b'.slot y = b.slot y) ∧
          (∀ q : KitchenNo, q ≠ k → b'.kitchen q = b.kitchen q) ∧
          b' = { b with kitchens := b'.kitchens, pool := { b.pool with slots := b'.pool.slots }
                        notices := b'.notices } ∧
          (load = none → o' = { o with state := .lapsed, wait := none } ∧
            b'.kitchen k = { x with pass := place, waitlist := off } ∧
            b'.notices = b.notices.raise (.room o.room .orderLapsed)) ∧
          (∀ y, load = some y → fits y →
            o' = { o with state := .confirmed, load := y.units, shares := y.shares, prepStart := y.prepStart,
                          admission := some stamp, wait := none } ∧
            b'.kitchen k = { x with pass := place, waitlist := off, admissions := stamp
                                    ring := (b'.kitchen k).ring } ∧
            (∀ p ∈ y.shares, (b'.kitchen k).committed p.1 = x.committed p.1 + p.2) ∧
            (∀ v, (∀ p ∈ y.shares, p.1 % 336 ≠ v % 336) → (b'.kitchen k).committed v = x.committed v) ∧
            b'.notices = b.notices.raise (.room o.room .orderPromoted)) ∧
          (∀ y, load = some y → ¬ fits y → o' = { o with load := y.units, prepStart := y.prepStart } ∧
            b'.kitchen k = { x with pass := place, ring := (b'.kitchen k).ring } ∧
            (∀ p ∈ y.shares, (b'.kitchen k).committed p.1 = x.committed p.1) ∧
            (∀ v, (∀ p ∈ y.shares, p.1 % 336 ≠ v % 336) → (b'.kitchen k).committed v = x.committed v) ∧
            b'.notices = b.notices)

/-! ## Orders -/

/-- ORDER is refused with NOT_READY while the pool is not READY (R23; while CLEARING it is the model's choice, log entry
20), with CLOCK_UNSET while the clock is UNSET (R2), and with the refusal of R53 (HandlesAreChecked says which), the
records as the bringing up to date left them. For a booking that passed R53 it judges checks 6 to 12 of R129 in order;
the claim of the slot is refused with POOL_EMPTY on a free count of 0 and with POOL_LOW by the reserve rule (R19).
Otherwise it creates the order at the tail of the annex chain: CONFIRMED with its shares when the pass engine is IDLE and the load fits (R109),
otherwise WAITLISTED, with reason PASS and the again mark while a pass is in flight, at its place by class, stamp and slot
(R100, R115, R131). The windows without a share of its load keep their committed units (R110). The shares and the
waitlist reason travel as items that may be absent (log entry 10). -/
def Obligations.OrderPlaced : Prop :=
  ∀ (tag : Byte) (h : Handle) (mc hc d : Nat) (s : State), s.port.state = .idle →
    let answered := fun (b : Records) (st : Status) =>
      exec (.order tag h mc hc d) s = .next ((s.withRecs b).respond 96 tag st [])
    (s.recs.pool.state ≠ .ready → answered s.recs .notReady) ∧
    (s.recs.pool.state = .ready → s.clk.state = .unset → answered s.recs .clockUnset) ∧
    (∀ b st, s.recs.pool.state = .ready → s.clk.state ≠ .unset → s.recs.nameBooking s.clk h = (b, .error st) →
      answered b st) ∧
    ∀ (b : Records) (owner : SlotNo) (k : Booking), s.recs.pool.state = .ready → s.clk.state ≠ .unset →
      s.recs.nameBooking s.clk h = (b, .ok (owner, k)) →
      let refused := answered b
      let w0 := s.clk.minute / 30
      let dd := d / 5 * 5
      let supplied := if hc = 0 then k.attendees else hc
      (k.state = .held → refused .wrongState) ∧
      (k.state ≠ .held → 16 ≤ mc → refused .badValue) ∧
      (k.state ≠ .held → mc < 16 → (b.room k.room).attrs.kitchen = none → refused .badKitchen) ∧
      ∀ (m : Fin 16) (kt : KitchenNo), k.state ≠ .held → mc = m.val → (b.room k.room).attrs.kitchen = some kt →
        let x := b.kitchen kt
        let load := computeLoad s.menu[m.val] (min supplied 250) dd w0
        let timely := d ≤ 16777215 ∧ dd / 30 ≤ w0 + 335 ∧ k.start ≤ dd + 30 ∧ dd < k.stop
        (x.terminal = none → refused .noTerminal) ∧
        (x.terminal ≠ none → 4 ≤ k.annex.length → refused .limit) ∧
        (x.terminal ≠ none → k.annex.length < 4 →
          (16777215 < d → refused .badTime) ∧
          (d ≤ 16777215 → w0 + 335 < dd / 30 → refused .horizon) ∧
          (d ≤ 16777215 → dd / 30 ≤ w0 + 335 → dd + 30 < k.start ∨ k.stop ≤ dd → refused .badTime) ∧
          (timely → load = none → refused .tooLate) ∧
          (∀ y, timely → load = some y → b.pool.freeCount ≠ 0 → b.pool.freeCount ≤ b.pool.floor →
            k.cls ≠ .executive → refused .poolLow) ∧
          (∀ y, timely → load = some y → b.pool.freeCount = 0 → refused .poolEmpty) ∧
          ∀ (y : Load) (sl : SlotNo) (rest : List SlotNo), timely → load = some y → b.pool.state = .ready →
            b.pool.freeList = sl :: rest → b.pool.freeCount ≠ 0 →
            (b.pool.floor < b.pool.freeCount ∨ k.cls = .executive) → (b.slot sl).body = .free →
            s.menu[m.val].lead ≤ 4 →
            let fits := ∀ p ∈ y.shares, p.2 = 0 ∨ x.committed p.1 + p.2 ≤ x.capacity p.1
            let admission := if x.admissions < 4294967295 then x.admissions + 1 else x.admissions
            let wait := if x.waits < 4294967295 then x.waits + 1 else x.waits
            let before := fun p q : WaitPlace => p.cls.rank < q.cls.rank ∨ (p.cls.rank = q.cls.rank ∧
              (p.stamp < q.stamp ∨ (p.stamp = q.stamp ∧ p.slot < q.slot)))
            ∃ (b' : Records) (o : Order),
              exec (.order tag h mc hc d) s = .next ((s.withRecs b').respond 96 tag
                (if o.state = .waitlisted then .waitlisted else if 250 < supplied then .clamped else .ok)
                (b'.orderedPayload sl o)) ∧
              o = { owner := some h, room := k.room, kitchen := kt, menuClass := m, headcount := min supplied 250,
                    delivery := dd, load := y.units, prepStart := y.prepStart, shares := o.shares,
                    admission := o.admission, wait := o.wait, state := o.state } ∧
              b'.slot sl = { gen := (b.slot sl).gen, body := .order o } ∧
              b'.slot owner = { gen := (b.slot owner).gen, body := .booking { k with annex := k.annex ++ [sl] } } ∧
              (∀ q : SlotNo, q ≠ sl → q ≠ owner → b'.slot q = b.slot q) ∧
              b'.pool.freeList = rest ∧ b'.pool.freeCount = b.pool.freeCount - 1 ∧
              b'.rooms = b.rooms ∧ b'.lines = b.lines ∧ b'.queues = b.queues ∧
              b'.notices = (if b.pool.lowArmed = true ∧ b.pool.freeCount - 1 = b.pool.floor then
                b.notices.raise (.part .poolLow) else b.notices) ∧
              (∀ q : KitchenNo, q ≠ kt → b'.kitchen q = b.kitchen q) ∧
              (∀ v, (∀ p ∈ y.shares, p.1 % 336 ≠ v % 336) → (b'.kitchen kt).committed v = x.committed v) ∧
              (x.pass = .idle → fits →
                o.state = .confirmed ∧ o.shares = y.shares ∧ o.admission = some admission ∧ o.wait = none ∧
                b'.kitchen kt = { x with ring := (b'.kitchen kt).ring, admissions := admission } ∧
                ∀ p ∈ y.shares, (b'.kitchen kt).committed p.1 = x.committed p.1 + p.2) ∧
              (¬ (x.pass = .idle ∧ fits) →
                o.state = .waitlisted ∧ o.shares = [] ∧ o.admission = none ∧
                o.wait = some (wait, if x.pass = .idle then .noFit else .pass) ∧
                ∃ front back : List SlotNo, x.waitlist = front ++ back ∧
                  b'.placeOf sl = { cls := k.cls, stamp := wait, slot := sl } ∧
                  (∀ y ∈ front, ¬ before (b'.placeOf sl) (b'.placeOf y)) ∧
                  (∀ y, back.head? = some y → before (b'.placeOf sl) (b'.placeOf y)) ∧
                  b'.kitchen kt = { x with
                    ring := (b'.kitchen kt).ring, again := x.again || decide (x.pass ≠ .idle), waits := wait
                    waitlist := front ++ sl :: back } ∧
                  ∀ p ∈ y.shares, (b'.kitchen kt).committed p.1 = x.committed p.1))

/-- AMEND_ORDER and CANCEL_ORDER are refused with NOT_READY while the pool is not READY (R23; while CLEARING it is the
model's choice, log entry 20), with CLOCK_UNSET while the clock is UNSET (R2), and with the refusals of naming an order
(HandlesAreChecked says which). AMEND_ORDER of an order whose owner lives judges checks 7 to 12 of R133 in order; a WAITLISTED order takes the new
load and a promotion trigger, a CONFIRMED one replaces its load when the new one fits without the old, with a promotion
trigger when the committed units of some window have fallen, and is otherwise refused with nothing changed (R110, R114,
R116, R134). CANCEL_ORDER takes the order out of its owner's annex chain and settles it,
answering 0 when it was freed and 1 when it was made VOIDING (R135; the two bytes: log entry 10). A NO_FIT refusal touches
no ring entry (log entry 19). -/
def Obligations.OrderAmendedOrCancelled : Prop :=
  ∀ (tag : Byte) (h : Handle) (s : State), s.port.state = .idle →
    let every := fun st => exec (.cancelOrder tag h) s = .next (s.respond 98 tag st []) ∧
      ∀ a : AmendOrderArgs, a.handle = h → exec (.amendOrder tag a) s = .next (s.respond 97 tag st [])
    (s.recs.pool.state ≠ .ready → every .notReady) ∧
    (s.recs.pool.state = .ready → s.clk.state = .unset → every .clockUnset) ∧
    (s.recs.pool.state = .ready → s.clk.state ≠ .unset →
      (∀ b st, s.recs.nameOrder s.clk h false = (b, .error st) →
        exec (.cancelOrder tag h) s = .next ((s.withRecs b).respond 98 tag st [])) ∧
      (∀ b sl o, s.recs.nameOrder s.clk h false = (b, .ok (sl, o)) → ∃ b0 : Records,
        let t := b0.settleOrder s.clk sl
        exec (.cancelOrder tag h) s =
          .next ((s.withRecs t.1).respond 98 tag .ok [if t.2 = .freed then 0 else 1]) ∧
        ∀ (g : Handle) (owner : SlotNo) (k : Booking), o.owner = some g → g.slot = owner.val →
          (b.slot owner).body = .booking k →
          b0 = b.setBody owner (.booking { k with annex := k.annex.filter fun y => decide (y ≠ sl) })) ∧
      ∀ (a : AmendOrderArgs), a.handle = h →
        (∀ b st, s.recs.nameOrder s.clk h true = (b, .error st) →
          exec (.amendOrder tag a) s = .next ((s.withRecs b).respond 97 tag st [])) ∧
        ∀ (b : Records) (sl : SlotNo) (o : Order) (g : Handle) (owner : SlotNo) (k : Booking),
          s.recs.nameOrder s.clk h true = (b, .ok (sl, o)) → o.owner = some g → g.slot = owner.val →
          (b.slot owner).body = .booking k →
          let refused := fun st => exec (.amendOrder tag a) s = .next ((s.withRecs b).respond 97 tag st [])
          let w0 := s.clk.minute / 30
          let x := b.kitchen o.kitchen
          let open7 := o.state = .waitlisted ∨ (o.state = .confirmed ∧ w0 < o.prepStart)
          let mc := a.menuClass.getD o.menuClass.val
          let dd := (a.delivery.map fun m => m / 5 * 5).getD o.delivery
          let supplied := a.headcount.elim o.headcount fun n => if n = 0 then k.attendees else n
          let heads := if a.headcount.isSome then min supplied 250 else o.headcount
          let clamped := a.headcount.isSome = true ∧ 250 < supplied
          (¬ open7 → refused .wrongState) ∧
          (open7 → x.pass ≠ .idle → refused .passBusy) ∧
          (open7 → x.pass = .idle → 16 ≤ mc → refused .badValue) ∧
          ∀ m : Fin 16, open7 → x.pass = .idle → mc = m.val →
            let load := computeLoad s.menu[m.val] heads dd w0
            let supplyOk := ∀ v, a.delivery = some v → v ≤ 16777215
            let timely := supplyOk ∧ dd / 30 ≤ w0 + 335 ∧ k.start ≤ dd + 30 ∧ dd < k.stop
            (¬ supplyOk → refused .badTime) ∧
            (supplyOk → w0 + 335 < dd / 30 → refused .horizon) ∧
            (supplyOk → dd / 30 ≤ w0 + 335 → dd + 30 < k.start ∨ k.stop ≤ dd → refused .badTime) ∧
            (timely → load = none → refused .tooLate) ∧
            ∀ y, timely → load = some y →
              let o' := { o with headcount := heads, menuClass := m, delivery := dd, load := y.units,
                                 prepStart := y.prepStart }
              (o.state = .waitlisted → ∃ b' : Records,
                exec (.amendOrder tag a) s =
                  .next ((s.withRecs b').respond 97 tag .waitlisted (b'.orderPayload sl o')) ∧
                b'.slot sl = { gen := (b.slot sl).gen, body := .order o' } ∧
                (∀ q : SlotNo, q ≠ sl → b'.slot q = b.slot q) ∧
                (∀ q : KitchenNo, q ≠ o.kitchen → b'.kitchen q = b.kitchen q) ∧
                (b.pool.state = .ready → b'.kitchen o.kitchen = { x with pass := .promoting none, again := false }) ∧
                b' = { b with kitchens := b'.kitchens, pool := { b.pool with slots := b'.pool.slots } }) ∧
              (o.state = .confirmed →
                let without := x.subShares w0 o.shares
                let fits := ∀ p ∈ y.shares, p.2 = 0 ∨ without.committed p.1 + p.2 ≤ x.capacity p.1
                (¬ fits → refused .noFit) ∧
                (fits → s.menu[m.val].lead ≤ 4 → ∃ b' : Records,
                  let o'' := { o' with shares := y.shares }
                  exec (.amendOrder tag a) s = .next ((s.withRecs b').respond 97 tag
                    (if clamped then .clamped else .ok) (b'.orderPayload sl o'')) ∧
                  b'.slot sl = { gen := (b.slot sl).gen, body := .order o'' } ∧
                  (∀ q : SlotNo, q ≠ sl → b'.slot q = b.slot q) ∧
                  (∀ q : KitchenNo, q ≠ o.kitchen → b'.kitchen q = b.kitchen q) ∧
                  (∀ p ∈ y.shares, (b'.kitchen o.kitchen).committed p.1 = without.committed p.1 + p.2) ∧
                  (∀ v, (∀ p ∈ y.shares, p.1 % 336 ≠ v % 336) →
                    (b'.kitchen o.kitchen).committed v = without.committed v) ∧
                  { b'.kitchen o.kitchen with ring := x.ring, pass := x.pass, again := x.again } = x ∧
                  ((∀ q ∈ o.shares, q.1 ≤ w0 + 335) →
                    let lowered := ∃ v, w0 < v ∧ v ≤ w0 + 335 ∧ (b'.kitchen o.kitchen).committed v < x.committed v
                    let acts := lowered ∧ b.pool.state = .ready
                    (∀ v, w0 ≤ v → v ≤ w0 + 335 →
                      without.committed v = x.committed v - if w0 < v then o.shareIn v else 0) ∧
                    (acts → (b'.kitchen o.kitchen).pass = .promoting none ∧ (b'.kitchen o.kitchen).again = false) ∧
                    (¬ acts → (b'.kitchen o.kitchen).pass = x.pass ∧ (b'.kitchen o.kitchen).again = x.again)) ∧
                  b' = { b with kitchens := b'.kitchens, pool := { b.pool with slots := b'.pool.slots } })))

/-! ## Pages, ticket frames, lines and nodes -/

/-- The page of a panel: its status is the first of R163 that holds, its free-until minute that of R165, its entries none in
STANDBY and else the first two or four bookings of the living view with start, end, title, checked-in and held, the title
of a HELD booking being "HELD" (R166); and while the clock is RUNNING the time-change minute is exactly the first
minute after now, within the campus range, at which the page would differ through time alone (R168). The free-until
minute is formed exactly, as an integer (log entry 23); that "HELD" is filled with twelve spaces to the 16 characters of
a title is log entry 10. -/
def Obligations.PageFollowsStatusAndTime : Prop :=
  ∀ (b : Records) (c : Clock) (r : RoomNo) (compact : Bool),
    let now := c.minute
    let st := b.pageStatus c r
    let l := b.livingView now r
    let shown := fun u : BookingState => ∃ x ∈ l, reportedState c (b.room x.chainRoom).attrs x.booking = u
    let recent := ∃ q ∈ b.viewRooms r, ∃ p, (b.room q).lastRelease = some p ∧
      (p.1 = .noShow ∨ p.1 = .vacated ∨ p.1 = .doorRelease) ∧ now < p.2 + 10
    let turning := ∃ q ∈ b.conflictSet r, ∃ t, (b.room q).turnaround = some t ∧ now < t
    let open' := c.state ≠ .unset ∧ (b.room r).service = .inService
    let page := fun m => b.pageBody { c with minute := m } r compact
    (c.state = .unset → st = .standby) ∧
    (c.state ≠ .unset → (b.room r).service ≠ .inService → st = .closed) ∧
    (open' → shown .inUse → st = .inUse) ∧
    (open' → ¬ shown .inUse → shown .arriving → st = .arriving) ∧
    (open' → ¬ shown .inUse → ¬ shown .arriving → recent → st = .releasedRecent) ∧
    (open' → ¬ shown .inUse → ¬ shown .arriving → ¬ recent → turning → st = .turnaround) ∧
    (open' → ¬ shown .inUse → ¬ shown .arriving → ¬ recent → ¬ turning → st = .free) ∧
    (page now).status = st ∧ (page now).entries.length ≤ (if compact then 2 else 4) ∧
    (st = .standby → (page now).entries = []) ∧
    (st ≠ .standby → (page now).entries = (l.take (if compact then 2 else 4)).map fun x =>
      { start := x.booking.start, stop := x.booking.stop, checkedIn := x.booking.checkedIn
        held := decide (x.booking.state = .held)
        title := if x.booking.state = .held then
            #v[72, 69, 76, 68, 32, 32, 32, 32, 32, 32, 32, 32, 32, 32, 32, 32]
          else x.booking.title }) ∧
    (∀ m : Int, (page now).freeUntil = some m ↔ (st = .free ∨ st = .releasedRecent) ∧
      ∃ x, l.head? = some x ∧ x.booking.start ≤ now + 1440 ∧
        m = (x.booking.start : Int) - (max (b.room r).attrs.gap (b.room x.chainRoom).attrs.gap : Nat)) ∧
    (c.state ≠ .running → b.timeChange c r compact = none) ∧
    (c.state = .running → ∀ m, b.timeChange c r compact = some m ↔
      now < m ∧ m ≤ 16777215 ∧ page m ≠ page now ∧ ∀ m', now < m' → m' < m → page m' = page now)

/-- The settlement of the frame in flight for the head of a ticket queue, by an answer (R141) and by a loss (R142), and
the order reports of a terminal (R143). A frame in flight whose handle names no living record at the head of the queue is
cleared and nothing else changes (R26, R141, R142). A report whose handle names no living order, for its kind, a slot
outside the pool, a FREE slot, a slot of a booking or another generation, has no effect (R18, R143, R185). A record that becomes a void joins behind the last void that waits (R139; log
entry 29). -/
def Obligations.TicketFramesSettled : Prop :=
  ∀ (b : Records) (k : KitchenNo),
    let q := b.queue k
    let named := fun (h : Handle) (sl : SlotNo) =>
      h = { kind := 2, gen := (b.slot sl).gen, slot := sl.val } ∧ ∃ o, (b.slot sl).body = .order o
    (∀ (h : Handle) (sent : Bool), q.inFlight = some (h, sent) →
      (∀ e, q.entries.head? = some e → ¬ named h e.slot) →
      let cleared : Records := { b with queues := b.queues.set k.val { q with inFlight := none } }
      b.settleAnswer k = cleared ∧ b.settleLoss k = cleared) ∧
    (∀ (kind : Byte) (h : Handle), (∀ sl, ¬ named h sl) → b.takeReport k { kind := kind, handle := h } = b) ∧
    ∀ (sl : SlotNo) (o : Order), (b.slot sl).body = .order o →
      let name : Handle := { kind := 2, gen := (b.slot sl).gen, slot := sl.val }
      let others := fun b' : Records => b'.rooms = b.rooms ∧ b'.kitchens = b.kitchens ∧ b'.lines = b.lines ∧
        (∀ y : SlotNo, y ≠ sl → b'.slot y = b.slot y) ∧ ∀ p : KitchenNo, p ≠ k → b'.queue p = b.queue p
      let gone := fun b' : Records => b'.slot sl = { gen := (b.slot sl).gen + 1, body := .free } ∧
        b'.pool.freeList = sl :: b.pool.freeList
      let rest := q.entries.filter fun e => decide (e.slot ≠ sl)
      (∀ sent : Bool, q.entries.head?.map (fun e => e.slot) = some sl → q.inFlight = some (name, sent) →
        let t := b.settleAnswer k
        let u := b.settleLoss k
        others t ∧ others u ∧ t.notices = b.notices ∧ u.notices = b.notices ∧
        (t.queue k).inFlight = none ∧ (u.queue k).inFlight = none ∧
        (sent = true → o.state = .voiding → gone t ∧ (t.queue k).entries = rest) ∧
        (sent = false → o.state = .queued → (t.queue k).entries = rest ∧ t.pool.freeList = b.pool.freeList ∧
          t.slot sl = { gen := (b.slot sl).gen, body := .order { o with state := .ticketed } }) ∧
        (sent = false → o.state = .voiding → t.pool = b.pool ∧ ∃ front back : List QueueEntry, rest = front ++ back ∧
          (t.queue k).entries = front ++ { slot := sl, asVoid := true } :: back ∧
          (∀ e ∈ back, e.asVoid = false) ∧ ∀ e, front.getLast? = some e → e.asVoid = true) ∧
        (sent = true → u.pool = b.pool ∧ (u.queue k).entries = q.entries) ∧
        (sent = false → o.state = .voiding → gone u ∧ (u.queue k).entries = rest) ∧
        (sent = false → o.state ≠ .voiding → u.pool = b.pool ∧ (u.queue k).entries = q.entries)) ∧
      (q.inFlight = none → b.settleAnswer k = b ∧ b.settleLoss k = b) ∧
      (∀ (kind : Byte) (h : Handle), h ≠ name → h.slot = sl.val → b.takeReport k { kind := kind, handle := h } = b) ∧
      ∀ kind : Byte,
        let t := b.takeReport k { kind := kind, handle := name }
        (o.kitchen ≠ k → t = b) ∧
        (o.kitchen = k →
          (kind = 1 → o.state = .ticketed → t = b.setBody sl (.order { o with state := .accepted })) ∧
          (kind = 2 → o.state = .ticketed ∨ o.state = .accepted →
            t = (b.setBody sl (.order { o with state := .done })).raise (.room o.room .orderDone)) ∧
          (¬ (kind = 1 ∧ o.state = .ticketed) → ¬ (kind = 2 ∧ (o.state = .ticketed ∨ o.state = .accepted)) → t = b))

/-- SET_LINE writes timeout and refresh limit, marks the pages at or above the limit stale, and makes the line enter the
state (R148); a line entering RUNNING begins its sweeps anew. A line that enters DISABLED (R149), or is restarted
(R150), abandons its visit as a loss of the frame, and its nodes become UNKNOWN with no misses, its panels stale without
a pending result; the kitchen of each ONLINE terminal takes the terminal loss in the same event (R102, R158).
The order of the items of the SET_LINE response is log entry 10; that disabling leaves the sweep count as it was is log
entry 36. -/
def Obligations.LineCommandsApplied : Prop :=
  ∀ (tag : Byte) (s : State), s.port.state = .idle →
    (∀ n st tm rf, 4 ≤ n →
      exec (.setLine tag n st tm rf) s = .next (s.respond 112 tag .badValue []) ∧
      exec (.restartLine tag n) s = .next (s.respond 113 tag .badValue [])) ∧
    ∀ l : LineNo,
      let ln := s.recs.line l
      let cleared := ln.nodes.map fun x =>
        { x with state := .unknown, misses := 0, stale := x.stale || x.isPanel
                 pendingResult := if x.isPanel then none else x.pendingResult
                 carried := if x.isPanel then false else x.carried }
      let settled : Records :=
        match ln.visit with
        | some v =>
          match (ln.node v.node).kind with
          | .terminal k => s.recs.settleLoss k
          | _ => s.recs
        | none => s.recs
      let formed := fun y : Kitchen =>
        { y with active := y.override.getD (if y.online then y.reported.getD y.fallback else y.fallback) }
      let lost := fun k : KitchenNo => ∃ n : NodeNo, (ln.node n).kind = .terminal k ∧ (ln.node n).state = .online
      let abandoned := fun t : State =>
        t.recs = { settled with lines := t.recs.lines, kitchens := t.recs.kitchens, notices := t.recs.notices } ∧
        t.mail = s.mail ∧
        (∀ k : KitchenNo, (¬ lost k → t.recs.kitchen k = s.recs.kitchen k) ∧
          (lost k → ∃ b : Records,
            settled.KitchenReplaced b s.clk k (formed { s.recs.kitchen k with online := false }) ∧
            t.recs.kitchen k = b.kitchen k) ∧
          ∀ z, z ∈ t.recs.notices.kitchens[k.val] ↔ z ∈ s.recs.notices.kitchens[k.val] ∨
            (z = .levelChanged ∧ lost k ∧ (t.recs.kitchen k).active ≠ (s.recs.kitchen k).active)) ∧
        t.recs.notices.rooms = s.recs.notices.rooms ∧ t.recs.notices.part = s.recs.notices.part ∧
        t.recs.notices.masks = s.recs.notices.masks
      let quiet := fun t : State => t.mail = s.mail ∧ t.recs = { s.recs with lines := t.recs.lines }
      let frame := fun t : State => t = { s with recs := t.recs, mail := t.mail } ∧
        ∀ m : LineNo, m ≠ l → t.recs.line m = s.recs.line m
      (∃ t : State,
        exec (.restartLine tag l.val) s = .next (t.respond 113 tag .ok (t.recs.line l).payload) ∧ frame t ∧
        abandoned t ∧ t.recs.line l =
          { ln with visit := none, sweepPos := none, nodes := cleared
                    sweepCount := if ln.running then 0 else ln.sweepCount }) ∧
      ∀ st tm rf : Nat,
        (1 < st ∨ tm = 0 ∨ 20 < tm ∨ rf < 10 ∨ 110 < rf →
          exec (.setLine tag l.val st tm rf) s = .next (s.respond 112 tag .badValue [])) ∧
        (st ≤ 1 → 1 ≤ tm → tm ≤ 20 → 10 ≤ rf → rf ≤ 110 → ∃ t : State,
          let marked := ln.nodes.map fun x => { x with stale := x.stale || (x.isPanel && decide (rf ≤ x.age)) }
          exec (.setLine tag l.val st tm rf) s = .next (t.respond 112 tag .ok (t.recs.line l).payload) ∧ frame t ∧
          ((ln.running = true ↔ st = 1) → quiet t ∧
            t.recs.line l = { ln with timeout := tm, refresh := rf, nodes := marked }) ∧
          (ln.running = false → st = 1 → quiet t ∧ t.recs.line l =
            { ln with timeout := tm, refresh := rf, nodes := marked, running := true, sweepCount := 0
                      sweepPos := none }) ∧
          (ln.running = true → st = 0 → abandoned t ∧ t.recs.line l =
            { ln with timeout := tm, refresh := rf, nodes := cleared, running := false, visit := none
                      sweepPos := none }))

/-- WRITE_NODE of a DISABLED line makes the checks of R151 in their order and writes the node anew, UNKNOWN and without
misses, a PANEL node stale; a kitchen that gains or loses its TERMINAL node has its terminal field written, its reported
level made absent and its active level formed again (R102, R147, R151). The coding of the response's items is
log entry 10. -/
def Obligations.NodeWritten : Prop :=
  ∀ (tag : Byte) (line node kind target : Nat) (s : State), s.port.state = .idle →
    let refused := fun st => exec (.writeNode tag line node kind target) s = .next (s.respond 114 tag st [])
    (4 ≤ line → refused .badValue) ∧
    (line < 4 → node = 0 ∨ 100 < node → refused .badNode) ∧
    ∀ (l : LineNo) (n : NodeNo), line = l.val → node = n.val + 1 →
      let ln := s.recs.line l
      let old := (ln.node n).kind
      (2 < kind → refused .badValue) ∧
      (kind ≤ 2 → ln.running = true → refused .lineRunning) ∧
      (kind = 1 → ln.running = false → 384 ≤ target → refused .badRoom) ∧
      (∀ r : RoomNo, kind = 1 → ln.running = false → target = r.val →
        (s.recs.room r).service = .undefined ∨ (s.recs.room r).attrs.members ≠ none → refused .badRoom) ∧
      (kind = 2 → ln.running = false → 8 ≤ target → refused .badKitchen) ∧
      ∀ k : NodeKind, ln.running = false →
        (match k with
          | .unused => kind = 0
          | .panel r => kind = 1 ∧ target = r.val ∧ (s.recs.room r).service ≠ .undefined ∧
              (s.recs.room r).attrs.members = none
          | .terminal q => kind = 2 ∧ target = q.val) →
        let elsewhere := k ≠ .unused ∧
          ∃ (l' : LineNo) (n' : NodeNo), ¬ (l' = l ∧ n' = n) ∧ ((s.recs.line l').node n').kind = k
        let held := ∃ q, old = .terminal q ∧ k ≠ old ∧ (s.recs.queue q).entries ≠ []
        let shows : Bool :=
          match k with
          | .panel _ => true
          | _ => false
        let fresh : Node :=
          { kind := k, state := .unknown, misses := 0, stale := shows, age := 0, pendingResult := none,
            carried := false, compact := false, timeChange := none }
        (elsewhere ∨ held → refused .nodeInUse) ∧
        (¬ elsewhere → ¬ held → ∃ b : Records,
          exec (.writeNode tag line node kind target) s =
            .next ((s.withRecs b).respond 114 tag .ok (b.nodePayload l n)) ∧
          b.line l = { ln with nodes := ln.nodes.set n.val fresh } ∧
          (∀ m : LineNo, m ≠ l → b.line m = s.recs.line m) ∧
          b = { s.recs with lines := b.lines, kitchens := b.kitchens, notices := b.notices } ∧
          (∀ q : KitchenNo, old ≠ .terminal q → k ≠ .terminal q → b.kitchen q = s.recs.kitchen q) ∧
          ∀ q : KitchenNo, old = .terminal q ∨ k = .terminal q →
            let x := s.recs.kitchen q
            (b.kitchen q).terminal = (if k = .terminal q then some (l, n) else none) ∧
            (b.kitchen q).reported = none ∧ (b.kitchen q).active = x.override.getD x.fallback ∧
            { b.kitchen q with terminal := x.terminal, reported := x.reported, active := x.active, pass := x.pass
                               restart := x.restart } = x)

/-- VISIT_START on a RUNNING line without a visit visits the lowest node above the sweep position that is due in the
present sweep, or else the lowest due in the first later sweep that has one; a SILENT node is due only in a sweep
counted 0 (R153). A stale PANEL node is sent its page, its stale flag cleared and its snapshot written (R154, R162,
R168); another PANEL node a POLL; a TERMINAL node the frame of R140. The bytes of a minute that a page does not give are
log entry 38. -/
def Obligations.VisitsBegin : Prop :=
  ∀ (l : LineNo) (s : State),
    let b := s.recs
    let ln := b.line l
    let now := s.clk.minute
    (ln.running = false ∨ ln.visit ≠ none ∨ (∀ n : NodeNo, (ln.node n).kind = .unused) →
      exec (.visitStart l) s = .next s) ∧
    ∀ (n : NodeNo) (j : Nat), ln.running = true → ln.visit = none → ln.sweepCount ≤ 7 → j ≤ 8 →
      let due := fun (i : Nat) (m : NodeNo) => (∀ p, i = 0 → ln.sweepPos = some p → p < m) ∧
        (ln.node m).kind ≠ .unused ∧ ((ln.node m).state ≠ .silent ∨ (ln.sweepCount + i) % 8 = 0)
      (∀ i m, i < j → ¬ due i m) → due j n → (∀ m, m < n → ¬ due j m) →
      let x := ln.node n
      let address := BitVec.ofNat 8 (n.val + 1)
      let visited := fun (kind : FrameKind) (payload : List Byte) =>
        { ln with
          sweepCount := (ln.sweepCount + j) % 8, sweepPos := some n
          visit := some { node := n, frame := kind, timeout := ln.timeout }
          sent := sealFrame address (kind.byte :: be 2 payload.length ++ payload) }
      ∃ b' : Records,
        exec (.visitStart l) s = .next { s with recs := b' } ∧
        (∀ m : LineNo, m ≠ l → b'.line m = b.line m) ∧
        b' = { b with rooms := b'.rooms, queues := b'.queues, lines := b'.lines } ∧
        (∀ r, x.kind = .panel r → x.stale = false → b'.line l = visited .poll [] ∧ b' = { b with lines := b'.lines }) ∧
        (∀ r, x.kind = .panel r → x.stale = true →
          let b1 : Records := { b with rooms := b'.rooms }
          let a := (b.room r).attrs
          b'.queues = b.queues ∧
          (∀ q : RoomNo, b'.room q = if q ∈ b.conflictSet r then
              { b.room q with turnaround := (b.room q).turnaround.filter fun t => decide (now < t) }
            else b.room q) ∧
          b'.line l =
            { visited .page (pagePayload a.name now (b1.pageBody s.clk r a.compact) x.pendingResult) with
              nodes := ln.nodes.set n.val
                { x with stale := false, compact := a.compact, timeChange := b1.timeChange s.clk r a.compact
                         carried := x.pendingResult.isSome } }) ∧
        ∀ k, x.kind = .terminal k →
          let q := b.queue k
          b'.rooms = b.rooms ∧ (∀ p : KitchenNo, p ≠ k → b'.queue p = b.queue p) ∧
          (b.pool.isClearing = true ∨ q.entries = [] →
            b'.line l = visited .poll [] ∧ b'.queue k = { q with inFlight := none }) ∧
          ∀ e rest o, b.pool.isClearing = false → q.entries = e :: rest → (b.slot e.slot).body = .order o →
            let name : Handle := { kind := 2, gen := (b.slot e.slot).gen, slot := e.slot.val }
            b'.queue k = { q with inFlight := some (name, e.asVoid) } ∧
            (e.asVoid = true → b'.line l = visited .voided (handleBytes name ++ be 2 o.room.val)) ∧
            (e.asVoid = false → b'.line l = visited .ticket (b.ticketPayload e.slot o))

/-- A frame that reaches a line without a visit in flight is discarded, and a timeout finds nothing (R155). A good answer
makes the node ONLINE without misses, settles a PAGE, raises the notice of a node that comes back, ends the visit and
hands the items of the answer on (R156, R173); a terminal answer is settled and its reports taken, and the kitchen takes
its level in the same event (R141, R143, R158): the settlement first, then the first four reports in order, with the field
readings of R185. Any other frame, and the timeout, is a loss: one miss more, SILENT at the third with its notice, the
kitchen of an ONLINE terminal taking the loss in the same event, a PAGE stale again, a TICKET or VOID settled as lost
(R142, R155, R157, R158). The end of a visit makes the choice of the next node: the sweep position and the count stay when
a node above the position is to be visited in the present sweep or no node is configured, and otherwise every sweep that
ends without one counts up modulo 8 and the position becomes none (R153). A frame is no good answer exactly when its address, number of bytes, check sequence, kind or
payload length fails R155. Rows judged by their bytes are log entry 7, the panel items that wait log entry 4, the motion
item with its minute log entry 11, the page age of 0 after the answer log entry 30. -/
def Obligations.AnswersAndLossesEndVisits : Prop :=
  ∀ (l : LineNo) (frame : List Byte) (s : State),
    let b := s.recs
    let ln := b.line l
    (ln.visit = none →
      exec (.panelAnswer l frame) s = .next s ∧ exec (.terminalAnswer l frame) s = .next s ∧
      exec (.badAnswer l frame) s = .next s ∧ exec (.frameDiscarded l frame) s = .next s ∧
      exec (.visitTimeout l) s = .next s) ∧
    ∀ v, ln.visit = some v →
      let x := ln.node v.node
      let address := BitVec.ofNat 8 (v.node.val + 129)
      let page := decide (v.frame = .page)
      let back := x.state ≠ .online
      let ended := fun (b' : Records) (y : Node) =>
        (b'.line l).visit = none ∧ (b'.line l).nodes = ln.nodes.set v.node.val y ∧
        { b'.line l with visit := ln.visit, nodes := ln.nodes, sweepCount := ln.sweepCount
                         sweepPos := ln.sweepPos } = ln ∧
        (∀ m : LineNo, m ≠ l → b'.line m = b.line m) ∧
        let at' := fun m : NodeNo => if m = v.node then y else ln.node m
        let due := fun (i : Nat) (m : NodeNo) => (∀ p, i = 0 → ln.sweepPos = some p → p < m) ∧
          (at' m).kind ≠ .unused ∧ ((at' m).state ≠ .silent ∨ (ln.sweepCount + i) % 8 = 0)
        ((∀ m, (at' m).kind = .unused) →
          (b'.line l).sweepCount = ln.sweepCount ∧ (b'.line l).sweepPos = ln.sweepPos) ∧
        ((∃ m, (at' m).kind ≠ .unused) → ln.sweepCount ≤ 7 → ∃ j, j ≤ 8 ∧
          (∃ m, due j m) ∧ (∀ i m, i < j → ¬ due i m) ∧ (b'.line l).sweepCount = (ln.sweepCount + j) % 8 ∧
          (b'.line l).sweepPos = if j = 0 then ln.sweepPos else none)
      let formed := fun y : Kitchen =>
        { y with active := y.override.getD (if y.online then y.reported.getD y.fallback else y.fallback) }
      let answered : Node :=
        { x with misses := 0, state := .online, stale := x.stale || (decide back && x.isPanel)
                 age := if page then 0 else x.age
                 pendingResult := if page && x.carried then none else x.pendingResult
                 carried := x.carried && !page }
      let missed : Node :=
        { x with misses := min 3 (x.misses + 1), state := if x.misses = 2 then .silent else x.state
                 stale := x.stale || (page && x.isPanel) }
      (∀ (r : RoomNo) (motion code : Byte), x.kind = .panel r → frame = sealFrame address [9, 0, 2, motion, code] →
        ∃ (b' : Records) (asked : List Request),
          let items := .motion (min motion.toNat 15) s.clk.minute :: asked.map PanelItem.request
          let handed := items.map fun i => ({ line := l, node := v.node, room := r, item := i } : PanelHandoff)
          exec (.panelAnswer l frame) s =
            .next { s with recs := b', mail := { s.mail with panel := s.mail.panel ++ handed } } ∧
          (code = 1 → asked = [.checkIn]) ∧ (code = 2 → asked = [.extend]) ∧ (code = 3 → asked = [.release]) ∧
          (code = 4 → asked = [.walkUp]) ∧ (code = 0 ∨ 4 < code → asked = []) ∧
          ended b' answered ∧
          b' = { (if back then b.raise (.room r .panelBack) else b) with lines := b'.lines }) ∧
      (∀ (k : KitchenNo) (level count : Byte) (rest : List Byte), x.kind = .terminal k →
        5 * min 4 count.toNat ≤ rest.length → rest.length < 65000 →
        frame = sealFrame address (10 :: be 2 (rest.length + 2) ++ level :: count :: rest) →
        let heard := if back then b.raise (.kitchen k .terminalBack) else b
        let taken := heard.terminalAnswered k (level :: count :: rest)
        let reports := (List.range (min 4 count.toNat)).map fun i =>
          ({ kind := rest.getD (5 * i) 0
             handle := { kind := rest.getD (5 * i + 1) 0, gen := rest.getD (5 * i + 2) 0
                         slot := (rest.getD (5 * i + 3) 0).toNat * 256 + (rest.getD (5 * i + 4) 0).toNat } } : Report)
        (count = 0 → taken = heard.settleAnswer k) ∧
        taken = reports.foldl (fun y report => y.takeReport k report) (heard.settleAnswer k) ∧
        ∃ (b' b2 : Records) (lev : Fin 8),
          exec (.terminalAnswer l frame) s = .next { s with recs := b' } ∧
          lev.val = level.toNat % 8 ∧ ended b' answered ∧
          taken.KitchenReplaced b2 s.clk k (formed { b.kitchen k with online := true, reported := some lev }) ∧
          b' = { b2 with lines := b'.lines }) ∧
      (∀ e : Instr,
        (e = .visitTimeout l ∨ ((e = .badAnswer l frame ∨ e = .frameDiscarded l frame) ∧
          Machine.goodAnswer v.node x.kind frame = none)) → ∃ b' : Records,
        exec e s = .next { s with recs := b' } ∧
        ended b' missed ∧
        match x.kind with
        | .unused => b' = { b with lines := b'.lines }
        | .panel r => b' = { (if x.misses = 2 then b.raise (.room r .panelSilent) else b) with lines := b'.lines }
        | .terminal k =>
          let settled := if x.misses = 2 then (b.settleLoss k).raise (.kitchen k .terminalSilent) else b.settleLoss k
          (¬ (x.misses = 2 ∧ x.state = .online) → b' = { settled with lines := b'.lines }) ∧
          (x.misses = 2 → x.state = .online → ∃ b2 : Records,
            settled.KitchenReplaced b2 s.clk k (formed { b.kitchen k with online := false }) ∧
            b' = { b2 with lines := b'.lines })) ∧
      (∀ (a : Byte) (rest : List Byte), frame = a :: rest → a ≠ address →
        Machine.goodAnswer v.node x.kind frame = none) ∧
      (frame.length < 8 → Machine.goodAnswer v.node x.kind frame = none) ∧
      ∀ (a kind high low : Byte) (rest : List Byte), frame = a :: kind :: high :: low :: rest →
        let len := high.toNat * 256 + low.toNat
        let none' := Machine.goodAnswer v.node x.kind frame = none
        let unfit :=
          match x.kind with
          | .unused => True
          | .panel _ => kind ≠ 9 ∨ len ≠ 2
          | .terminal _ => kind ≠ 10 ∨ len < 2 ∨ len < 2 + 5 * min 4 (rest.getD 1 0).toNat
        (rest.length ≠ len + 2 → none') ∧
        (rest.drop len ≠ crcBytes (kind :: high :: low :: rest.take len) → none') ∧ (unfit → none') ∧
        (none' → a ≠ address ∨ rest.length ≠ len + 2 ∨
          rest.drop len ≠ crcBytes (kind :: high :: low :: rest.take len) ∨ unfit)

/-- A second pulse that waits at a line is taken: every PANEL node's page ages by one up to 255, and is stale when the age
reaches the refresh limit and when its time-change minute is reached, which is then absent (R160). The oldest result
handed back for a node is taken: it becomes pending on a node that still names the room, which is stale, and is
discarded otherwise (R161). A row without a waiting pulse or result changes nothing (log entry 4). -/
def Obligations.PulsesAndResultsTaken : Prop :=
  ∀ (l : LineNo) (s : State),
    let ln := s.recs.line l
    let frame := fun b : Records => b = { s.recs with lines := b.lines } ∧
      ∀ m : LineNo, m ≠ l → b.line m = s.recs.line m
    (s.mail.pulses[l.val] = 0 → exec (.secondPulse l) s = .next s) ∧
    (∀ p, s.mail.pulses[l.val] = p + 1 → ∃ b : Records,
      exec (.secondPulse l) s =
        .next { s with recs := b, mail := { s.mail with pulses := s.mail.pulses.set l.val p } } ∧
      frame b ∧ { b.line l with nodes := ln.nodes } = ln ∧
      ∀ n : NodeNo,
        let x := ln.node n
        let y := (b.line l).node n
        (x.isPanel = false → y = x) ∧
        (x.isPanel = true →
          let reached := ∃ t, x.timeChange = some t ∧ t ≤ s.clk.minute
          y.age = min 255 (x.age + 1) ∧
          (y.stale = true ↔ x.stale = true ∨ x.age + 1 = ln.refresh ∨ reached) ∧
          (reached → y.timeChange = none) ∧ (¬ reached → y.timeChange = x.timeChange) ∧
          { y with age := x.age, stale := x.stale, timeChange := x.timeChange } = x)) ∧
    ∀ n : NodeNo,
      ((∀ x ∈ s.mail.results, ¬ (x.line = l ∧ x.node = n)) → exec (.requestResult l n) s = .next s) ∧
      ∀ (front back : List ResultHandoff) (r : RoomNo) (res : PanelResult),
        s.mail.results = front ++ { line := l, node := n, room := r, result := res } :: back →
        (∀ x ∈ front, ¬ (x.line = l ∧ x.node = n)) →
        let x := ln.node n
        let y := { x with pendingResult := some res, carried := false, stale := true }
        ∃ b : Records,
          exec (.requestResult l n) s =
            .next { s with recs := b, mail := { s.mail with results := front ++ back } } ∧
          (x.kind ≠ .panel r → b = s.recs) ∧
          (x.kind = .panel r → frame b ∧ b.line l = { ln with nodes := ln.nodes.set n.val y })

/-! ## Notices -/

/-- A notice raised adds its kind to its set; READ_NOTICES returns the kinds of one set, ascending in the notice table
while the sets keep that order (an invariant, StepKeepsNoticeLine), and empties it; SET_NOTICE_MASK replaces every mask
and keeps the sets; NOTICE is formed afresh each time (R181, R182, R183). The order of the kinds in the response is the
model's choice (log entry 33); the kinds numbered over the whole table, the byte of the NOTICE level and the masks of the
response without a count are log entry 10. -/
def Obligations.NoticesRaisedReadAndMasked : Prop :=
  ∀ (tag : Byte) (s : State),
    let n := s.recs.notices
    let now := fun m : Notices => ({ s with recs := { s.recs with notices := m } } : State)
    (∀ (r : RoomNo) (k : RoomNotice), ∃ m : Notices,
      exec (.noticeRaise (.room r k)) s = .next (now m) ∧ m.Lawful ∧ (n.Ordered → m.Ordered) ∧
      (∀ k', k' ∈ m.rooms[r.val] ↔ k' = k ∨ k' ∈ n.rooms[r.val]) ∧
      (∀ q : RoomNo, q ≠ r → m.rooms[q.val] = n.rooms[q.val]) ∧
      m.kitchens = n.kitchens ∧ m.part = n.part ∧ m.masks = n.masks) ∧
    (∀ (c : KitchenNo) (k : KitchenNotice), ∃ m : Notices,
      exec (.noticeRaise (.kitchen c k)) s = .next (now m) ∧ m.Lawful ∧ (n.Ordered → m.Ordered) ∧
      (∀ k', k' ∈ m.kitchens[c.val] ↔ k' = k ∨ k' ∈ n.kitchens[c.val]) ∧
      (∀ q : KitchenNo, q ≠ c → m.kitchens[q.val] = n.kitchens[q.val]) ∧
      m.rooms = n.rooms ∧ m.part = n.part ∧ m.masks = n.masks) ∧
    (∀ k : PartNotice, ∃ m : Notices,
      exec (.noticeRaise (.part k)) s = .next (now m) ∧ m.Lawful ∧ (n.Ordered → m.Ordered) ∧
      (∀ k', k' ∈ m.part ↔ k' = k ∨ k' ∈ n.part) ∧
      m.rooms = n.rooms ∧ m.kitchens = n.kitchens ∧ m.masks = n.masks) ∧
    (s.port.state = .idle →
      let kinds := fun l : List (Fin 18) => be 1 l.length ++ l.flatMap fun k => be 1 k.val
      (∀ i x, 2 < i → exec (.readNotices tag i x) s = .next (s.respond 128 tag .badValue [])) ∧
      (∀ x, 384 ≤ x → exec (.readNotices tag 0 x) s = .next (s.respond 128 tag .badRoom [])) ∧
      (∀ x, 8 ≤ x → exec (.readNotices tag 1 x) s = .next (s.respond 128 tag .badKitchen [])) ∧
      (∀ r : RoomNo, ∃ m : Notices,
        exec (.readNotices tag 0 r.val) s =
          .next ((now m).respond 128 tag .ok (kinds (n.rooms[r.val].map RoomNotice.num))) ∧ m.Lawful ∧
        (n.Ordered → (n.rooms[r.val].map RoomNotice.num).Pairwise (fun x y => x < y) ∧ m.Ordered) ∧
        m = { n with rooms := n.rooms.set r.val [], line := m.line }) ∧
      (∀ c : KitchenNo, ∃ m : Notices,
        exec (.readNotices tag 1 c.val) s =
          .next ((now m).respond 128 tag .ok (kinds (n.kitchens[c.val].map KitchenNotice.num))) ∧ m.Lawful ∧
        (n.Ordered → (n.kitchens[c.val].map KitchenNotice.num).Pairwise (fun x y => x < y) ∧ m.Ordered) ∧
        m = { n with kitchens := n.kitchens.set c.val [], line := m.line }) ∧
      (∀ x, ∃ m : Notices,
        exec (.readNotices tag 2 x) s =
          .next ((now m).respond 128 tag .ok (kinds (n.part.map PartNotice.num))) ∧ m.Lawful ∧
        (n.Ordered → (n.part.map PartNotice.num).Pairwise (fun x y => x < y) ∧ m.Ordered) ∧
        m = { n with part := [], line := m.line }) ∧
      (∀ masks : Vector Byte 18, (∃ m ∈ masks.toList, m ≠ 0 ∧ m ≠ 1) →
        exec (.setNoticeMask tag masks) s = .next (s.respond 129 tag .badValue [])) ∧
      ∀ masks : Vector Byte 18, (∀ m ∈ masks.toList, m = 0 ∨ m = 1) → ∃ m : Notices,
        exec (.setNoticeMask tag masks) s =
          .next ((now m).respond 129 tag .ok (masks.toList ++ [if m.line then 1 else 0])) ∧ m.Lawful ∧
        m = { n with masks := masks.map fun x => decide (x = 1), line := m.line })
end

