-- ==== Sys2Proof/Laws/State.lean ====
section
/-! SUPPORT. What each named update of the state leaves in each field: one lemma per field per update. -/

namespace Sys2Proof.Machine

open Sys2Proof

/-! ## Updates of the whole state -/

@[simp] theorem State.withRecs_clk (s : State) (b : Records) :
    (s.withRecs b).clk = s.clk := rfl

@[simp] theorem State.withRecs_menu (s : State) (b : Records) :
    (s.withRecs b).menu = s.menu := rfl

@[simp] theorem State.withRecs_walk (s : State) (b : Records) :
    (s.withRecs b).walk = s.walk := rfl

@[simp] theorem State.withRecs_scan (s : State) (b : Records) :
    (s.withRecs b).scan = s.scan := rfl

@[simp] theorem State.withRecs_port (s : State) (b : Records) :
    (s.withRecs b).port = s.port := rfl

@[simp] theorem State.withRecs_mail (s : State) (b : Records) :
    (s.withRecs b).mail = s.mail := rfl

@[simp] theorem State.withRecs_freeDraws (s : State) (b : Records) :
    (s.withRecs b).freeDraws = s.freeDraws := rfl

@[simp] theorem State.withRecs_pending (s : State) (b : Records) :
    (s.withRecs b).pending = s.pending := rfl

@[simp] theorem State.withRecs_recs (s : State) (b : Records) :
    (s.withRecs b).recs = b := rfl

@[simp] theorem State.respond_clk (s : State) (c t : Byte) (st : Status) (p : List Byte) :
    (s.respond c t st p).clk = s.clk := rfl

@[simp] theorem State.respond_menu (s : State) (c t : Byte) (st : Status) (p : List Byte) :
    (s.respond c t st p).menu = s.menu := rfl

@[simp] theorem State.respond_walk (s : State) (c t : Byte) (st : Status) (p : List Byte) :
    (s.respond c t st p).walk = s.walk := rfl

@[simp] theorem State.respond_scan (s : State) (c t : Byte) (st : Status) (p : List Byte) :
    (s.respond c t st p).scan = s.scan := rfl

@[simp] theorem State.respond_mail (s : State) (c t : Byte) (st : Status) (p : List Byte) :
    (s.respond c t st p).mail = s.mail := rfl

@[simp] theorem State.respond_freeDraws (s : State) (c t : Byte) (st : Status) (p : List Byte) :
    (s.respond c t st p).freeDraws = s.freeDraws := rfl

@[simp] theorem State.respond_pending (s : State) (c t : Byte) (st : Status) (p : List Byte) :
    (s.respond c t st p).pending = s.pending := rfl

@[simp] theorem State.respond_recs (s : State) (c t : Byte) (st : Status) (p : List Byte) :
    (s.respond c t st p).recs = s.recs := rfl

@[simp] theorem State.respond_port_state (s : State) (c t : Byte) (st : Status) (p : List Byte) :
    (s.respond c t st p).port.state = .answerReady := rfl

@[simp] theorem State.respond_port_ready (s : State) (c t : Byte) (st : Status) (p : List Byte) :
    (s.respond c t st p).port.ready = true := rfl

@[simp] theorem State.respond_port_buffer (s : State) (c t : Byte) (st : Status) (p : List Byte) :
    (s.respond c t st p).port.buffer = some { code := c, tag := t, status := st, payload := p } := rfl

@[simp] theorem State.respond_port_overrun (s : State) (c t : Byte) (st : Status) (p : List Byte) :
    (s.respond c t st p).port.overrun = s.port.overrun := rfl

@[simp] theorem State.respond_port_fresh (s : State) (c t : Byte) (st : Status) (p : List Byte) :
    (s.respond c t st p).port.fresh = s.port.fresh := rfl

@[simp] theorem State.respond_port_miso (s : State) (c t : Byte) (st : Status) (p : List Byte) :
    (s.respond c t st p).port.miso = s.port.miso := rfl

/-! ## Updates of the record tables -/

@[simp] theorem Records.setRoom_pool (b : Records) (r : RoomNo) (x : Room) :
    (b.setRoom r x).pool = b.pool := rfl

@[simp] theorem Records.setRoom_kitchens (b : Records) (r : RoomNo) (x : Room) :
    (b.setRoom r x).kitchens = b.kitchens := rfl

@[simp] theorem Records.setRoom_queues (b : Records) (r : RoomNo) (x : Room) :
    (b.setRoom r x).queues = b.queues := rfl

@[simp] theorem Records.setRoom_lines (b : Records) (r : RoomNo) (x : Room) :
    (b.setRoom r x).lines = b.lines := rfl

@[simp] theorem Records.setRoom_notices (b : Records) (r : RoomNo) (x : Room) :
    (b.setRoom r x).notices = b.notices := rfl

@[simp] theorem Records.setKitchen_pool (b : Records) (k : KitchenNo) (x : Kitchen) :
    (b.setKitchen k x).pool = b.pool := rfl

@[simp] theorem Records.setKitchen_rooms (b : Records) (k : KitchenNo) (x : Kitchen) :
    (b.setKitchen k x).rooms = b.rooms := rfl

@[simp] theorem Records.setKitchen_queues (b : Records) (k : KitchenNo) (x : Kitchen) :
    (b.setKitchen k x).queues = b.queues := rfl

@[simp] theorem Records.setKitchen_lines (b : Records) (k : KitchenNo) (x : Kitchen) :
    (b.setKitchen k x).lines = b.lines := rfl

@[simp] theorem Records.setKitchen_notices (b : Records) (k : KitchenNo) (x : Kitchen) :
    (b.setKitchen k x).notices = b.notices := rfl

@[simp] theorem Records.setQueue_pool (b : Records) (k : KitchenNo) (x : TicketQueue) :
    (b.setQueue k x).pool = b.pool := rfl

@[simp] theorem Records.setQueue_rooms (b : Records) (k : KitchenNo) (x : TicketQueue) :
    (b.setQueue k x).rooms = b.rooms := rfl

@[simp] theorem Records.setQueue_kitchens (b : Records) (k : KitchenNo) (x : TicketQueue) :
    (b.setQueue k x).kitchens = b.kitchens := rfl

@[simp] theorem Records.setQueue_lines (b : Records) (k : KitchenNo) (x : TicketQueue) :
    (b.setQueue k x).lines = b.lines := rfl

@[simp] theorem Records.setQueue_notices (b : Records) (k : KitchenNo) (x : TicketQueue) :
    (b.setQueue k x).notices = b.notices := rfl

@[simp] theorem Records.setLine_pool (b : Records) (l : LineNo) (x : Line) :
    (b.setLine l x).pool = b.pool := rfl

@[simp] theorem Records.setLine_rooms (b : Records) (l : LineNo) (x : Line) :
    (b.setLine l x).rooms = b.rooms := rfl

@[simp] theorem Records.setLine_kitchens (b : Records) (l : LineNo) (x : Line) :
    (b.setLine l x).kitchens = b.kitchens := rfl

@[simp] theorem Records.setLine_queues (b : Records) (l : LineNo) (x : Line) :
    (b.setLine l x).queues = b.queues := rfl

@[simp] theorem Records.setLine_notices (b : Records) (l : LineNo) (x : Line) :
    (b.setLine l x).notices = b.notices := rfl

@[simp] theorem Records.setBody_rooms (b : Records) (sl : SlotNo) (x : SlotBody) :
    (b.setBody sl x).rooms = b.rooms := rfl

@[simp] theorem Records.setBody_kitchens (b : Records) (sl : SlotNo) (x : SlotBody) :
    (b.setBody sl x).kitchens = b.kitchens := rfl

@[simp] theorem Records.setBody_queues (b : Records) (sl : SlotNo) (x : SlotBody) :
    (b.setBody sl x).queues = b.queues := rfl

@[simp] theorem Records.setBody_lines (b : Records) (sl : SlotNo) (x : SlotBody) :
    (b.setBody sl x).lines = b.lines := rfl

@[simp] theorem Records.setBody_notices (b : Records) (sl : SlotNo) (x : SlotBody) :
    (b.setBody sl x).notices = b.notices := rfl

@[simp] theorem Records.raise_pool (b : Records) (x : RaisedNotice) :
    (b.raise x).pool = b.pool := rfl

@[simp] theorem Records.raise_rooms (b : Records) (x : RaisedNotice) :
    (b.raise x).rooms = b.rooms := rfl

@[simp] theorem Records.raise_kitchens (b : Records) (x : RaisedNotice) :
    (b.raise x).kitchens = b.kitchens := rfl

@[simp] theorem Records.raise_queues (b : Records) (x : RaisedNotice) :
    (b.raise x).queues = b.queues := rfl

@[simp] theorem Records.raise_lines (b : Records) (x : RaisedNotice) :
    (b.raise x).lines = b.lines := rfl

@[simp] theorem Records.markRooms_pool (b : Records) (rs : List RoomNo) :
    (b.markRooms rs).pool = b.pool := rfl

@[simp] theorem Records.markRooms_rooms (b : Records) (rs : List RoomNo) :
    (b.markRooms rs).rooms = b.rooms := rfl

@[simp] theorem Records.markRooms_kitchens (b : Records) (rs : List RoomNo) :
    (b.markRooms rs).kitchens = b.kitchens := rfl

@[simp] theorem Records.markRooms_queues (b : Records) (rs : List RoomNo) :
    (b.markRooms rs).queues = b.queues := rfl

@[simp] theorem Records.markRooms_notices (b : Records) (rs : List RoomNo) :
    (b.markRooms rs).notices = b.notices := rfl

@[simp] theorem Records.markShowing_pool (b : Records) (r : RoomNo) :
    (b.markShowing r).pool = b.pool := rfl

@[simp] theorem Records.markShowing_rooms (b : Records) (r : RoomNo) :
    (b.markShowing r).rooms = b.rooms := rfl

@[simp] theorem Records.markShowing_kitchens (b : Records) (r : RoomNo) :
    (b.markShowing r).kitchens = b.kitchens := rfl

@[simp] theorem Records.markShowing_queues (b : Records) (r : RoomNo) :
    (b.markShowing r).queues = b.queues := rfl

@[simp] theorem Records.markShowing_notices (b : Records) (r : RoomNo) :
    (b.markShowing r).notices = b.notices := rfl

@[simp] theorem Records.returnSlot_rooms (b : Records) (sl : SlotNo) :
    (b.returnSlot sl).rooms = b.rooms := rfl

@[simp] theorem Records.returnSlot_kitchens (b : Records) (sl : SlotNo) :
    (b.returnSlot sl).kitchens = b.kitchens := rfl

@[simp] theorem Records.returnSlot_queues (b : Records) (sl : SlotNo) :
    (b.returnSlot sl).queues = b.queues := rfl

@[simp] theorem Records.returnSlot_lines (b : Records) (sl : SlotNo) :
    (b.returnSlot sl).lines = b.lines := rfl

@[simp] theorem Records.returnSlot_notices (b : Records) (sl : SlotNo) :
    (b.returnSlot sl).notices = b.notices := rfl

@[simp] theorem Records.markAllPanels_pool (b : Records) :
    b.markAllPanels.pool = b.pool := rfl

@[simp] theorem Records.markAllPanels_rooms (b : Records) :
    b.markAllPanels.rooms = b.rooms := rfl

@[simp] theorem Records.markAllPanels_kitchens (b : Records) :
    b.markAllPanels.kitchens = b.kitchens := rfl

@[simp] theorem Records.markAllPanels_queues (b : Records) :
    b.markAllPanels.queues = b.queues := rfl

@[simp] theorem Records.markAllPanels_notices (b : Records) :
    b.markAllPanels.notices = b.notices := rfl

@[simp] theorem Records.raise_notices (b : Records) (x : RaisedNotice) :
    (b.raise x).notices = b.notices.raise x := rfl

@[simp] theorem Records.setBody_pool_state (b : Records) (sl : SlotNo) (x : SlotBody) :
    (b.setBody sl x).pool.state = b.pool.state := rfl

@[simp] theorem Records.setBody_pool_freeList (b : Records) (sl : SlotNo) (x : SlotBody) :
    (b.setBody sl x).pool.freeList = b.pool.freeList := rfl

@[simp] theorem Records.setBody_pool_freeCount (b : Records) (sl : SlotNo) (x : SlotBody) :
    (b.setBody sl x).pool.freeCount = b.pool.freeCount := rfl

@[simp] theorem Records.setBody_pool_floor (b : Records) (sl : SlotNo) (x : SlotBody) :
    (b.setBody sl x).pool.floor = b.pool.floor := rfl

@[simp] theorem Records.setBody_pool_lowArmed (b : Records) (sl : SlotNo) (x : SlotBody) :
    (b.setBody sl x).pool.lowArmed = b.pool.lowArmed := rfl

@[simp] theorem Records.setBody_pool_horizon (b : Records) (sl : SlotNo) (x : SlotBody) :
    (b.setBody sl x).pool.horizon = b.pool.horizon := rfl

@[simp] theorem Records.returnSlot_pool_state (b : Records) (sl : SlotNo) :
    (b.returnSlot sl).pool.state = b.pool.state := rfl

@[simp] theorem Records.returnSlot_pool_floor (b : Records) (sl : SlotNo) :
    (b.returnSlot sl).pool.floor = b.pool.floor := rfl

@[simp] theorem Records.returnSlot_pool_horizon (b : Records) (sl : SlotNo) :
    (b.returnSlot sl).pool.horizon = b.pool.horizon := rfl

@[simp] theorem Records.returnSlot_pool_freeList (b : Records) (sl : SlotNo) :
    (b.returnSlot sl).pool.freeList = sl :: b.pool.freeList := rfl

@[simp] theorem Records.returnSlot_pool_freeCount (b : Records) (sl : SlotNo) :
    (b.returnSlot sl).pool.freeCount = b.pool.freeCount + 1 := rfl

/-! ## Reads after writes of the tables -/

@[simp] theorem Records.setRoom_room_same (b : Records) (i : RoomNo) (x : Room) : (b.setRoom i x).room i = x := by
  simp [Records.setRoom, Records.room]

theorem Records.setRoom_room_other (b : Records) {i j : RoomNo} (x : Room) (h : j ≠ i) :
    (b.setRoom i x).room j = b.room j := by
  have h' : ¬ (i.val = j.val) := fun e => h (Fin.ext e.symm)
  simp [Records.setRoom, Records.room, h']

@[simp] theorem Records.setRoom_kitchen (b : Records) (i : RoomNo) (x : Room) (j : KitchenNo) :
    (b.setRoom i x).kitchen j = b.kitchen j := rfl

@[simp] theorem Records.setRoom_queue (b : Records) (i : RoomNo) (x : Room) (j : KitchenNo) :
    (b.setRoom i x).queue j = b.queue j := rfl

@[simp] theorem Records.setRoom_line (b : Records) (i : RoomNo) (x : Room) (j : LineNo) :
    (b.setRoom i x).line j = b.line j := rfl

@[simp] theorem Records.setRoom_slot (b : Records) (i : RoomNo) (x : Room) (sl : SlotNo) :
    (b.setRoom i x).slot sl = b.slot sl := rfl

@[simp] theorem Records.setBody_room (b : Records) (sl : SlotNo) (x : SlotBody) (j : RoomNo) :
    (b.setBody sl x).room j = b.room j := rfl

@[simp] theorem Records.returnSlot_room (b : Records) (sl : SlotNo) (j : RoomNo) :
    (b.returnSlot sl).room j = b.room j := rfl

@[simp] theorem Records.raise_room (b : Records) (x : RaisedNotice) (j : RoomNo) :
    (b.raise x).room j = b.room j := rfl

@[simp] theorem Records.markRooms_room (b : Records) (rs : List RoomNo) (j : RoomNo) :
    (b.markRooms rs).room j = b.room j := rfl

@[simp] theorem Records.markShowing_room (b : Records) (r : RoomNo) (j : RoomNo) :
    (b.markShowing r).room j = b.room j := rfl

@[simp] theorem Records.setKitchen_kitchen_same (b : Records) (i : KitchenNo) (x : Kitchen) :
    (b.setKitchen i x).kitchen i = x := by
  simp [Records.setKitchen, Records.kitchen]

theorem Records.setKitchen_kitchen_other (b : Records) {i j : KitchenNo} (x : Kitchen) (h : j ≠ i) :
    (b.setKitchen i x).kitchen j = b.kitchen j := by
  have h' : ¬ (i.val = j.val) := fun e => h (Fin.ext e.symm)
  simp [Records.setKitchen, Records.kitchen, h']

@[simp] theorem Records.setKitchen_room (b : Records) (i : KitchenNo) (x : Kitchen) (j : RoomNo) :
    (b.setKitchen i x).room j = b.room j := rfl

@[simp] theorem Records.setKitchen_queue (b : Records) (i : KitchenNo) (x : Kitchen) (j : KitchenNo) :
    (b.setKitchen i x).queue j = b.queue j := rfl

@[simp] theorem Records.setKitchen_line (b : Records) (i : KitchenNo) (x : Kitchen) (j : LineNo) :
    (b.setKitchen i x).line j = b.line j := rfl

@[simp] theorem Records.setKitchen_slot (b : Records) (i : KitchenNo) (x : Kitchen) (sl : SlotNo) :
    (b.setKitchen i x).slot sl = b.slot sl := rfl

@[simp] theorem Records.setBody_kitchen (b : Records) (sl : SlotNo) (x : SlotBody) (j : KitchenNo) :
    (b.setBody sl x).kitchen j = b.kitchen j := rfl

@[simp] theorem Records.returnSlot_kitchen (b : Records) (sl : SlotNo) (j : KitchenNo) :
    (b.returnSlot sl).kitchen j = b.kitchen j := rfl

@[simp] theorem Records.raise_kitchen (b : Records) (x : RaisedNotice) (j : KitchenNo) :
    (b.raise x).kitchen j = b.kitchen j := rfl

@[simp] theorem Records.markRooms_kitchen (b : Records) (rs : List RoomNo) (j : KitchenNo) :
    (b.markRooms rs).kitchen j = b.kitchen j := rfl

@[simp] theorem Records.markShowing_kitchen (b : Records) (r : RoomNo) (j : KitchenNo) :
    (b.markShowing r).kitchen j = b.kitchen j := rfl

@[simp] theorem Records.setQueue_queue_same (b : Records) (i : KitchenNo) (x : TicketQueue) :
    (b.setQueue i x).queue i = x := by
  simp [Records.setQueue, Records.queue]

theorem Records.setQueue_queue_other (b : Records) {i j : KitchenNo} (x : TicketQueue) (h : j ≠ i) :
    (b.setQueue i x).queue j = b.queue j := by
  have h' : ¬ (i.val = j.val) := fun e => h (Fin.ext e.symm)
  simp [Records.setQueue, Records.queue, h']

@[simp] theorem Records.setQueue_room (b : Records) (i : KitchenNo) (x : TicketQueue) (j : RoomNo) :
    (b.setQueue i x).room j = b.room j := rfl

@[simp] theorem Records.setQueue_kitchen (b : Records) (i : KitchenNo) (x : TicketQueue) (j : KitchenNo) :
    (b.setQueue i x).kitchen j = b.kitchen j := rfl

@[simp] theorem Records.setQueue_line (b : Records) (i : KitchenNo) (x : TicketQueue) (j : LineNo) :
    (b.setQueue i x).line j = b.line j := rfl

@[simp] theorem Records.setQueue_slot (b : Records) (i : KitchenNo) (x : TicketQueue) (sl : SlotNo) :
    (b.setQueue i x).slot sl = b.slot sl := rfl

@[simp] theorem Records.setBody_queue (b : Records) (sl : SlotNo) (x : SlotBody) (j : KitchenNo) :
    (b.setBody sl x).queue j = b.queue j := rfl

@[simp] theorem Records.returnSlot_queue (b : Records) (sl : SlotNo) (j : KitchenNo) :
    (b.returnSlot sl).queue j = b.queue j := rfl

@[simp] theorem Records.raise_queue (b : Records) (x : RaisedNotice) (j : KitchenNo) :
    (b.raise x).queue j = b.queue j := rfl

@[simp] theorem Records.markRooms_queue (b : Records) (rs : List RoomNo) (j : KitchenNo) :
    (b.markRooms rs).queue j = b.queue j := rfl

@[simp] theorem Records.markShowing_queue (b : Records) (r : RoomNo) (j : KitchenNo) :
    (b.markShowing r).queue j = b.queue j := rfl

@[simp] theorem Records.setLine_line_same (b : Records) (i : LineNo) (x : Line) : (b.setLine i x).line i = x := by
  simp [Records.setLine, Records.line]

theorem Records.setLine_line_other (b : Records) {i j : LineNo} (x : Line) (h : j ≠ i) :
    (b.setLine i x).line j = b.line j := by
  have h' : ¬ (i.val = j.val) := fun e => h (Fin.ext e.symm)
  simp [Records.setLine, Records.line, h']

@[simp] theorem Records.setLine_room (b : Records) (i : LineNo) (x : Line) (j : RoomNo) :
    (b.setLine i x).room j = b.room j := rfl

@[simp] theorem Records.setLine_kitchen (b : Records) (i : LineNo) (x : Line) (j : KitchenNo) :
    (b.setLine i x).kitchen j = b.kitchen j := rfl

@[simp] theorem Records.setLine_queue (b : Records) (i : LineNo) (x : Line) (j : KitchenNo) :
    (b.setLine i x).queue j = b.queue j := rfl

@[simp] theorem Records.setLine_slot (b : Records) (i : LineNo) (x : Line) (sl : SlotNo) :
    (b.setLine i x).slot sl = b.slot sl := rfl

@[simp] theorem Records.setBody_line (b : Records) (sl : SlotNo) (x : SlotBody) (j : LineNo) :
    (b.setBody sl x).line j = b.line j := rfl

@[simp] theorem Records.returnSlot_line (b : Records) (sl : SlotNo) (j : LineNo) :
    (b.returnSlot sl).line j = b.line j := rfl

@[simp] theorem Records.raise_line (b : Records) (x : RaisedNotice) (j : LineNo) :
    (b.raise x).line j = b.line j := rfl

@[simp] theorem Records.setBody_slot_same (b : Records) (sl : SlotNo) (x : SlotBody) :
    (b.setBody sl x).slot sl = { gen := (b.slot sl).gen, body := x } := by
  simp [Records.setBody, Records.slot]

theorem Records.setBody_slot_other (b : Records) {sl y : SlotNo} (x : SlotBody) (h : y ≠ sl) :
    (b.setBody sl x).slot y = b.slot y := by
  have h' : ¬ (sl.val = y.val) := fun e => h (Fin.ext e.symm)
  simp [Records.setBody, Records.slot, h']

@[simp] theorem Records.returnSlot_slot_same (b : Records) (sl : SlotNo) :
    (b.returnSlot sl).slot sl = { gen := (b.slot sl).gen + 1, body := .free } := by
  simp [Records.returnSlot, Records.slot]

theorem Records.returnSlot_slot_other (b : Records) {sl y : SlotNo} (h : y ≠ sl) :
    (b.returnSlot sl).slot y = b.slot y := by
  have h' : ¬ (sl.val = y.val) := fun e => h (Fin.ext e.symm)
  simp [Records.returnSlot, Records.slot, h']

@[simp] theorem Records.raise_slot (b : Records) (x : RaisedNotice) (sl : SlotNo) :
    (b.raise x).slot sl = b.slot sl := rfl

@[simp] theorem Records.markRooms_slot (b : Records) (rs : List RoomNo) (sl : SlotNo) :
    (b.markRooms rs).slot sl = b.slot sl := rfl

@[simp] theorem Records.markShowing_slot (b : Records) (r : RoomNo) (sl : SlotNo) :
    (b.markShowing r).slot sl = b.slot sl := rfl

/-! ## Lines and nodes -/

@[simp] theorem Line.setNode_node_same (l : Line) (n : NodeNo) (x : Node) : (l.setNode n x).node n = x := by
  simp [Line.setNode, Line.node]

theorem Line.setNode_node_other (l : Line) {n m : NodeNo} (x : Node) (h : m ≠ n) :
    (l.setNode n x).node m = l.node m := by
  have h' : ¬ (n.val = m.val) := fun e => h (Fin.ext e.symm)
  simp [Line.setNode, Line.node, h']

@[simp] theorem Line.setNode_running (l : Line) (n : NodeNo) (x : Node) :
    (l.setNode n x).running = l.running := rfl

@[simp] theorem Line.setNode_timeout (l : Line) (n : NodeNo) (x : Node) :
    (l.setNode n x).timeout = l.timeout := rfl

@[simp] theorem Line.setNode_refresh (l : Line) (n : NodeNo) (x : Node) :
    (l.setNode n x).refresh = l.refresh := rfl

@[simp] theorem Line.setNode_sweepCount (l : Line) (n : NodeNo) (x : Node) :
    (l.setNode n x).sweepCount = l.sweepCount := rfl

@[simp] theorem Line.setNode_sweepPos (l : Line) (n : NodeNo) (x : Node) :
    (l.setNode n x).sweepPos = l.sweepPos := rfl

@[simp] theorem Line.setNode_visit (l : Line) (n : NodeNo) (x : Node) :
    (l.setNode n x).visit = l.visit := rfl

@[simp] theorem Line.setNode_sent (l : Line) (n : NodeNo) (x : Node) :
    (l.setNode n x).sent = l.sent := rfl

/-! ## The clock and the second that is not counted (R7) -/

@[simp] theorem Clock.passOver_state (c : Clock) (w : Bool) : (c.passOver w).state = c.state := rfl

@[simp] theorem Clock.passOver_minute (c : Clock) (w : Bool) : (c.passOver w).minute = c.minute := rfl

@[simp] theorem Clock.passOver_seconds (c : Clock) (w : Bool) : (c.passOver w).seconds = c.seconds := rfl

@[simp] theorem Clock.passOver_lastJump (c : Clock) (w : Bool) : (c.passOver w).lastJump = c.lastJump := rfl

@[simp] theorem State.overSecond_recs (s t : State) : (s.overSecond t).recs = t.recs := rfl

@[simp] theorem State.overSecond_menu (s t : State) : (s.overSecond t).menu = t.menu := rfl

@[simp] theorem State.overSecond_walk (s t : State) : (s.overSecond t).walk = t.walk := rfl

@[simp] theorem State.overSecond_scan (s t : State) : (s.overSecond t).scan = t.scan := rfl

@[simp] theorem State.overSecond_port (s t : State) : (s.overSecond t).port = t.port := rfl

@[simp] theorem State.overSecond_mail (s t : State) : (s.overSecond t).mail = t.mail := rfl

@[simp] theorem State.overSecond_freeDraws (s t : State) : (s.overSecond t).freeDraws = t.freeDraws := rfl

@[simp] theorem State.overSecond_pending (s t : State) : (s.overSecond t).pending = t.pending := rfl

@[simp] theorem State.overSecond_clk (s t : State) : (s.overSecond t).clk = t.clk.passOver s.secondArrives := rfl

end Sys2Proof.Machine
end

