-- ==== Sys2Proof/Laws/Ops.lean ====
section
/-! SUPPORT. What each shared operation can do, said once: the provers cite these and leave the operations folded. -/

namespace Sys2Proof.Machine

open Sys2Proof

/-! ## The port -/

/-- A server command on an IDLE port is taken and answered, or holds the port EXECUTING. -/
theorem State.serve_idle {s : State} (h : s.port.state = .idle) (cmd : Instr) (act : State → State × Answer) :
    s.serve cmd act =
      match act s with
      | (s', .now st p) => .next (s'.respond (codeTag cmd).1 (codeTag cmd).2 st p)
      | (s', .later) => .next { s' with port := { s'.port with state := .executing cmd true } } := by
  simp only [State.serve, Port.takes, h, if_true] <;> rfl

/-- A server command on a port that does not take it is discarded, and OVERRUN is set. -/
theorem State.serve_busy {s : State} {cmd : Instr} (h : s.port.takes cmd = false) (act : State → State × Answer) :
    s.serve cmd act = .next { s with port := { s.port with overrun := true } } := by
  simp [State.serve, h]

/-- A server command always completes. -/
theorem State.serve_next (s : State) (cmd : Instr) (act : State → State × Answer) : ∃ t, s.serve cmd act = .next t := by
  unfold State.serve
  split
  · split <;> exact ⟨_, rfl⟩
  · exact ⟨_, rfl⟩

/-! ## The pool -/

@[simp] theorem Pool.isReady_iff (p : Pool) : p.isReady = true ↔ p.state = .ready := by
  unfold Pool.isReady; split <;> simp_all

@[simp] theorem Pool.isInitializing_iff (p : Pool) : p.isInitializing = true ↔ p.state = .initializing := by
  unfold Pool.isInitializing; split <;> simp_all

/-- The records after the head of the free list has been taken for `body`. -/
theorem Records.allocate_ok {b : Records} {privileged : Bool} {body : SlotBody} {sl : SlotNo} {rest : List SlotNo}
    (hr : b.pool.state = .ready) (hc : b.pool.freeCount ≠ 0)
    (hf : b.pool.floor < b.pool.freeCount ∨ privileged = true) (hl : b.pool.freeList = sl :: rest) :
    b.allocate privileged body =
      .ok (sl, (({ b with pool := { b.pool with freeList := rest, freeCount := b.pool.freeCount - 1 } } :
        Records).setBody sl body).lowAfterAllocation) := by
  have h1 : b.pool.isReady = true := by simpa using hr
  have h2 : ¬ (b.pool.freeCount ≤ b.pool.floor ∧ privileged = false) := by
    rintro ⟨h, rfl⟩; rcases hf with h' | h'
    · omega
    · cases h'
  simp only [Records.allocate, h1, if_true, hc, if_false, h2, hl]

/-- The low notice is judged without touching any record but the pool and the notices. -/
theorem Records.lowAfterAllocation_eq (b : Records) :
    b.lowAfterAllocation =
      if b.pool.lowArmed = true ∧ b.pool.freeCount = b.pool.floor then
        { b with pool := { b.pool with lowArmed := false }, notices := b.notices.raise (.part .poolLow) }
      else b := by
  unfold Records.lowAfterAllocation
  by_cases h : b.pool.lowArmed = true ∧ b.pool.freeCount = b.pool.floor
  · simp [h.1, h.2, Records.raise]
  · rw [if_neg h, if_neg]
    simpa using h

/-- A number below 32,768 names its slot. -/
@[simp] theorem slotNo?_val (sl : SlotNo) : slotNo? sl.val = some sl := by simp [slotNo?]

/-- A number of 32,768 or above names no slot. -/
theorem slotNo?_none {n : Nat} (h : 32768 ≤ n) : slotNo? n = none := by simp [slotNo?]; omega

/-- What a handle that passes the check of R18 says of its slot. -/
theorem Records.checkHandle_ok {b : Records} {kind : Byte} {h : Handle} {sl : SlotNo}
    (hk : b.checkHandle kind h = .ok sl) :
    h.kind = kind ∧ h.slot = sl.val ∧ (b.slot sl).body.kind? = some kind ∧ (b.slot sl).gen = h.gen := by
  unfold Records.checkHandle at hk
  split at hk
  · cases hk
  · rename_i h1
    split at hk
    · cases hk
    · rename_i sl' h2
      split at hk
      · cases hk
      · rename_i k h3
        split at hk
        · cases hk
        · rename_i h4
          split at hk
          · cases hk
          · rename_i h5
            cases hk
            have h6 : h.slot = sl.val := by
              unfold slotNo? at h2
              split at h2
              · cases h2; rfl
              · cases h2
            exact ⟨not_not.mp h1, h6, by rw [h3, not_not.mp h4], not_not.mp h5⟩

/-- A slot holds a booking exactly when its contents are one. -/
theorem Records.booking?_eq_some {b : Records} {sl : SlotNo} {k : Booking} :
    b.booking? sl = some k ↔ (b.slot sl).body = .booking k := by
  unfold Records.booking?; split <;> simp_all

/-- A slot holds an order exactly when its contents are one. -/
theorem Records.order?_eq_some {b : Records} {sl : SlotNo} {o : Order} :
    b.order? sl = some o ↔ (b.slot sl).body = .order o := by
  unfold Records.order?; split <;> simp_all

/-! ## Stale flags -/

theorem Node.shows_iff (x : Node) (rs : List RoomNo) : x.shows rs = true ↔ ∃ q, x.kind = .panel q ∧ q ∈ rs := by
  unfold Node.shows; split <;> simp_all

theorem Node.isPanel_iff (x : Node) : x.isPanel = true ↔ ∃ q, x.kind = .panel q := by
  unfold Node.isPanel; split <;> simp_all

/-- A line table mapped over nodes by marking those that satisfy a test. -/
theorem Records.marks_of_test (b : Records) (p : RoomNo → Prop) (test : Node → Bool)
    (ht : ∀ x : Node, test x = true ↔ ∃ q, x.kind = .panel q ∧ p q) :
    b.Marks { b with lines := b.lines.map fun l =>
      { l with nodes := l.nodes.map fun n => if test n then n.mark else n } } p := by
  intro l
  refine ⟨by simp [Records.line], fun n => ?_⟩
  by_cases h : test ((b.line l).node n) = true
  · have h1 := (ht _).mp h
    simp only [Records.line, Line.node] at h h1 ⊢
    simp [h, Node.mark, h1]
  · have h1 := mt (ht _).mpr h
    simp only [Records.line, Line.node] at h h1 ⊢
    simp [h, h1]

/-- Marking rooms marks exactly the panels that name one of them. -/
theorem Records.markRooms_marks (b : Records) (rs : List RoomNo) : b.Marks (b.markRooms rs) (fun q => q ∈ rs) :=
  b.marks_of_test _ (fun n => n.shows rs) fun x => x.shows_iff rs

/-- Marking every panel marks exactly the PANEL nodes. -/
theorem Records.markAllPanels_marks (b : Records) : b.Marks b.markAllPanels (fun _ => True) :=
  b.marks_of_test _ Node.isPanel fun x => by simp [x.isPanel_iff]

/-- Two markings one after the other. -/
theorem Records.Marks.trans {b c d : Records} {p q : RoomNo → Prop} (h : b.Marks c p) (h' : c.Marks d q) :
    b.Marks d (fun r => p r ∨ q r) := by
  intro l
  obtain ⟨h1, h2⟩ := h l
  obtain ⟨h3, h4⟩ := h' l
  refine ⟨by rw [← h1, ← h3], fun n => ?_⟩
  obtain ⟨h5, h6⟩ := h2 n
  obtain ⟨h7, h8⟩ := h4 n
  have hk : ((c.line l).node n).kind = ((b.line l).node n).kind := by rw [← h5]
  refine ⟨by rw [← h5, ← h7], ?_⟩
  rw [h8, h6, hk]
  constructor
  · rintro ((a | ⟨r, e, f⟩) | ⟨r, e, f⟩)
    · exact .inl a
    · exact .inr ⟨r, e, .inl f⟩
    · exact .inr ⟨r, e, .inr f⟩
  · rintro (a | ⟨r, e, f | f⟩)
    · exact .inl (.inl a)
    · exact .inl (.inr ⟨r, e, f⟩)
    · exact .inr ⟨r, e, f⟩

/-! ## Rooms -/

/-- Room `r`'s turnaround-until is the only thing that its clearing touches. -/
theorem Records.clearTurnaround_room (b : Records) (now : Nat) (r q : RoomNo) :
    (b.clearTurnaround now r).room q =
      if q = r then { b.room r with turnaround := (b.room r).turnaround.filter fun t => decide (now < t) }
      else b.room q := by
  unfold Records.clearTurnaround
  by_cases hq : q = r
  · subst hq
    rw [if_pos rfl]
    have eta : ∀ x : Room, ∀ u, x.turnaround = u → { x with turnaround := u } = x := by rintro ⟨⟩ _ rfl; rfl
    cases h : (b.room q).turnaround with
    | none => exact (eta _ _ h).symm
    | some t =>
      by_cases ht : t ≤ now
      · have : ¬ now < t := by omega
        simp [ht, Option.filter, this]
      · have : now < t := by omega
        simp only [ht, if_false, Option.filter, this, decide_true, if_true]
        exact (eta _ _ h).symm
  · rw [if_neg hq]
    split
    · split
      · exact b.setRoom_room_other _ hq
      · rfl
    · rfl

/-- Clearing a turnaround-until touches the room table alone. -/
theorem Records.clearTurnaround_eq (b : Records) (now : Nat) (r : RoomNo) :
    b.clearTurnaround now r = { b with rooms := (b.clearTurnaround now r).rooms } := by
  unfold Records.clearTurnaround; split
  · split <;> rfl
  · rfl

/-- A turnaround-until cleared, as the one room set with its field filtered. -/
theorem Records.clearTurnaround_set (b : Records) (now : Nat) (r : RoomNo) :
    b.clearTurnaround now r = { b with rooms := b.rooms.set r.val { b.room r with
      turnaround := (b.room r).turnaround.filter fun t => decide (now < t) } } := by
  have e : (b.clearTurnaround now r).rooms = b.rooms.set r.val
      { b.room r with turnaround := (b.room r).turnaround.filter fun t => decide (now < t) } := by
    refine Vector.ext fun i hi => ?_
    have h := b.clearTurnaround_room now r ⟨i, hi⟩
    rw [Vector.getElem_set]
    by_cases hr : r.val = i
    · obtain rfl : r = ⟨i, hi⟩ := Fin.ext hr
      rw [if_pos rfl] at h ⊢
      exact h
    · rw [if_neg hr]
      rwa [if_neg fun e => hr (congrArg Fin.val e).symm] at h
  rw [b.clearTurnaround_eq, e]

/-- The turnaround-until fields of a list of rooms cleared: each present one stays only when it lies after `now`. -/
theorem Records.clearTurnarounds_room (b : Records) (now : Nat) (rs : List RoomNo) (q : RoomNo) :
    (b.clearTurnarounds now rs).room q =
      if q ∈ rs then { b.room q with turnaround := (b.room q).turnaround.filter fun t => decide (now < t) }
      else b.room q := by
  induction rs generalizing b with
  | nil => rfl
  | cons r rs ih =>
    have step : b.clearTurnarounds now (r :: rs) = (b.clearTurnaround now r).clearTurnarounds now rs := rfl
    rw [step, ih, b.clearTurnaround_room now r q]
    by_cases hq : q = r
    · subst hq
      by_cases hm : q ∈ rs <;> simp [hm, Option.filter_filter]
    · by_cases hm : q ∈ rs <;> simp [hq, hm]

/-- Clearing turnaround-until fields touches the room table alone. -/
theorem Records.clearTurnarounds_eq (b : Records) (now : Nat) (rs : List RoomNo) :
    b.clearTurnarounds now rs = { b with rooms := (b.clearTurnarounds now rs).rooms } := by
  induction rs generalizing b with
  | nil => rfl
  | cons r rs ih =>
    have step : b.clearTurnarounds now (r :: rs) = (b.clearTurnaround now r).clearTurnarounds now rs := rfl
    rw [step, ih, b.clearTurnaround_eq now r]

/-! ## Kitchens -/

/-- The active level formed is the override, else the reported level of an online terminal, else the fallback. -/
theorem Kitchen.formLevel_eq (k : Kitchen) :
    k.formLevel = k.override.getD (if k.online then k.reported.getD k.fallback else k.fallback) := by
  unfold Kitchen.formLevel
  cases k.override <;> cases k.online <;> cases k.reported <;> rfl

/-- The capacity of a kitchen differs between two forms exactly when it does at some window start time. -/
theorem capacityDiffers_iff (k k' : Kitchen) :
    capacityDiffers k k' = true ↔ ∃ i, i < 48 ∧ k.capacityAt (30 * i) ≠ k'.capacityAt (30 * i) := by
  simp [capacityDiffers]

/-- Kitchen `k` with its active level formed again is replaced as `Records.KitchenReplaced` says, and nothing else
changes. -/
theorem Records.reformLevel_replaced (b : Records) (c : Clock) (k : KitchenNo) (k' : Kitchen) :
    b.KitchenReplaced (b.reformLevel c k k') c k { k' with active := k'.formLevel } := by
  have ht : (capacityDiffers (b.kitchen k) { k' with active := k'.formLevel } && b.triggersAct c) = true ↔
      (∃ i, i < 48 ∧ (b.kitchen k).capacityAt (30 * i) ≠
        ({ k' with active := k'.formLevel } : Kitchen).capacityAt (30 * i)) ∧
      b.pool.state = .ready ∧ c.state ≠ .unset := by
    simp [capacityDiffers, Records.triggersAct]
  simp only [Records.KitchenReplaced, ← ht, Records.reformLevel, Records.changeKitchen]
  refine ⟨fun h => ?_, fun h => ?_, fun q hq => ?_, ?_, ?_⟩
  · rw [if_neg h]; split <;> simp
  · rw [if_pos h]
    have : ∀ x : Kitchen, x.capacityTrigger c.w0 =
        if x.pass = .idle then { x with pass := .shedding (c.minute / 30 + 1) } else { x with restart := true } := by
      intro x; unfold Kitchen.capacityTrigger; split <;> simp_all [Clock.w0, windowOf]
    split <;> simp [this]
  · split <;> split <;> simp [Records.setKitchen_kitchen_other _ _ hq]
  · split <;> split <;> rfl
  · split <;> split <;> rfl

/-! ## The ticket queue -/

/-- A void joins behind the last void that waits, or ahead of every ticket when none waits. -/
theorem insertVoid_eq (sl : SlotNo) (l : List QueueEntry) :
    ∃ front back : List QueueEntry, l = front ++ back ∧
      insertVoid sl l = front ++ { slot := sl, asVoid := true } :: back ∧
      (∀ e ∈ back, e.asVoid = false) ∧ ∀ e, front.getLast? = some e → e.asVoid = true := by
  induction l with
  | nil => exact ⟨[], [], rfl, rfl, by simp, by simp⟩
  | cons x xs ih =>
    by_cases h : (x :: xs).any QueueEntry.asVoid = true
    · obtain ⟨front, back, h1, h2, h3, h4⟩ := ih
      refine ⟨x :: front, back, by simp [h1], by simp only [insertVoid, h, if_true, h2, List.cons_append], h3, ?_⟩
      intro e he
      cases front with
      | cons y ys => exact h4 e (by simpa [List.getLast?_cons_cons] using he)
      | nil =>
        obtain rfl : x = e := by simpa using he
        rcases List.any_eq_true.mp h with ⟨y, hy, hv⟩
        rcases List.mem_cons.mp hy with rfl | hy
        · exact hv
        · rw [h1, List.nil_append] at hy
          exact absurd hv (by simp [h3 y hy])
    · refine ⟨[], x :: xs, rfl, by simp only [insertVoid, h, List.nil_append]; rfl, fun e he => ?_, by simp⟩
      have := mt (fun hv => List.any_eq_true.mpr ⟨e, he, hv⟩) h
      simpa using this

/-! ## Chains, places, the ring and annex chains -/

/-- A slot stands in a chain behind the bookings that start no later and ahead of the first that starts later. -/
theorem Records.insertInChain_eq (b : Records) (sl : SlotNo) (start : Nat) (l : List SlotNo) :
    ∃ front back : List SlotNo, l = front ++ back ∧ b.insertInChain sl start l = front ++ sl :: back ∧
      (∀ y ∈ front, ∀ k, b.booking? y = some k → k.start ≤ start) ∧
      ∀ y, back.head? = some y → ∃ k, b.booking? y = some k ∧ start < k.start := by
  induction l with
  | nil => exact ⟨[], [], rfl, rfl, by simp, by simp⟩
  | cons x xs ih =>
    obtain ⟨front, back, rfl, h2, h3, h4⟩ := ih
    cases hx : b.booking? x with
    | none =>
      exact ⟨x :: front, back, rfl, by simp [Records.insertInChain, hx, h2], by simpa [hx] using h3, h4⟩
    | some k =>
      by_cases hk : start < k.start
      · exact ⟨[], x :: (front ++ back), rfl, by simp [Records.insertInChain, hx, hk], by simp, by simp [hx, hk]⟩
      · refine ⟨x :: front, back, rfl, by simp [Records.insertInChain, hx, hk, h2], ?_, h4⟩
        simpa [hx] using ⟨by omega, h3⟩

/-- The order of places: by class, then stamp, then slot. -/
theorem WaitPlace.ahead_iff (p q : WaitPlace) :
    p.ahead q = true ↔ p.cls.rank < q.cls.rank ∨ (p.cls.rank = q.cls.rank ∧
      (p.stamp < q.stamp ∨ (p.stamp = q.stamp ∧ p.slot < q.slot))) := by
  simp [WaitPlace.ahead]

/-- Committing to a window leaves the windows that fall on other ring entries as they were. -/
theorem Kitchen.commit_committed_other (k : Kitchen) {v w : Nat} (u : Nat) (h : w % 336 ≠ v % 336) :
    (k.commit w u).committed v = k.committed v := by
  simp [Kitchen.committed, Kitchen.commit, Kitchen.entry, h]; rfl

@[simp] theorem Kitchen.commit_committed_same (k : Kitchen) (w u : Nat) : (k.commit w u).committed w = u := by
  simp [Kitchen.committed, Kitchen.commit, Kitchen.entry]

/-- Committing touches the ring alone. -/
theorem Kitchen.commit_eq (k : Kitchen) (w u : Nat) : k.commit w u = { k with ring := (k.commit w u).ring } := rfl

/-- Adding shares touches the ring alone, and there the windows of the shares. -/
theorem Kitchen.addShares_frame (l : List (Nat × Nat)) (k : Kitchen) :
    k.addShares l = { k with ring := (k.addShares l).ring } ∧
      ∀ v, (∀ p ∈ l, p.1 % 336 ≠ v % 336) → (k.addShares l).committed v = k.committed v := by
  induction l generalizing k with
  | nil => exact ⟨rfl, fun _ _ => rfl⟩
  | cons p l ih =>
    have step : k.addShares (p :: l) = (k.commit p.1 (k.committed p.1 + p.2)).addShares l := rfl
    obtain ⟨h1, h2⟩ := ih (k.commit p.1 (k.committed p.1 + p.2))
    refine ⟨by rw [step, h1]; rfl, fun v hv => ?_⟩
    rw [step, h2 v fun q hq => hv q (List.mem_cons_of_mem _ hq),
      k.commit_committed_other _ (hv p (List.mem_cons_self ..))]

/-- Reading the windows tested touches the ring alone, and there the windows of the shares. -/
theorem Kitchen.touchTested_frame (l : List (Nat × Nat)) (k : Kitchen) :
    k.touchTested l = { k with ring := (k.touchTested l).ring } ∧
      ∀ v, (∀ p ∈ l, p.1 % 336 ≠ v % 336) → (k.touchTested l).committed v = k.committed v := by
  induction l generalizing k with
  | nil => exact ⟨rfl, fun _ _ => rfl⟩
  | cons p l ih =>
    have step : k.touchTested (p :: l) = (if p.2 = 0 then k else k.touch p.1).touchTested l := rfl
    obtain ⟨h1, h2⟩ := ih (if p.2 = 0 then k else k.touch p.1)
    refine ⟨by rw [step, h1]; split <;> rfl, fun v hv => ?_⟩
    rw [step, h2 v fun q hq => hv q (List.mem_cons_of_mem _ hq)]
    split
    · rfl
    · exact k.commit_committed_other _ (hv p (List.mem_cons_self ..))

/-- Releasing shares touches the ring alone, and there the windows not yet begun of the shares. -/
theorem Kitchen.subShares_frame (w0 : Nat) (l : List (Nat × Nat)) (k : Kitchen) :
    k.subShares w0 l = { k with ring := (k.subShares w0 l).ring } ∧
      ∀ v, (∀ p ∈ l, w0 < p.1 → p.1 % 336 ≠ v % 336) → (k.subShares w0 l).committed v = k.committed v := by
  induction l generalizing k with
  | nil => exact ⟨rfl, fun _ _ => rfl⟩
  | cons p l ih =>
    have step : k.subShares w0 (p :: l) =
        (if w0 < p.1 then k.commit p.1 (k.committed p.1 - p.2) else k).subShares w0 l := rfl
    obtain ⟨h1, h2⟩ := ih (if w0 < p.1 then k.commit p.1 (k.committed p.1 - p.2) else k)
    refine ⟨by rw [step, h1]; split <;> rfl, fun v hv => ?_⟩
    rw [step, h2 v fun q hq => hv q (List.mem_cons_of_mem _ hq)]
    split
    · exact k.commit_committed_other _ (hv p (List.mem_cons_self ..) ‹_›)
    · rfl

/-- Releasing shares in windows up to w0 + 335 subtracts from each window not yet begun the units held in it. -/
theorem Kitchen.subShares_committed (w0 : Nat) (l : List (Nat × Nat)) (k : Kitchen) (hl : ∀ p ∈ l, p.1 ≤ w0 + 335)
    (v : Nat) (h0 : w0 ≤ v) (h1 : v ≤ w0 + 335) :
    (k.subShares w0 l).committed v =
      k.committed v - if w0 < v then ((l.filter fun x => decide (x.1 = v)).map fun x => x.2).sum else 0 := by
  induction l generalizing k with
  | nil => simp [Kitchen.subShares]
  | cons p l ih =>
    have step : k.subShares w0 (p :: l) =
        (if w0 < p.1 then k.commit p.1 (k.committed p.1 - p.2) else k).subShares w0 l := rfl
    have hp := hl p (List.mem_cons_self ..)
    rw [step, ih _ fun q hq => hl q (List.mem_cons_of_mem _ hq)]
    by_cases hv : p.1 = v
    · by_cases hw : w0 < v
      · subst hv; simp [hw]; omega
      · simp [hv, hw]
    · have e : (p :: l).filter (fun x => decide (x.1 = v)) = l.filter fun x => decide (x.1 = v) := by simp [hv]
      rw [e]
      by_cases hw : w0 < p.1
      · rw [if_pos hw, k.commit_committed_other _ (by omega)]
      · rw [if_neg hw]

/-- An order returned during CLEARING leaves its waitlist and queue, its shares are released, its slot is returned. -/
theorem Records.clearOrder_eq (b : Records) (c : Clock) (sl : SlotNo) :
    b.clearOrder c sl =
      match (b.slot sl).body with
      | .order o =>
        ({ b with
          kitchens := b.kitchens.set o.kitchen.val
            (({ b.kitchen o.kitchen with
                waitlist := (b.kitchen o.kitchen).waitlist.filter fun y => decide (y ≠ sl) } : Kitchen).subShares
                  (c.minute / 30) o.shares)
          queues := b.queues.set o.kitchen.val
            { b.queue o.kitchen with
              entries := (b.queue o.kitchen).entries.filter fun e => decide (e.slot ≠ sl) } } : Records).returnSlot sl
      | _ => b := by
  unfold Records.clearOrder Records.order?
  cases h : (b.slot sl).body with
  | free => rfl
  | booking k => rfl
  | order o =>
    simp only [Records.leaveWaitlist, Records.leaveQueue, Records.releaseShares, Records.setKitchen, Records.setQueue,
      Records.kitchen, Records.queue, Clock.w0, windowOf, Vector.getElem_set_self, Vector.set_set]

/-- The settlement of an annex chain, one order after another with the two numbers counted. -/
theorem Records.settleAll_eq_foldl (b : Records) (c : Clock) (l : List SlotNo) :
    b.settleAll c l = l.foldl (fun p sl =>
      let r := p.1.settleOrder c sl
      (r.1, p.2.1 + (if r.2 = .freed then 1 else 0), p.2.2 + if r.2 = .voiding then 1 else 0)) (b, 0, 0) := by
  suffices h : ∀ (l : List SlotNo) (b : Records) (n m : Nat), l.foldl (fun p sl =>
      let r := p.1.settleOrder c sl
      (r.1, p.2.1 + (if r.2 = .freed then 1 else 0), p.2.2 + if r.2 = .voiding then 1 else 0)) (b, n, m) =
      ((b.settleAll c l).1, n + (b.settleAll c l).2.1, m + (b.settleAll c l).2.2) by
    rw [h]; simp
  intro l
  induction l with
  | nil => intro b n m; rfl
  | cons x xs ih =>
    intro b n m
    rw [List.foldl_cons, ih]
    rcases hs : b.settleOrder c x with ⟨b', st⟩
    cases st <;> simp [Records.settleAll, hs] <;> omega

/-- A room placed in an ascending list is added to its rooms. -/
theorem mem_insertRoom (r x : RoomNo) (l : List RoomNo) : r ∈ insertRoom x l ↔ r = x ∨ r ∈ l := by
  induction l with
  | nil => simp [insertRoom]
  | cons y ys ih =>
    unfold insertRoom
    split
    · simp
    · split
      · simp_all
      · simp only [List.mem_cons, ih]; exact or_left_comm

/-- A list of rooms as a set holds its rooms. -/
theorem mem_roomSet (r : RoomNo) (l : List RoomNo) : r ∈ roomSet l ↔ r ∈ l := by
  induction l with
  | nil => simp [roomSet]
  | cons x xs ih => simpa [roomSet, mem_insertRoom] using or_congr_right ih

/-- A room placed in an ascending list keeps it ascending. -/
theorem insertRoom_sorted (r : RoomNo) {l : List RoomNo} (h : l.Pairwise (· < ·)) :
    (insertRoom r l).Pairwise (· < ·) := by
  induction l with
  | nil => simp [insertRoom]
  | cons y ys ih =>
    obtain ⟨h1, h2⟩ := List.pairwise_cons.mp h
    unfold insertRoom
    split
    · rename_i hr
      refine List.pairwise_cons.mpr ⟨fun z hz => ?_, h⟩
      rcases List.mem_cons.mp hz with rfl | hz
      · exact hr
      · exact lt_trans hr (h1 z hz)
    · rename_i hr
      split
      · exact h
      · rename_i hn
        refine List.pairwise_cons.mpr ⟨fun z hz => ?_, ih h2⟩
        rcases (mem_insertRoom ..).mp hz with rfl | hz
        · exact lt_of_le_of_ne (not_lt.mp hr) (Ne.symm hn)
        · exact h1 z hz

/-- A list of rooms as a set is ascending. -/
theorem roomSet_sorted (l : List RoomNo) : (roomSet l).Pairwise (· < ·) := by
  induction l with
  | nil => exact List.Pairwise.nil
  | cons x xs ih => exact insertRoom_sorted x ih

/-- Changing the memberships of the rooms of a list by `f` keeps every attribute, keeps the memberships of the other
rooms, and applies `f` at least once to those of the list. -/
theorem Records.mapMemberships_room (f : List RoomNo → List RoomNo) (ms : List RoomNo) (b : Records) (m : RoomNo) :
    ((b.mapMemberships ms f).room m).attrs = (b.room m).attrs ∧
    (m ∉ ms → ((b.mapMemberships ms f).room m).memberships = (b.room m).memberships) ∧
    (m ∈ ms → ∃ n, ((b.mapMemberships ms f).room m).memberships = f^[n + 1] (b.room m).memberships) := by
  induction ms generalizing b with
  | nil => exact ⟨rfl, fun _ => rfl, by simp⟩
  | cons x xs ih =>
    have step : b.mapMemberships (x :: xs) f =
      (b.setRoom x { (b.room x) with memberships := f (b.room x).memberships }).mapMemberships xs f := rfl
    obtain ⟨h1, h2, h3⟩ := ih (b.setRoom x { (b.room x) with memberships := f (b.room x).memberships })
    by_cases hm : m = x
    · subst hm
      refine ⟨by rw [step, h1]; simp, by simp, fun _ => ?_⟩
      by_cases hx : m ∈ xs
      · obtain ⟨n, hn⟩ := h3 hx
        exact ⟨n + 1, by rw [step, hn]; simp [Function.iterate_succ]⟩
      · exact ⟨0, by rw [step, h2 hx]; simp⟩
    · refine ⟨by rw [step, h1, b.setRoom_room_other _ hm], fun h => ?_, fun h => ?_⟩
      · rw [step, h2 (by simp_all), b.setRoom_room_other _ hm]
      · obtain ⟨n, hn⟩ := h3 (by simp_all)
        exact ⟨n, by rw [step, hn, b.setRoom_room_other _ hm]⟩

/-! ## The sweep (R153) -/

/-- Some node of a line is configured exactly when the choice of the next node is made. -/
theorem Line.any_configured (l : Line) :
    l.nodes.toList.any Node.configured = true ↔ ∃ m : NodeNo, (l.node m).kind ≠ .unused := by
  have key : ∀ x : Node, x.configured = true ↔ x.kind ≠ .unused := fun x => by
    unfold Node.configured; cases x.kind <;> simp
  simp only [List.any_eq_true, Vector.mem_toList_iff, Vector.mem_iff_getElem, key]
  exact ⟨fun ⟨_, ⟨i, hi, e⟩, h⟩ => ⟨⟨i, hi⟩, by subst e; exact h⟩, fun ⟨m, h⟩ => ⟨_, ⟨m.val, m.isLt, rfl⟩, h⟩⟩

/-- No node is left in the present sweep exactly when none above the position is to be visited. -/
theorem Line.nextInSweep_none (l : Line) :
    l.nextInSweep = none ↔ ∀ m, (∀ p, l.sweepPos = some p → p < m) → (l.node m).due l.sweepCount = false := by
  unfold Line.nextInSweep
  rw [List.find?_eq_none]
  refine forall_congr' fun m => ?_
  cases l.sweepPos <;> simp

/-- What the choice of a line can do: the sweeps without a node to visit end one by one, and nothing else changes. -/
theorem Line.choose_fst (fuel : Nat) (l : Line) : ∃ j ≤ fuel,
    (Line.choose fuel l).1 = (Line.endSweep^[j]) l ∧
    (∀ i < j, ((Line.endSweep^[i]) l).nextInSweep = none) ∧
    (j < fuel → ((Line.endSweep^[j]) l).nextInSweep ≠ none) := by
  induction fuel generalizing l with
  | zero => exact ⟨0, le_refl _, rfl, by simp, by simp⟩
  | succ n ih =>
    cases h : l.nextInSweep with
    | some m => exact ⟨0, by omega, by simp [Line.choose, h], by simp, fun _ => by simp [h]⟩
    | none =>
      obtain ⟨j, h1, h2, h3, h4⟩ := ih l.endSweep
      refine ⟨j + 1, by omega, by simp [Line.choose, h, h2], fun i hi => ?_, fun hj => ?_⟩
      · cases i with
        | zero => exact h
        | succ i => simpa using h3 i (by omega)
      · simpa using h4 (by omega)

/-- The slots listed from a number up are the numbers in ascending order. -/
theorem slotsFrom_val (count start : Nat) (h : start + count ≤ 32768) :
    (slotsFrom count start).map Fin.val = List.range' start count := by
  induction count generalizing start with
  | zero => rfl
  | succ n ih =>
    have e : (Fin.ofNat 32768 start).val = start := Nat.mod_eq_of_lt (by omega)
    rw [slotsFrom, List.map_cons, ih _ (by omega), e]; rfl

/-- The slots listed from a number up stand there once each. -/
theorem slotsFrom_nodup (count start : Nat) (h : start + count ≤ 32768) : (slotsFrom count start).Nodup :=
  List.Nodup.of_map Fin.val (by rw [slotsFrom_val _ _ h]; exact List.nodup_range')

/-- The slots listed from a number up are those of its range. -/
theorem mem_slotsFrom (count start : Nat) (h : start + count ≤ 32768) (sl : SlotNo) :
    sl ∈ slotsFrom count start ↔ start ≤ sl.val ∧ sl.val < start + count := by
  rw [← List.mem_range'_1, ← slotsFrom_val _ _ h, List.mem_map]
  exact ⟨fun hs => ⟨sl, hs, rfl⟩, fun ⟨x, hx, e⟩ => Fin.ext e ▸ hx⟩

/-- As many slots are listed from a number up as asked for. -/
theorem slotsFrom_length (count start : Nat) : (slotsFrom count start).length = count := by
  induction count generalizing start with
  | zero => rfl
  | succ n ih => simp [slotsFrom, ih]

/-- A pool linked anew over FREE slots has a lawful free list (R16, R17, R22). -/
theorem Pool.relinked_freeLawful (p : Pool) (h : ∀ sl : SlotNo, p.slots[sl.val].body = .free) :
    p.relinked.FreeLawful :=
  ⟨nofun, fun _ => ⟨slotsFrom_nodup _ _ (by decide), fun sl =>
    ⟨fun _ => h sl, fun _ => (mem_slotsFrom _ _ (by decide) sl).2 ⟨by omega, by omega⟩⟩⟩⟩

end Sys2Proof.Machine
end

