-- ==== Sys2Proof/Laws/PerInstr.lean ====
section
/-! SUPPORT. Laws stated per command. -/

namespace Sys2Proof.Laws.CodeInIndex

open Sys2Proof

/-- The codes of the command index (chapter 11, Command index). -/
def commandIndex : List Nat :=
  [1, 2, 16, 17, 18, 19, 32, 33, 34, 48, 49, 50, 51, 52, 53, 64, 65, 66, 80, 81, 82, 83, 84, 85, 96, 97, 98, 99, 112,
   113, 114, 115, 128, 129, 130]

/-- A command that travels as a frame has a code of the command index; every other row is no server command (R186). -/
def Statement (i : Instr) : Prop := ∀ w, i.wire = some w → w.1.toNat ∈ commandIndex

theorem hardReset : Statement .hardReset := by
  rintro w ⟨⟩

theorem poolInitComplete : Statement .poolInitComplete := by
  rintro w ⟨⟩

theorem elapsedSecond : Statement .elapsedSecond := by
  rintro w ⟨⟩

theorem secondPulse (l : LineNo) : Statement (.secondPulse l) := by
  rintro w ⟨⟩

theorem bkeMinuteAdvance : Statement .bkeMinuteAdvance := by
  rintro w ⟨⟩

theorem minuteWalkStep : Statement .minuteWalkStep := by
  rintro w ⟨⟩

theorem windowRoll (k : KitchenNo) : Statement (.windowRoll k) := by
  rintro w ⟨⟩

theorem sheddingStep (k : KitchenNo) : Statement (.sheddingStep k) := by
  rintro w ⟨⟩

theorem promotingStep (k : KitchenNo) : Statement (.promotingStep k) := by
  rintro w ⟨⟩

theorem closeWalkStep (r : RoomNo) : Statement (.closeWalkStep r) := by
  rintro w ⟨⟩

theorem clearSlotVisit : Statement .clearSlotVisit := by
  rintro w ⟨⟩

theorem clearAllComplete : Statement .clearAllComplete := by
  rintro w ⟨⟩

theorem findRoomsScanStep : Statement .findRoomsScanStep := by
  rintro w ⟨⟩

theorem visitStart (l : LineNo) : Statement (.visitStart l) := by
  rintro w ⟨⟩

theorem panelAnswer (l : LineNo) (frame : List Byte) : Statement (.panelAnswer l frame) := by
  rintro w ⟨⟩

theorem terminalAnswer (l : LineNo) (frame : List Byte) : Statement (.terminalAnswer l frame) := by
  rintro w ⟨⟩

theorem badAnswer (l : LineNo) (frame : List Byte) : Statement (.badAnswer l frame) := by
  rintro w ⟨⟩

theorem visitTimeout (l : LineNo) : Statement (.visitTimeout l) := by
  rintro w ⟨⟩

theorem frameDiscarded (l : LineNo) (frame : List Byte) : Statement (.frameDiscarded l frame) := by
  rintro w ⟨⟩

theorem motionReport (l : LineNo) (n : NodeNo) : Statement (.motionReport l n) := by
  rintro w ⟨⟩

theorem motionCheckIn (l : LineNo) (n : NodeNo) : Statement (.motionCheckIn l n) := by
  rintro w ⟨⟩

theorem checkIn (l : LineNo) (n : NodeNo) : Statement (.checkIn l n) := by
  rintro w ⟨⟩

theorem extend (l : LineNo) (n : NodeNo) : Statement (.extend l n) := by
  rintro w ⟨⟩

theorem release (l : LineNo) (n : NodeNo) : Statement (.release l n) := by
  rintro w ⟨⟩

theorem walkUp (l : LineNo) (n : NodeNo) : Statement (.walkUp l n) := by
  rintro w ⟨⟩

theorem requestResult (l : LineNo) (n : NodeNo) : Statement (.requestResult l n) := by
  rintro w ⟨⟩

theorem terminalReport (a : TerminalReportArgs) : Statement (.terminalReport a) := by
  rintro w ⟨⟩

theorem terminalLoss (k : KitchenNo) : Statement (.terminalLoss k) := by
  rintro w ⟨⟩

theorem noticeRaise (n : RaisedNotice) : Statement (.noticeRaise n) := by
  rintro w ⟨⟩

theorem commandWrite (bytes : List Byte) : Statement (.commandWrite bytes) := by
  rintro w ⟨⟩

theorem overrun (bytes : List Byte) : Statement (.overrun bytes) := by
  rintro w ⟨⟩

theorem readOut (a : ReadOutArgs) : Statement (.readOut a) := by
  rintro w ⟨⟩

theorem ignoredTransaction (bytes : List Byte) : Statement (.ignoredTransaction bytes) := by
  rintro w ⟨⟩

theorem setClock (tag : Byte) (v : Nat) : Statement (.setClock tag v) := by
  rintro w ⟨⟩; simp [commandIndex]

theorem readClock (tag : Byte) : Statement (.readClock tag) := by
  rintro w ⟨⟩; simp [commandIndex]

theorem poolStatus (tag : Byte) : Statement (.poolStatus tag) := by
  rintro w ⟨⟩; simp [commandIndex]

theorem setReserve (tag : Byte) (floor : Nat) : Statement (.setReserve tag floor) := by
  rintro w ⟨⟩; simp [commandIndex]

theorem setHorizon (tag : Byte) (days : Nat) : Statement (.setHorizon tag days) := by
  rintro w ⟨⟩; simp [commandIndex]

theorem clearAll (tag : Byte) : Statement (.clearAll tag) := by
  rintro w ⟨⟩; simp [commandIndex]

theorem writeRoom (tag : Byte) (a : WriteRoomArgs) : Statement (.writeRoom tag a) := by
  rintro w ⟨⟩; simp [commandIndex]

theorem writeRoomRemove (tag : Byte) (room : Nat) : Statement (.writeRoomRemove tag room) := by
  rintro w ⟨⟩; simp [commandIndex]

theorem readRoom (tag : Byte) (room : Nat) : Statement (.readRoom tag room) := by
  rintro w ⟨⟩; simp [commandIndex]

theorem setRoomService (tag : Byte) (inService : Bool) (room : Nat) : Statement (.setRoomService tag inService room) := by
  cases inService <;> (rintro w ⟨⟩; simp [commandIndex])

theorem closeAndCancel (tag : Byte) (room : Nat) : Statement (.closeAndCancel tag room) := by
  rintro w ⟨⟩; simp [commandIndex]

theorem hold (tag : Byte) (a : BookArgs) (holdTime : Nat) : Statement (.hold tag a holdTime) := by
  rintro w ⟨⟩; simp [commandIndex]

theorem book (tag : Byte) (a : BookArgs) : Statement (.book tag a) := by
  rintro w ⟨⟩; simp [commandIndex]

theorem confirm (tag : Byte) (h : Handle) (cls : Option Nat) : Statement (.confirm tag h cls) := by
  rintro w ⟨⟩; simp [commandIndex]

theorem amend (tag : Byte) (a : AmendArgs) : Statement (.amend tag a) := by
  rintro w ⟨⟩; simp [commandIndex]

theorem cancel (tag : Byte) (h : Handle) : Statement (.cancel tag h) := by
  rintro w ⟨⟩; simp [commandIndex]

theorem readBooking (tag : Byte) (h : Handle) : Statement (.readBooking tag h) := by
  rintro w ⟨⟩; simp [commandIndex]

theorem lookupAt (tag : Byte) (room : Nat) (minute : Nat) : Statement (.lookupAt tag room minute) := by
  rintro w ⟨⟩; simp [commandIndex]

theorem listRoom (tag : Byte) (room : Nat) (count : Nat) (after : Option Nat) : Statement (.listRoom tag room count after) := by
  rintro w ⟨⟩; simp [commandIndex]

theorem findRooms (tag : Byte) (a : FindArgs) : Statement (.findRooms tag a) := by
  rintro w ⟨⟩; simp [commandIndex]

theorem writeMenuClass (tag : Byte) (cls : Nat) (weight : Nat) (setup : Nat) (lead : Nat) : Statement (.writeMenuClass tag cls weight setup lead) := by
  rintro w ⟨⟩; simp [commandIndex]

theorem writeBanks (tag : Byte) (kitchen : Nat) (banks : Vector Nat 8) : Statement (.writeBanks tag kitchen banks) := by
  rintro w ⟨⟩; simp [commandIndex]

theorem writeKitchen (tag : Byte) (kitchen : Nat) (opens : Nat) (closes : Nat) (fallback : Nat) : Statement (.writeKitchen tag kitchen opens closes fallback) := by
  rintro w ⟨⟩; simp [commandIndex]

theorem setStaffing (tag : Byte) (kitchen : Nat) (level : Option Nat) : Statement (.setStaffing tag kitchen level) := by
  cases level <;> (rintro w ⟨⟩; simp [commandIndex])

theorem readKitchen (tag : Byte) (kitchen : Nat) : Statement (.readKitchen tag kitchen) := by
  rintro w ⟨⟩; simp [commandIndex]

theorem readWindow (tag : Byte) (kitchen : Nat) (window : Nat) : Statement (.readWindow tag kitchen window) := by
  rintro w ⟨⟩; simp [commandIndex]

theorem order (tag : Byte) (h : Handle) (menuClass : Nat) (headcount : Nat) (delivery : Nat) : Statement (.order tag h menuClass headcount delivery) := by
  rintro w ⟨⟩; simp [commandIndex]

theorem amendOrder (tag : Byte) (a : AmendOrderArgs) : Statement (.amendOrder tag a) := by
  rintro w ⟨⟩; simp [commandIndex]

theorem cancelOrder (tag : Byte) (h : Handle) : Statement (.cancelOrder tag h) := by
  rintro w ⟨⟩; simp [commandIndex]

theorem readOrder (tag : Byte) (h : Handle) : Statement (.readOrder tag h) := by
  rintro w ⟨⟩; simp [commandIndex]

theorem setLine (tag : Byte) (line : Nat) (state : Nat) (timeout : Nat) (refresh : Nat) : Statement (.setLine tag line state timeout refresh) := by
  rintro w ⟨⟩; simp [commandIndex]

theorem restartLine (tag : Byte) (line : Nat) : Statement (.restartLine tag line) := by
  rintro w ⟨⟩; simp [commandIndex]

theorem writeNode (tag : Byte) (line : Nat) (node : Nat) (kind : Nat) (target : Nat) : Statement (.writeNode tag line node kind target) := by
  rintro w ⟨⟩; simp [commandIndex]

theorem readNode (tag : Byte) (line : Nat) (node : Nat) : Statement (.readNode tag line node) := by
  rintro w ⟨⟩; simp [commandIndex]

theorem readNotices (tag : Byte) (indicator : Nat) (number : Nat) : Statement (.readNotices tag indicator number) := by
  rintro w ⟨⟩; simp [commandIndex]

theorem setNoticeMask (tag : Byte) (masks : Vector Byte 18) : Statement (.setNoticeMask tag masks) := by
  rintro w ⟨⟩; simp [commandIndex]

theorem noticeSummary (tag : Byte) : Statement (.noticeSummary tag) := by
  rintro w ⟨⟩; simp [commandIndex]

end Sys2Proof.Laws.CodeInIndex
end

