-- ==== Sys2Proof/Tests/Slice0.lean ====
section
/-! SUPPORT. The model's own tests: ill-formed commands refused by each check, steps of the manual's worked examples on
states built field by field, and a witness for every obligation with hypotheses. -/

namespace Sys2Proof.Tests

open Sys2Proof Sys2Proof.Machine

set_option Elab.async false

/-! ## Helpers -/

/-- The state after a command, which always completes. -/
def after (c : Instr) (s : State) : State :=
  match exec c s with
  | .next t => t
  | .fault _ => s
  | .refused _ => s

/-- The status of the response to a server command. -/
def status (c : Instr) (s : State) : Option Status := (after c s).port.buffer.map fun r => r.status

/-- The payload of the response to a server command, as numbers. -/
def payload (c : Instr) (s : State) : List Nat :=
  ((after c s).port.buffer.map fun r => r.payload.map fun x => x.toNat).getD []

/-- Day 412 at a time of day, the day of the manual's examples. -/
def day (h m : Nat) : Nat := 412 * 1440 + h * 60 + m

/-- The clock made to stand at a minute. -/
def atMinute (m : Nat) (s : State) : State :=
  { s with clk := { state := .running, minute := m, seconds := 0, lastJump := none } }

/-- The pool READY with the slots below `used` taken, the clock UNSET. -/
def ready (used : Nat) : State :=
  let p : Pool := { Pool.reset with
    state := .ready, freeList := slotsFrom (32768 - used) used, freeCount := 32768 - used }
  { State.reset with recs := { Records.reset with pool := p } }

/-- Attributes of building 3: lead 5, grace 10, vacate limit 20, auto-release and motion check-in on. -/
def attrsOf (gap seats : Nat) (members : Option (List RoomNo)) : RoomAttrs :=
  { RoomAttrs.reset with building := 3, seats := seats, gap := gap, vacate := 20, autoRelease := true
                         motionCheckIn := true, members := members }

/-- Room `r` IN_SERVICE with its attributes, memberships and chain. -/
def putRoom (r : RoomNo) (a : RoomAttrs) (memberships : List RoomNo) (chain : List SlotNo) (s : State) : State :=
  let x := { Room.reset with attrs := a, service := .inService, memberships := memberships, chain := chain }
  { s with recs := s.recs.setRoom r x }

/-- The contents of slot `sl`. -/
def put (sl : SlotNo) (x : SlotBody) (s : State) : State := { s with recs := s.recs.setBody sl x }

/-- Node entry `n` of RUNNING line `l`. -/
def putNode (l : LineNo) (n : NodeNo) (x : Node) (s : State) : State :=
  let y := { s.recs.line l with running := true, nodes := (s.recs.line l).nodes.set n.val x }
  { s with recs := s.recs.setLine l y }

/-- A visit in flight at node entry `n` of line `l`. -/
def visiting (l : LineNo) (n : NodeNo) (f : FrameKind) (s : State) : State :=
  { s with recs := s.recs.setLine l { (s.recs.line l) with visit := some { node := n, frame := f, timeout := 5 } } }

/-- An ONLINE node of a kind whose page is up to date. -/
def online (k : NodeKind) : Node := { Node.reset with kind := k, state := .online }

/-- A panel hand-off that waits. -/
def handed (l : LineNo) (n : NodeNo) (r : RoomNo) (x : PanelItem) (s : State) : State :=
  { s with mail := { s.mail with panel := [{ line := l, node := n, room := r, item := x }] } }

/-- The minute walk about to visit room `r`. -/
def walkAt (r : RoomNo) (s : State) : State := { s with walk := { next := some r, rewalk := false } }

/-- A title. -/
def someTitle : Text := Vector.replicate 16 77

/-- A BOOKED booking of class STANDARD. -/
def booked (r : RoomNo) (start stop : Nat) : Booking :=
  { room := r, start := start, stop := stop, cls := .standard, state := .booked, checkedIn := false,
    checkInMinute := none, holdExpiry := none, extensions := 0, attendees := 4, organizer := 7, title := someTitle,
    annex := [] }

/-- The attributes of a WRITE_ROOM in building 3. -/
def roomArgs (n gap seats : Nat) (members : List Nat) (kitchen : Option Nat) : WriteRoomArgs :=
  { room := n, name := Vector.replicate 16 65, building := 3, seats := seats, kitchen := kitchen, gap := gap, lead := 5,
    grace := 10, vacate := 20, flags := 3, memberCount := members.length,
    memberFields := #v[members.getD 0 0, members.getD 1 0, members.getD 2 0, members.getD 3 0] }

/-- A WRITE_ROOM of building 3. -/
def roomWith (n gap seats : Nat) (members : List Nat) (kitchen : Option Nat) : Instr :=
  .writeRoom 1 (roomArgs n gap seats members kitchen)

/-- The content of a booking of class STANDARD. -/
def meeting (room start stop attendees : Nat) : BookArgs :=
  { room := room, start := start, stop := stop, cls := 1, attendees := attendees, organizer := 7, title := someTitle }

/-- A booking's handle. -/
def bookingOf (slot gen : Nat) : Handle := { kind := 1, gen := BitVec.ofNat 8 gen, slot := slot }

/-- An order's handle. -/
def orderOf (slot gen : Nat) : Handle := { kind := 2, gen := BitVec.ofNat 8 gen, slot := slot }

/-- A room's bookings: start, end and state. -/
def bookings (r : RoomNo) (s : State) : List (Nat × Nat × BookingState) :=
  (s.recs.chainOf r).map fun x => (x.booking.start, x.booking.stop, x.booking.state)

/-- A panel answer of a node number. -/
def panelFrame (n : Nat) (motion request : Byte) : List Byte :=
  sealFrame (BitVec.ofNat 8 (n + 128)) [9, 0, 2, motion, request]

/-- A terminal answer of a node number: a level and order reports. -/
def terminalFrame (n : Nat) (level : Byte) (reports : List (Byte × Handle)) : List Byte :=
  let p := [level, BitVec.ofNat 8 reports.length] ++ reports.flatMap fun r => r.1 :: handleBytes r.2
  sealFrame (BitVec.ofNat 8 (n + 128)) (10 :: be 2 p.length ++ p)

/-- The results handed back by an event. -/
def results (c : Instr) (s : State) : List PanelResult := (after c s).mail.results.map fun x => x.result

/-- The state of the order in a slot. -/
def orderState (sl : SlotNo) (s : State) : Option OrderState := (s.recs.order? sl).map fun o => o.state

/-! ## States -/

/-- The clock of chapter 1 at minute 593,758 and a number of seconds. -/
def clockAt (seconds : Nat) : State :=
  { State.reset with clk := { state := .running, minute := 593758, seconds := seconds, lastJump := none } }

/-- Hall West (chapter 3) at 10:40, its gaps and seats those of chapters 4 and 6, with `used` slots taken. -/
def hall (used : Nat) (chain42 chain43 : List SlotNo) : State :=
  putRoom 40 (attrsOf 5 24 none) [43, 45] [] <| putRoom 41 (attrsOf 10 30 none) [43, 44, 45] [] <|
  putRoom 42 (attrsOf 0 24 none) [44, 45] chain42 <| putRoom 43 (attrsOf 0 60 (some [40, 41])) [] chain43 <|
  putRoom 44 (attrsOf 0 60 (some [41, 42])) [] [] <| putRoom 45 (attrsOf 15 90 (some [40, 41, 42])) [] [] <|
  atMinute (day 10 40) (ready used)

/-- Hall West with K4 in room 43. -/
def hallK4 : State := put 0 (.booking (booked 43 (day 12 0) (day 13 0))) (hall 1 [] [0])

/-- Hall West with room 43 in another service state. -/
def hall43 (st : Service) (chain : List SlotNo) : State :=
  let s := put 0 (.booking (booked 43 (day 12 0) (day 13 0))) (hall 1 [] chain)
  { s with recs := s.recs.setRoom 43 { (s.recs.room 43) with service := st } }

/-- Room 12 at 08:12 (chapter 4), empty. -/
def room12 : State := putRoom 12 (attrsOf 5 10 none) [] [] (atMinute (day 8 12) (ready 0))

/-- The hold B1 of chapter 4. -/
def holdB1 : Booking := { booked 12 (day 10 0) (day 11 0) with state := .held, holdExpiry := some (day 8 32) }

/-- Room 12 with the hold B1. -/
def room12Held : State :=
  put 0 (.booking holdB1) (putRoom 12 (attrsOf 5 10 none) [] [0] (atMinute (day 8 12) (ready 1)))

/-- Room 12 with B2 and B1. -/
def room12Both : State :=
  put 1 (.booking (booked 12 (day 8 55) (day 9 55))) <| put 0 (.booking holdB1) <|
  putRoom 12 (attrsOf 5 10 none) [] [1, 0] (atMinute (day 8 14) (ready 2))

/-- Room 18 with its panel B-12 (chapter 5) at a minute, its chain the slots 0, 1, 2 with these bookings. -/
def room18 (m : Nat) (p : Booking) : State :=
  put 2 (.booking (booked 18 (day 11 0) (day 12 0))) <| put 1 (.booking (booked 18 (day 9 45) (day 10 30))) <|
  put 0 (.booking p) <| putNode 1 11 (online (.panel 18)) <|
  putRoom 18 (attrsOf 5 8 none) [] [0, 1, 2] (atMinute m (ready 3))

/-- P1 of chapter 5 before its start. -/
def meetingP1 : Booking := booked 18 (day 8 30) (day 9 30)

/-- P1 in use since 08:30, checked in at 08:27. -/
def inUseP1 : Booking := { meetingP1 with state := .inUse, checkedIn := true, checkInMinute := some (day 8 27) }

/-- The walk-up W of chapter 5. -/
def walkupW : Booking :=
  { booked 18 (day 9 25) (day 9 40) with
    cls := .walkup, state := .inUse, checkedIn := true, checkInMinute := some (day 9 25), attendees := 1, organizer := 0
    title := walkupTitle }

/-- Kitchen 2 of chapter 7: level 5 with bank 180, hours 07:00 to 15:00, terminal D-40. -/
def kitchenTwo : Kitchen :=
  { Kitchen.reset with banks := #v[0, 0, 0, 140, 0, 180, 0, 0], opens := 420, closes := 900, fallback := 5, active := 5
                       terminal := some (3, 39) }

/-- Kitchen 2 as `k` at 11:10 with menu class 3; room 7 with a STANDARD booking from 12:00 to 14:00 in slot 0, whose
annex chain is given. -/
def kitchenAt (k : Kitchen) (annex : List SlotNo) (used : Nat) : State :=
  let s := put 0 (.booking { booked 7 (day 12 0) (day 14 0) with annex := annex }) <|
    putNode 3 39 { Node.reset with kind := .terminal 2 } <|
    putRoom 7 { attrsOf 15 20 none with kitchen := some 2 } [] [0] (atMinute (day 11 10) (ready used))
  { s with
    recs := s.recs.setKitchen 2 k
    menu := (s.menu.set 3 { weight := 40, setup := 12, lead := 3 }).set 1 { weight := 16, setup := 0, lead := 1 } }

/-- Kitchen 2 with the committed units of the worked figures. -/
def kitchen2 : State := kitchenAt ((kitchenTwo.commit 19799 120).commit 19800 100) [] 1

/-- The order of headcount 30, class 3 and delivery 12:30. -/
def orderOne : Order :=
  { owner := some (bookingOf 0 0), room := 7, kitchen := 2, menuClass := 3, headcount := 30, delivery := day 12 30,
    load := 87, prepStart := 19799, shares := [(19799, 58), (19800, 29)], admission := some 1, wait := none,
    state := .confirmed }

/-- Kitchen 2 with that order CONFIRMED in slot 1. -/
def ordered : State :=
  put 1 (.order orderOne) (kitchenAt ((kitchenTwo.commit 19799 178).commit 19800 129) [1] 2)

/-- The same order WAITLISTED, the pass engine as given. -/
def waiting (p : PassState) : State :=
  put 1 (.order { orderOne with shares := [], admission := none, wait := some (1, .noFit), state := .waitlisted })
    (kitchenAt { kitchenTwo with waitlist := [1], pass := p, waits := 1 } [1] 2)

/-- The same order in a ticket state, waiting in the ticket queue with a frame in flight or not. -/
def ticketed (st : OrderState) (entries : List QueueEntry) (f : Option (Handle × Bool)) : State :=
  let s := put 1 (.order { orderOne with shares := [], state := st }) (kitchenAt kitchenTwo [1] 2)
  { s with recs := s.recs.setQueue 2 { entries := entries, inFlight := f } }

/-- CLEAR_ALL in flight at a slot. -/
def clearing (s : State) (next n m : Nat) : State :=
  { s with recs := s.recs.clearingAt next n m, port := { s.port with state := .executing (.clearAll 9) true } }

/-- The search of chapter 6 at 11:30, from room 41, H on room 42. -/
def findArgs : FindArgs :=
  { building := some 3, seats := 20, start := day 12 0, stop := day 13 0, fromRoom := 41, combined := true }

/-- That search at a room with the rooms found so far. -/
def searching (next : RoomNo) (found : List RoomNo) : State :=
  { put 0 (.booking (booked 42 (day 11 0) (day 12 5))) (hall 1 [0] []) with
    scan := some { start := day 12 0, stop := day 13 0, building := some 3, seats := 20, combined := true, next := next
                   found := found }
    port := { Port.reset with state := .executing (.findRooms 5 findArgs) true } }

/-! ## Well-formed commands -/

theorem test_wf_set_clock : (Instr.setClock 1 4294967296).wellFormed = false := by decide
theorem test_wf_reserve : (Instr.setReserve 1 65536).wellFormed = false := by decide
theorem test_wf_horizon : (Instr.setHorizon 1 256).wellFormed = false := by decide
theorem test_wf_room : (Instr.readRoom 1 65536).wellFormed = false := by decide
theorem test_wf_remove : (Instr.writeRoomRemove 1 65536).wellFormed = false := by decide
theorem test_wf_service :
    (Instr.setRoomService 1 true 65536).wellFormed = false ∧ (Instr.closeAndCancel 1 65536).wellFormed = false := by
  decide
theorem test_wf_write_room : (roomWith 65536 0 1 [] none).wellFormed = false ∧
    (roomWith 0 256 1 [] none).wellFormed = false ∧ (roomWith 0 0 65536 [] none).wellFormed = false ∧
    (roomWith 0 0 1 [65536] none).wellFormed = false ∧ (roomWith 0 0 1 [] (some 256)).wellFormed = false := by decide
theorem test_wf_book : (Instr.book 1 (meeting 65536 0 0 0)).wellFormed = false ∧
    (Instr.book 1 (meeting 0 4294967296 0 0)).wellFormed = false ∧
    (Instr.book 1 (meeting 0 0 4294967296 0)).wellFormed = false ∧
    (Instr.book 1 (meeting 0 0 0 65536)).wellFormed = false ∧
    (Instr.hold 1 (meeting 0 0 0 1) 256).wellFormed = false := by decide
theorem test_wf_handles : (Instr.cancel 1 (bookingOf 65536 0)).wellFormed = false ∧
    (Instr.readBooking 1 (bookingOf 65536 0)).wellFormed = false ∧
    (Instr.confirm 1 (bookingOf 65536 0) none).wellFormed = false ∧
    (Instr.confirm 1 (bookingOf 0 0) (some 256)).wellFormed = false ∧
    (Instr.cancelOrder 1 (orderOf 65536 0)).wellFormed = false ∧
    (Instr.readOrder 1 (orderOf 65536 0)).wellFormed = false := by decide
theorem test_wf_amend :
    (Instr.amend 1 { handle := bookingOf 0 0, start := some 4294967296, stop := none, attendees := none,
                     title := none }).wellFormed = false ∧
    (Instr.amendOrder 1 { handle := orderOf 0 0, headcount := some 65536, menuClass := none,
                          delivery := none }).wellFormed = false := by decide
theorem test_wf_lookup : (Instr.lookupAt 1 65536 0).wellFormed = false ∧
    (Instr.lookupAt 1 0 4294967296).wellFormed = false ∧ (Instr.listRoom 1 0 256 none).wellFormed = false ∧
    (Instr.listRoom 1 0 1 (some 4294967296)).wellFormed = false := by decide
theorem test_wf_find :
    (Instr.findRooms 1 { building := some 256, seats := 1, start := 0, stop := 15, fromRoom := 0,
                         combined := true }).wellFormed = false := by decide
theorem test_wf_kitchen : (Instr.writeMenuClass 1 256 0 0 1).wellFormed = false ∧
    (Instr.writeBanks 1 0 (Vector.replicate 8 65536)).wellFormed = false ∧
    (Instr.writeKitchen 1 0 65536 0 0).wellFormed = false ∧ (Instr.setStaffing 1 0 (some 256)).wellFormed = false ∧
    (Instr.readKitchen 1 256).wellFormed = false ∧ (Instr.readWindow 1 0 16777216).wellFormed = false ∧
    (Instr.order 1 (bookingOf 0 0) 256 1 0).wellFormed = false := by decide
theorem test_wf_lines : (Instr.setLine 1 256 0 1 10).wellFormed = false ∧ (Instr.restartLine 1 256).wellFormed = false ∧
    (Instr.writeNode 1 0 0 0 65536).wellFormed = false ∧ (Instr.readNode 1 0 256).wellFormed = false ∧
    (Instr.readNotices 1 256 0).wellFormed = false := by decide
theorem test_wf_read_out : (Instr.readOut { clocked := 0, discarded := false }).wellFormed = false := by decide

/-! ## The clock (chapter 1, the clock through a morning start) -/

theorem test_clock_started : (after (.setClock 1 593758) State.reset).clk = (clockAt 0).clk ∧
    (after (.setClock 1 593758) State.reset).port.fresh = false := by decide +kernel
theorem test_clock_advances : (after .elapsedSecond (clockAt 59)).clk.minute = 593759 ∧
    (after .elapsedSecond (clockAt 59)).clk.seconds = 0 ∧
    (after .elapsedSecond (clockAt 59)).mail.bkeAdvances = [(593758, 593759)] ∧
    (after .elapsedSecond (clockAt 59)).mail.pulses[3] = 1 := by decide +kernel
theorem test_clock_jump : status (.setClock 1 593700) (clockAt 3) = some .clockBackward ∧
    (after (.setClock 1 593790) (clockAt 3)).clk =
      { state := .running, minute := 593790, seconds := 0, lastJump := some (593758, 593790) } := by decide +kernel
/-- R7: the second that completes a minute and waits behind SET_CLOCK is not counted; the next one is second 1. -/
theorem test_second_with_set_clock :
    let t := after (.setClock 1 593758) { clockAt 59 with pending := [.elapsedSecond] }
    let u := after .elapsedSecond t
    u.clk = (clockAt 0).clk ∧ u.mail.pulses[0] = 1 ∧ (after .elapsedSecond u).clk = (clockAt 1).clk ∧
    (after .elapsedSecond (after (.setClock 1 593758) (clockAt 59))).clk = (clockAt 1).clk := by decide +kernel
theorem test_read_clock : payload (.readClock 1) (atMinute 593790 State.reset) =
    [1, 9, 15, 126, 0, 1, 156, 1, 254, 0, 77, 81, 0, 0, 0, 0, 0, 0, 0] := by decide +kernel

/-! ## The pool and handles (chapter 2, the free list after hard reset) -/

theorem test_hard_reset : after .hardReset room12Held = State.reset := rfl
theorem test_init_links : (after .poolInitComplete State.reset).recs.pool.state = .ready ∧
    (after .poolInitComplete State.reset).recs.pool.freeCount = 32768 ∧
    (after .poolInitComplete State.reset).recs.pool.freeList.take 3 = [0, 1, 2] := by decide +kernel
theorem test_book_takes_head :
    (after (.book 1 (meeting 12 (day 9 0) (day 10 0) 4)) room12).recs.pool.freeList.take 2 = [1, 2] ∧
    payload (.book 1 (meeting 12 (day 8 17) (day 9 1) 4)) room12 =
      [1, 0, 0, 0] ++ [9, 15, 111] ++ [9, 15, 161] ++ [2, 1] := by decide +kernel
theorem test_cancel_returns_slot : (after (.cancel 1 (bookingOf 0 0)) room12Held).recs.pool.freeList.take 2 = [0, 1] ∧
    (after (.cancel 1 (bookingOf 0 0)) room12Held).recs.slot 0 = { gen := 1, body := .free } := by decide +kernel
theorem test_wrong_kind : status (.readOrder 1 (orderOf 0 0)) room12Held = some .wrongKind ∧
    status (.readBooking 1 (bookingOf 1 0)) ordered = some .wrongKind ∧
    status (.readBooking 1 (bookingOf 32768 0)) room12Held = some .stale ∧
    status (.readBooking 1 (bookingOf 0 1)) room12Held = some .stale := by decide +kernel
theorem test_not_ready : status (.readBooking 1 (bookingOf 0 0)) State.reset = some .notReady ∧
    status (.book 1 (meeting 0 0 0 0)) (ready 0) = some .clockUnset := by decide +kernel
theorem test_pool_status : (payload (.poolStatus 1) ordered).take 3 = [1, 127, 254] := by
  decide +kernel
theorem test_reserve : status (.setReserve 1 4096) (ready 0) = some .badValue ∧
    payload (.setReserve 1 0) (ready 0) = [0, 0, 128, 0, 1] := by decide +kernel
theorem test_horizon : status (.setHorizon 1 0) (ready 0) = some .badValue ∧
    payload (.setHorizon 1 120) (ready 0) = [120] := by decide +kernel
theorem test_horizon_bound :
    status (.book 1 (meeting 12 680349 680400 1)) (atMinute 593950 room12) = some .ok ∧
    status (.book 1 (meeting 12 680350 680400 1)) (atMinute 593950 room12) = some .badTime := by decide +kernel
theorem test_clear_begins : (after (.clearAll 9) room12Held).port.state = .executing (.clearAll 9) true ∧
    (after (.clearAll 9) room12Held).recs.pool.state = .clearing 0 0 0 := by decide +kernel
theorem test_clear_visits :
    (after .clearSlotVisit (clearing room12Held 0 0 0)).recs.pool.state = .clearing 1 1 0 ∧
    ((after .clearSlotVisit (clearing room12Held 0 0 0)).recs.room 12).chain = [] := by decide +kernel
theorem test_clear_completes : (after .clearAllComplete (clearing room12 32768 1 0)).port.buffer =
    some { code := 19, tag := 9, status := .ok, payload := [0, 1, 0, 0] } := by decide +kernel

/-! ## Rooms (chapter 3, a three-section hall) -/

theorem test_hall_conflict_sets : (hall 0 [] []).recs.conflictSet 40 = [40, 43, 45] ∧
    (hall 0 [] []).recs.conflictSet 41 = [41, 43, 44, 45] ∧
    (hall 0 [] []).recs.conflictSet 43 = [40, 41, 43, 44, 45] ∧
    (hall 0 [] []).recs.conflictSet 45 = [40, 41, 42, 43, 44, 45] := by decide +kernel
theorem test_hall_limit : status (roomWith 46 0 60 [41, 42] none) (hall 0 [] []) = some .limit ∧
    status (roomWith 46 0 60 [40, 42] none) (hall 0 [] []) = some .ok := by decide +kernel
theorem test_write_room : ((after (roomWith 46 0 60 [40, 42] none) (hall 0 [] [])).recs.room 42).memberships =
    [44, 45, 46] := by decide +kernel
/-- R34: WRITE_ROOM keeps a passed turnaround-until, which its response reports as READ_ROOM would; READ_ROOM clears it. -/
theorem test_write_room_keeps_turnaround :
    let s := hall43 .outOfService []
    let s := { s with recs := s.recs.setRoom 43 { s.recs.room 43 with turnaround := some (day 10 40) } }
    let t := after (roomWith 43 0 60 [40, 41] none) s
    let u := { t with port := Port.reset }
    (t.recs.room 43).turnaround = some (day 10 40) ∧ ((after (.readRoom 1 43) u).recs.room 43).turnaround = none ∧
    payload (.readRoom 1 43) u = payload (roomWith 43 0 60 [40, 41] none) s := by decide +kernel
theorem test_read_room : ((payload (.readRoom 1 40) (hall 0 [] [])).drop 19).take 6 = [3, 0, 24, 0, 0, 5] := by decide +kernel
theorem test_remove : status (.writeRoomRemove 1 40) (hall 0 [] []) = some .wrongState ∧
    ((after (.writeRoomRemove 1 43) (hall43 .outOfService [])).recs.room 40).memberships = [45] := by decide +kernel
theorem test_service : payload (.setRoomService 1 false 40) (hall 0 [] []) = [2, 0] ∧
    (after (.setRoomService 1 false 40) (hall 0 [] [])).recs.bookable 43 = false := by decide +kernel
theorem test_close : status (.closeAndCancel 1 43) hallK4 = some .started ∧
    ((after (.closeAndCancel 1 43) hallK4).recs.room 43).service = .closing := by decide +kernel
theorem test_close_walk : bookings 43 (after (.closeWalkStep 43) (hall43 .closing [0])) = [] ∧
    ((after (.closeWalkStep 43) (hall43 .closing [])).recs.room 43).service = .outOfService := by decide +kernel

/-! ## Bookings (chapter 4) -/

theorem test_gap_conflict : status (.book 1 (meeting 41 (day 13 5) (day 14 0) 4)) hallK4 = some .conflict ∧
    status (.book 1 (meeting 41 (day 13 10) (day 14 0) 4)) hallK4 = some .ok := by decide +kernel
theorem test_gap_of_set : status (.book 1 (meeting 44 (day 13 0) (day 14 0) 4)) hallK4 = some .ok ∧
    status (.book 1 (meeting 45 (day 13 10) (day 14 0) 4)) hallK4 = some .conflict ∧
    status (.book 1 (meeting 42 (day 12 0) (day 13 0) 4)) hallK4 = some .ok := by decide +kernel
theorem test_hold_rounds : bookings 12 (after (.hold 1 (meeting 12 (day 10 2) (day 11 0) 6) 20) room12) =
    [(day 10 0, day 11 0, .held)] := by decide +kernel
theorem test_book_gap_and_seats :
    status (.book 1 { meeting 12 (day 9 0) (day 10 0) 14 with cls := 2 }) (atMinute (day 8 14) room12Held) =
      some .conflict ∧
    status (.book 1 { meeting 12 (day 8 55) (day 9 55) 14 with cls := 2 }) (atMinute (day 8 14) room12Held) =
      some .warnSeats := by decide +kernel
theorem test_confirm : bookings 12 (after (.confirm 1 (bookingOf 0 0) (some 0)) (atMinute (day 8 20) room12Both)) =
    [(day 8 55, day 9 55, .booked), (day 10 0, day 11 0, .booked)] := by decide +kernel
theorem test_amend_conflict :
    status (.amend 1 { handle := bookingOf 0 0, start := some (day 9 58), stop := some (day 10 50), attendees := none,
                       title := none }) (atMinute (day 8 25) room12Both) = some .conflict := by decide +kernel
theorem test_amend :
    bookings 12 (after (.amend 1 { handle := bookingOf 0 0, start := some (day 10 0), stop := some (day 10 47),
                                   attendees := none, title := none }) (atMinute (day 8 25) room12Both)) =
      [(day 8 55, day 9 55, .booked), (day 10 0, day 10 50, .held)] := by decide +kernel
theorem test_cancel_release : ((after (.cancel 1 (bookingOf 1 0)) (atMinute (day 8 30) room12Both)).recs.room
    12).lastRelease = some (.cancelled, day 8 30) := by decide +kernel
theorem test_hold_expires : status (.confirm 1 (bookingOf 0 0) none) (atMinute (day 8 32) room12Held) = some .stale ∧
    status (.confirm 1 (bookingOf 0 0) none) (atMinute (day 8 31) room12Held) = some .ok := by decide +kernel
theorem test_read_booking : (payload (.readBooking 1 (bookingOf 0 0)) room12Held).take 10 =
    [0, 12, 9, 15, 216, 9, 16, 20, 1, 0] := by decide +kernel

/-! ## The booking day (chapter 5, a morning in room 18) -/

theorem test_walk_arriving : bookings 18 (after .minuteWalkStep (walkAt 18 (room18 (day 8 25) meetingP1))) =
    [(day 8 30, day 9 30, .arriving), (day 9 45, day 10 30, .booked), (day 11 0, day 12 0, .booked)] := by
  decide +kernel
theorem test_walk_begins : (after .bkeMinuteAdvance { room12 with mail := { room12.mail with
    bkeAdvances := [(day 8 11, day 8 12)] } }).walk = { next := some 0, rewalk := false } := by decide +kernel
theorem test_motion : ((after (.motionReport 1 11) (handed 1 11 18 (.motion 3 (day 8 27))
      (room18 (day 8 27) { meetingP1 with state := .arriving }))).recs.room 18).lastMotion = some (day 8 27) := by
  decide +kernel
theorem test_motion_checks_in : ((after (.motionCheckIn 1 11) (handed 1 11 18 .motionCheckIn
      (room18 (day 8 27) { meetingP1 with state := .arriving }))).recs.booking? 0).map (fun k => k.checkInMinute) =
    some (some (day 8 27)) := by decide +kernel
theorem test_check_in : results (.checkIn 1 11) (handed 1 11 18 (.request .checkIn)
      (room18 (day 8 39) { meetingP1 with state := .arriving })) = [.checkedIn] ∧
    results (.checkIn 1 11) (handed 1 11 18 (.request .checkIn) (room18 (day 8 40) inUseP1)) = [.already] := by
  decide +kernel
theorem test_no_show : ((after .minuteWalkStep (walkAt 18 (room18 (day 8 40)
    { meetingP1 with state := .arriving }))).recs.room 18).lastRelease = some (.noShow, day 8 40) := by decide +kernel
theorem test_vacated :
    ((after .minuteWalkStep (walkAt 18 (room18 (day 8 50) inUseP1))).recs.room 18).lastRelease =
      some (.vacated, day 8 50) ∧
    ((after .minuteWalkStep (walkAt 18 (room18 (day 8 49) inUseP1))).recs.room 18).lastRelease = none := by
  decide +kernel
theorem test_walk_up : results (.walkUp 1 11) (handed 1 11 18 (.request .walkUp)
      (room18 (day 9 25) (booked 18 (day 13 0) (day 14 0)))) = [.booked (day 9 40)] := by decide +kernel
/-- R40, R56: with a gap of 0 the ENDED booking leaves 09:30, which the test of the walk-up at 09:32 makes absent. -/
theorem test_walk_up_reads_turnaround :
    let s := handed 1 11 18 (.request .walkUp)
      (put 0 (.booking meetingP1) (putRoom 18 (attrsOf 0 8 none) [] [0, 1, 2] (room18 (day 9 32) meetingP1)))
    results (.walkUp 1 11) s = [.booked (day 9 45)] ∧
    ((after (.walkUp 1 11) s).recs.room 18).lastRelease = some (.ended, day 9 30) ∧
    ((after (.walkUp 1 11) s).recs.room 18).turnaround = none := by decide +kernel
theorem test_extend : results (.extend 1 11) (handed 1 11 18 (.request .extend) (room18 (day 9 38) walkupW)) =
      [.extConflict] ∧
    results (.extend 1 11) (handed 1 11 18 (.request .extend) (room18 (day 9 28)
      { walkupW with start := day 9 10, stop := day 9 25 })) = [.nothing] := by decide +kernel
theorem test_release : results (.release 1 11) (handed 1 11 18 (.request .release) (room18 (day 8 40) inUseP1)) =
    [.released] := by decide +kernel

/-! ## Lookup and search (chapter 6) -/

theorem test_lookup : (payload (.lookupAt 1 12 (day 10 30)) room12Both).take 5 = [1, 1, 0, 0, 0] ∧
    (payload (.lookupAt 1 12 (day 9 58)) room12Both).take 1 = [0] := by decide +kernel
theorem test_list : (payload (.listRoom 1 12 8 (some (day 8 55))) room12Both).take 5 = [1, 1, 0, 0, 0] ∧
    status (.listRoom 1 12 9 none) room12Both = some .badValue := by decide +kernel
theorem test_find_begins : (after (.findRooms 5 findArgs) (hall 0 [] [])).port.state =
      .executing (.findRooms 5 findArgs) true ∧
    (after (.findRooms 5 findArgs) (hall 0 [] [])).scan.map (fun x => x.next) = some 41 := by decide +kernel
theorem test_find_scans : (after .findRoomsScanStep (searching 41 [])).scan.map (fun x => x.found) = some [41] ∧
    (after .findRoomsScanStep (searching 42 [41])).scan.map (fun x => x.found) = some [41] := by decide +kernel

/-! ## Kitchen load and orders (chapters 7 and 8) -/

theorem test_load_units : (computeLoad { weight := 40, setup := 12, lead := 3 } 38 (day 12 30) 19798) =
    some { units := 107, shares := [(19799, 71), (19800, 36)] } := by decide +kernel
theorem test_load_limits : loadUnits { weight := 255, setup := 63, lead := 1 } 250 = 4048 ∧
    (spread 2 3 19804).map (fun x => x.2) = [0, 1, 1] := by decide +kernel
theorem test_order_fits : status (.order 1 (bookingOf 0 0) 3 38 (day 12 30)) kitchen2 = some .waitlisted ∧
    status (.order 1 (bookingOf 0 0) 3 30 (day 12 30)) kitchen2 = some .ok ∧
    ((after (.order 1 (bookingOf 0 0) 3 30 (day 12 30)) kitchen2).recs.kitchen 2).committed 19799 = 178 := by
  decide +kernel
theorem test_order_clamped : status (.order 1 (bookingOf 0 0) 1 300 (day 13 0)) kitchen2 = some .waitlisted ∧
    status (.order 1 (bookingOf 0 0) 0 300 (day 13 0)) kitchen2 = some .clamped := by decide +kernel
theorem test_amend_order :
    status (.amendOrder 1 { handle := orderOf 1 0, headcount := some 38, menuClass := none, delivery := none }) ordered =
      some .noFit ∧
    status (.amendOrder 1 { handle := orderOf 1 0, headcount := some 10, menuClass := none, delivery := none }) ordered =
      some .ok := by decide +kernel
theorem test_cancel_order : payload (.cancelOrder 1 (orderOf 1 0)) ordered = [0] ∧
    ((after (.cancelOrder 1 (orderOf 1 0)) ordered).recs.kitchen 2).committed 19799 = 120 := by decide +kernel
theorem test_read_order : (payload (.readOrder 1 (orderOf 1 0)) ordered).take 6 = [1, 1, 1, 0, 0, 0] := by
  decide +kernel
theorem test_read_window : (payload (.readWindow 1 2 19799) kitchen2).take 12 =
    [0, 77, 87, 1, 156, 2, 178, 0, 0, 180, 0, 120] := by decide +kernel
theorem test_read_kitchen : (payload (.readKitchen 1 2) kitchen2).take 16 =
    [0, 0, 0, 0, 0, 0, 0, 140, 0, 0, 0, 180, 0, 0, 0, 0] := by decide +kernel
theorem test_menu_class : status (.writeMenuClass 1 0 0 64 1) (ready 0) = some .badValue ∧
    payload (.writeMenuClass 1 15 255 63 4) (ready 0) = [255, 63, 4] := by decide +kernel
theorem test_banks : status (.writeBanks 1 2 (Vector.replicate 8 4096)) (ready 0) = some .badValue ∧
    ((after (.writeBanks 1 2 (Vector.replicate 8 4095)) kitchen2).recs.kitchen 2).pass = .shedding 19799 := by
  decide +kernel
theorem test_kitchen_hours : status (.writeKitchen 1 2 420 905 0) (ready 0) = some .badValue ∧
    payload (.writeKitchen 1 2 420 900 3) (ready 0) = [1, 164, 3, 132, 3, 3] := by decide +kernel
theorem test_staffing : payload (.setStaffing 1 2 (some 3)) kitchen2 = [1, 3, 0, 0, 0, 3] ∧
    status (.setStaffing 1 2 (some 8)) (ready 0) = some .badValue := by decide +kernel
theorem test_terminal_report :
    let s := putNode 3 39 (online (.terminal 2)) kitchen2
    let t := after (.terminalReport { kitchen := 2, level := 3 }) s
    (t.recs.kitchen 2).active = 3 ∧ (t.recs.kitchen 2).pass = .shedding 19799 ∧
    ((after (.terminalReport { kitchen := 2, level := 3 }) kitchen2).recs.kitchen 2).active = 5 := by decide +kernel
theorem test_terminal_loss :
    let s := kitchenAt { kitchenTwo with online := true, reported := some 3, active := 3 } [] 1
    ((after (.terminalLoss 2) s).recs.kitchen 2).active = 5 := by decide +kernel
theorem test_shedding :
    let s := { ordered with recs := ordered.recs.setPass 2 (.shedding 19799) }
    ((after (.sheddingStep 2) s).recs.kitchen 2).pass = .shedding 19800 := by decide +kernel
theorem test_shed_order :
    let s := put 1 (.order orderOne) (kitchenAt
      { (kitchenTwo.commit 19799 178).commit 19800 129 with active := 3, pass := .shedding 19799 } [1] 2)
    orderState 1 (after (.sheddingStep 2) s) = some .waitlisted ∧
    ((after (.sheddingStep 2) s).recs.kitchen 2).committed 19799 = 120 := by decide +kernel
theorem test_promoted : orderState 1 (after (.promotingStep 2) (waiting (.promoting none))) = some .confirmed := by
  decide +kernel
theorem test_dispatch :
    let s := atMinute (day 11 30)
      { ordered with mail := { ordered.mail with
          kluAdvances := ordered.mail.kluAdvances.set 2 [(day 11 29, day 11 30)] } }
    orderState 1 (after (.windowRoll 2) s) = some .queued ∧
    ((after (.windowRoll 2) s).recs.queue 2).entries = [{ slot := 1, asVoid := false }] := by decide +kernel
theorem test_ticket : ((after (.visitStart 3) (ticketed .queued [{ slot := 1, asVoid := false }] none)).recs.line
    3).visit.map (fun v => v.frame) = some .ticket := by decide +kernel
theorem test_ticket_answered :
    orderState 1 (after (.terminalAnswer 3 (terminalFrame 40 5 [])) (visiting 3 39 .ticket
      (ticketed .queued [{ slot := 1, asVoid := false }] (some (orderOf 1 0, false))))) = some .ticketed ∧
    orderState 1 (after (.terminalAnswer 3 (terminalFrame 40 5 [(2, orderOf 1 0)])) (visiting 3 39 .poll
      (ticketed .ticketed [] none))) = some .done := by decide +kernel

/-- R158: the answer that brings a terminal back restores its level in the event that raises TERMINAL_BACK. -/
theorem test_terminal_back :
    let t := after (.terminalAnswer 3 (terminalFrame 40 3 [])) (visiting 3 39 .poll kitchen2)
    (t.recs.kitchen 2).active = 3 ∧ (t.recs.kitchen 2).online = true ∧
    t.recs.notices.kitchens[2] = [.terminalBack, .levelChanged] := by decide +kernel
/-- R157, R158: the third miss of an ONLINE terminal takes the kitchen to its fallback level in the same event. -/
theorem test_terminal_silent :
    let s := kitchenAt { kitchenTwo with online := true, reported := some 3, active := 3 } [] 1
    let t := after (.visitTimeout 3)
      (visiting 3 39 .poll (putNode 3 39 { online (.terminal 2) with misses := 2 } s))
    (t.recs.kitchen 2).active = 5 ∧ (t.recs.kitchen 2).online = false ∧
    t.recs.notices.kitchens[2] = [.terminalSilent, .levelChanged] := by decide +kernel
/-- R137, R139: a void joins behind the voids that wait, also where a lost ticket stands ahead of them. -/
theorem test_void_order :
    insertVoid 8 [{ slot := 1, asVoid := false }, { slot := 9, asVoid := true }, { slot := 2, asVoid := false }] =
      [{ slot := 1, asVoid := false }, { slot := 9, asVoid := true }, { slot := 8, asVoid := true },
       { slot := 2, asVoid := false }] ∧
    insertVoid 8 [{ slot := 1, asVoid := false }] = [{ slot := 8, asVoid := true }, { slot := 1, asVoid := false }] := by
  decide

/-! ## Lines and pages (chapters 9 and 10) -/

theorem test_node_written :
    ((after (.writeNode 1 0 1 1 40) (hall 0 [] [])).recs.line 0).node 0 = Node.written (.panel 40) ∧
    status (.writeNode 1 0 1 1 43) (hall 0 [] []) = some .badRoom ∧
    status (.writeNode 1 0 101 1 40) (hall 0 [] []) = some .badNode := by decide +kernel
theorem test_line_running : status (.writeNode 1 1 13 1 18) (room18 (day 8 0) meetingP1) = some .lineRunning := by
  decide +kernel
theorem test_set_line : payload (.setLine 1 0 0 20 110) (ready 0) = [0, 20, 110, 0, 0, 0, 0, 0, 0, 0] := by
  decide +kernel
theorem test_restart : ((after (.restartLine 1 1) (room18 (day 8 0) meetingP1)).recs.line 1).node 11 =
    { online (.panel 18) with state := .unknown, stale := true } := by decide +kernel
theorem test_read_node : (payload (.readNode 1 1 12) (room18 (day 8 0) meetingP1)).take 5 = [1, 1, 0, 18, 1] := by
  decide +kernel
theorem test_three_misses :
    let s := visiting 1 11 .poll (putNode 1 11 { online (.panel 18) with misses := 2 } (room18 (day 8 0) meetingP1))
    ((after (.visitTimeout 1) s).recs.line 1).node 11 =
      { online (.panel 18) with misses := 3, state := .silent } ∧
    (after (.visitTimeout 1) s).recs.notices.rooms[18] = [.panelSilent] := by decide +kernel
theorem test_bad_answer :
    (((after (.badAnswer 1 []) (visiting 1 11 .page (room18 (day 8 0) meetingP1))).recs.line 1).node 11) =
      { online (.panel 18) with misses := 1, stale := true } := by decide +kernel
theorem test_frame_discarded : after (.frameDiscarded 1 [1, 2, 3]) State.reset = State.reset := rfl
theorem test_panel_answer :
    (after (.panelAnswer 1 (panelFrame 12 3 4)) (visiting 1 11 .poll (room18 (day 8 0) meetingP1))).mail.panel.map
      (fun x => x.item) = [.motion 3 (day 8 0), .request .walkUp] := by decide +kernel
theorem test_first_page :
    let s := putNode 1 11 { online (.panel 18) with stale := true } (room18 (day 8 0) meetingP1)
    ((after (.visitStart 1) s).recs.line 1).sent.length = 105 ∧
    ((after (.visitStart 1) s).recs.line 1).sent.take 5 = [12, 2, 0, 99, 5] := by decide +kernel
theorem test_time_change :
    (room18 (day 8 40) inUseP1).recs.timeChange (atMinute (day 8 40) State.reset).clk 18 false = some (day 9 30) := by
  decide +kernel
theorem test_page_recent :
    let s := putRoom 18 (attrsOf 5 8 none) [] [] (atMinute (day 8 49) (ready 0))
    let b := s.recs.setRoom 18 { (s.recs.room 18) with lastRelease := some (.doorRelease, day 8 40) }
    (b.pageBody s.clk 18 false).status = .releasedRecent ∧
    (b.pageBody (atMinute (day 8 50) s).clk 18 false).status = .free := by decide +kernel
theorem test_second_pulse :
    let s := room18 (day 8 0) meetingP1
    (((after (.secondPulse 1) { s with mail := { s.mail with pulses := s.mail.pulses.set 1 1 } }).recs.line 1).node
      11).age = 1 := by decide +kernel
theorem test_request_result :
    let s := room18 (day 9 25) walkupW
    let x : ResultHandoff := { line := 1, node := 11, room := 18, result := .booked (day 9 40) }
    (((after (.requestResult 1 11) { s with mail := { s.mail with results := [x] } }).recs.line 1).node 11) =
      { online (.panel 18) with pendingResult := some (.booked (day 9 40)), stale := true } := by decide +kernel

/-! ## Notices and the port (chapter 11) -/

/-- POOL_LOW raised, every kind masked. -/
def noticed : State := { State.reset with recs := Records.reset.raise (.part .poolLow) }

theorem test_notice_masked : (after (.noticeRaise (.part .poolLow)) State.reset).recs.notices.line = false ∧
    (after (.setNoticeMask 1 (Vector.replicate 18 0)) noticed).recs.notices.line = true := by decide +kernel
theorem test_read_notices : payload (.readNotices 1 2 0) (after (.noticeRaise (.part .clockEnd)) State.reset) =
    [1, 17] ∧ (after (.readNotices 1 2 0) noticed).recs.notices.part = [] := by decide +kernel
theorem test_summary : (payload (.noticeSummary 1) (after (.noticeRaise (.room 5 .vacated)) State.reset)).take 5 =
    [0, 1, 0, 5, 0] := by decide +kernel
theorem test_command_write : (after (.commandWrite (sealFrame 165 [2, 9, 0, 0])) State.reset).port.state =
    .executing (.readClock 9) false := by decide +kernel
theorem test_bad_frames : status (.commandWrite [165, 2, 9]) State.reset = some .badFrame ∧
    status (.commandWrite (sealFrame 165 [3, 9, 0, 0])) State.reset = some .badCommand ∧
    status (.commandWrite (sealFrame 165 [2, 9, 0, 1, 0])) State.reset = some .badFrame := by decide +kernel
theorem test_overrun :
    let s := after (.readClock 1) State.reset
    (after (.overrun [165]) s).port.overrun = true ∧
    (after (.readOut { clocked := 100, discarded := false }) { s with port := { s.port with overrun := true } }).port.overrun =
      false ∧
    (after (.readOut { clocked := 100, discarded := true }) s).port.overrun = true := by decide +kernel
theorem test_filler : (after (.readOut { clocked := 8, discarded := false }) State.reset).port.miso.take 6 = [90, 0, 0, 0, 1, 0] := by decide +kernel
theorem test_ignored : (after (.ignoredTransaction [7]) State.reset).port = Port.reset := by decide +kernel
theorem test_empty_queue : step State.reset = .next State.reset := rfl

/-! ## Witnesses: states and operands that meet the hypotheses of the statements -/

/-- Whether a step answers a next state. -/
def steps (s : State) : Bool :=
  match step s with
  | .next _ => true
  | .fault _ => false
  | .refused _ => false

theorem next_of_steps {s : State} (h : steps s = true) : ∃ t, step s = .next t := by
  unfold steps at h; split at h
  · exact ⟨_, by assumption⟩
  · cases h
  · cases h

/-- What a booking's handle names, once its room is up to date. -/
def named (s : State) (h : Handle) : Option (SlotNo × Booking) := (s.recs.nameBooking s.clk h).2.toOption

/-- What an order's handle names, once its owner's room is up to date. -/
def namedOrder (s : State) (h : Handle) : Option (SlotNo × Order) := (s.recs.nameOrder s.clk h true).2.toOption

/-- Rooms 0 and 1, OUT_OF_SERVICE, and combined room 2 made of them. -/
def smallHall : Records :=
  let member : Room := { Room.reset with service := .outOfService, memberships := [2] }
  let both : Room :=
    { Room.reset with service := .outOfService, attrs := { RoomAttrs.reset with members := some [0, 1] } }
  { Records.reset with rooms := (((Vector.replicate 384 Room.reset).set 0 member).set 1 member).set 2 both }

theorem smallHall_room : ∀ r : RoomNo, (smallHall.room r).memberships = (if r = 0 ∨ r = 1 then [2] else []) ∧
    (smallHall.room r).attrs = { RoomAttrs.reset with members := if r = 2 then some [0, 1] else none } := by
  decide +kernel

theorem smallHall_memberships : smallHall.MembershipsLawful := by
  refine ⟨fun m r => ?_, fun r => ?_, fun r => ?_⟩
  · rw [(smallHall_room m).1, (smallHall_room r).2]; split_ifs <;> simp_all
  · rw [(smallHall_room r).1]; split_ifs <;> simp
  · rw [(smallHall_room r).1, (smallHall_room r).2]; split_ifs <;> simp_all

/-- Kitchen 2 with its terminal at D-40. -/
def oneNode : Records :=
  let line : Line :=
    { Line.reset with nodes := (Vector.replicate 100 Node.reset).set 39 { Node.reset with kind := .terminal 2 } }
  { Records.reset with
    kitchens := (Vector.replicate 8 Kitchen.reset).set 2 { Kitchen.reset with terminal := some (3, 39) }
    lines := (Vector.replicate 4 Line.reset).set 3 line }

theorem oneNode_kind : ∀ (l : LineNo) (n : NodeNo),
    ((oneNode.line l).node n).kind = if l = 3 ∧ n = 39 then .terminal 2 else .unused := by decide +kernel

theorem oneNode_terminal : ∀ k : KitchenNo, (oneNode.kitchen k).terminal = if k = 2 then some (3, 39) else none := by
  decide +kernel

/-- The same kitchen with that terminal ONLINE and line D RUNNING. -/
def oneNodeOnline : Records :=
  (oneNode.setKitchen 2 { (oneNode.kitchen 2) with online := true, reported := some 0 }).setLine 3
    (({ (oneNode.line 3) with running := true } : Line).setNode 39 (online (.terminal 2)))

theorem oneNodeOnline_kind : ∀ (l : LineNo) (n : NodeNo),
    ((oneNodeOnline.line l).node n).kind = if l = 3 ∧ n = 39 then .terminal 2 else .unused := by decide +kernel

theorem oneNodeOnline_terminal : ∀ k : KitchenNo,
    (oneNodeOnline.kitchen k).terminal = (if k = 2 then some (3, 39) else none) ∧
    (oneNodeOnline.kitchen k).online = decide (k = 2) := by
  decide +kernel

theorem oneNodeOnline_up : (oneNodeOnline.line 3).running = true ∧ ((oneNodeOnline.line 3).node 39).state = .online := by
  decide +kernel

/-- The WAITLISTED order of the worked figures. -/
def waitingOne : Order :=
  { orderOne with shares := [], admission := none, wait := some (1, .noFit), state := .waitlisted }

theorem waiting_slot (sl : SlotNo) : ((waiting .idle).recs.slot sl).body =
    if sl = 1 then .order waitingOne
    else if sl = 0 then .booking { booked 7 (day 12 0) (day 14 0) with annex := [1] } else .free := by
  have reset : ∀ n y, ((ready n).recs.slot y).body = .free := fun n y => by
    show ((Vector.replicate 32768 Slot.reset)[y.val]).body = _; rw [Vector.getElem_replicate]; rfl
  unfold waiting put
  simp only
  split_ifs with h1 h0
  · subst h1; simp [waitingOne]
  · subst h0
    rw [Records.setBody_slot_other _ _ h1]
    simp [kitchenAt, put]
  · rw [Records.setBody_slot_other _ _ h1]
    simp only [kitchenAt, put, Records.setKitchen_slot]
    rw [Records.setBody_slot_other _ _ h0]
    simp only [putNode, putRoom, atMinute, Records.setLine_slot, Records.setRoom_slot]
    exact reset 2 sl

theorem waiting_waitlist : ∀ q : KitchenNo, ((waiting .idle).recs.kitchen q).waitlist = if q = 2 then [1] else [] := by
  decide +kernel

theorem waiting_freeLawful : (waiting .idle).recs.pool.FreeLawful := by
  refine ⟨nofun, fun _ => ⟨slotsFrom_nodup 32766 2 (by decide), fun sl => ?_⟩⟩
  show sl ∈ slotsFrom 32766 2 ↔ ((waiting .idle).recs.slot sl).body = .free
  rw [mem_slotsFrom _ _ (by decide), waiting_slot]
  by_cases h1 : sl = 1
  · subst h1; simp
  by_cases h0 : sl = 0
  · subst h0; simp
  have : sl.val ≠ 1 := fun e => h1 (Fin.ext e)
  have : sl.val ≠ 0 := fun e => h0 (Fin.ext e)
  simp only [if_neg h1, if_neg h0, iff_true]; omega

theorem waiting_ordersLawful : (waiting .idle).recs.OrdersLawful := by
  refine ⟨fun sl o h _ => ?_, fun sl k h hk => ?_, fun q => ⟨fun sl => ?_, ?_⟩⟩
  · rw [waiting_slot] at h
    split_ifs at h with h1 h0
    cases h; subst h1
    exact ⟨bookingOf 0 0, 0, _, rfl, rfl, (waiting_slot 0).trans rfl, by simp⟩
  · rw [waiting_slot] at h
    split_ifs at h with h1 h0
    cases h; cases hk
  · rw [waiting_waitlist, waiting_slot]
    constructor
    · intro h
      split_ifs at h with hq
      · obtain rfl := List.mem_singleton.1 h
        subst hq; exact ⟨_, rfl, rfl, rfl⟩
      · cases h
    · rintro ⟨o, h, -, hk⟩
      split_ifs at h with h1 h0
      cases h; subst h1; subst hk; exact List.mem_singleton.2 rfl
  · rw [waiting_waitlist]; split_ifs <;> simp

/-- The visits of CLEAR_ALL past the last slot of an empty pool. -/
def cleared : State := clearing room12 32768 1 0

theorem cleared_slot (sl : SlotNo) : (cleared.recs.slot sl).body = .free := by
  show ((Vector.replicate 32768 Slot.reset)[sl.val]).body = _; rw [Vector.getElem_replicate]; rfl

theorem cleared_lawful : cleared.recs.pool.FreeLawful ∧ cleared.recs.OrdersLawful ∧ cleared.ClearingLawful := by
  have none' : ∀ q : KitchenNo, (cleared.recs.kitchen q).waitlist = [] := by decide +kernel
  refine ⟨⟨nofun, fun _ => ⟨slotsFrom_nodup 32768 0 (by decide), fun sl =>
      ⟨fun _ => cleared_slot sl, fun _ => (mem_slotsFrom 32768 0 (by decide) sl).2 ⟨by omega, by omega⟩⟩⟩⟩,
    ⟨fun sl o h => ?_, fun sl k h => ?_, fun q => ⟨fun sl => ?_, ?_⟩⟩,
    fun h => absurd rfl h, fun n p q _ => ⟨⟨9, rfl⟩, rfl, ?_, fun sl _ => by rw [cleared_slot]; trivial⟩⟩
  · rw [cleared_slot] at h; cases h
  · rw [cleared_slot] at h; cases h
  · rw [none']; exact ⟨nofun, fun ⟨o, h, _⟩ => by rw [cleared_slot] at h; cases h⟩
  · rw [none']; exact List.Pairwise.nil
  · decide +kernel

theorem witness_StepTakesFrontCommand : State.reset.pending = [] ∧
    ({ State.reset with pending := [.hardReset, .elapsedSecond] } : State).pending = .hardReset :: [.elapsedSecond] :=
  ⟨rfl, rfl⟩
theorem witness_CommandFrameRoundTrip :
    (Instr.setClock 255 4294967295).wellFormed = true ∧ (encodeFrame (.setClock 255 4294967295)).isSome = true ∧
    (Instr.listRoom 0 65535 255 none).wellFormed = true ∧ (encodeFrame (.listRoom 0 65535 255 none)).isSome = true := by
  decide +kernel
theorem witness_WrittenCommandReachesOwner : State.reset.port.state = .idle ∧
    (Instr.writeMenuClass 1 255 255 255 255).wellFormed = true ∧
    (encodeFrame (.writeMenuClass 1 255 255 255 255)).isSome = true := by decide +kernel
theorem witness_FailedFrameAnsweredAtOnce : State.reset.port.state = .idle ∧
    ([0, 0] : List Byte) ≠ crcBytes [2, 9, 0, 0] ∧ (crcBytes [3, 9, 0, 0]).length = 2 ∧
    (let rest : List Byte := 0 :: crcBytes [2, 9, 0, 1, 0]
     rest.length = 1 + 2 ∧ rest.drop 1 = crcBytes (2 :: 9 :: 0 :: 1 :: rest.take 1)) ∧
    (let rest : List Byte := [2, 0, 0] ++ crcBytes [32, 9, 0, 3, 2, 0, 0]
     rest.length = 3 + 2 ∧ rest.drop 3 = crcBytes (32 :: 9 :: 0 :: 3 :: rest.take 3) ∧ rest.head? ≠ some 1) ∧
    (let rest : List Byte := [3, 0, 0] ++ crcBytes [34, 9, 0, 3, 3, 0, 0]
     rest.length = 3 + 2 ∧ rest.drop 3 = crcBytes (34 :: 9 :: 0 :: 3 :: rest.take 3) ∧ rest.head? = some 3) := by
  decide +kernel
theorem witness_PortTransactionsByState :
    (after (.readClock 1) State.reset).port.state = .answerReady ∧
    (after (.readClock 1) State.reset).port.buffer.isSome = true ∧
    (after (.commandWrite (sealFrame 165 [2, 9, 0, 0])) State.reset).port.state = .executing (.readClock 9) false ∧
    (Instr.readClock 8).wire.isSome = true ∧ Instr.readClock 8 ≠ .readClock 9 := by decide +kernel
theorem witness_StepKeepsPortLawful :
    let s : State := { after (.readClock 1) State.reset with pending := [.readOut { clocked := 100, discarded := true }] }
    s.port.Lawful ∧ ∃ t, step s = .next t :=
  ⟨by unfold Port.Lawful; decide +kernel, next_of_steps (by decide +kernel)⟩
theorem witness_StepKeepsClockLawful :
    let c : Clock := { state := .running, minute := 16777214, seconds := 59, lastJump := some (5, 16777214) }
    let s : State := { State.reset with clk := c, pending := [.elapsedSecond] }
    let d : Clock := { (clockAt 0).clk with uncounted := true }
    s.clk.Lawful ∧ d.Lawful ∧ ∃ t, step s = .next t :=
  ⟨by simp [Clock.Lawful, Config.maxMinute], by simp [Clock.Lawful, Config.maxMinute, clockAt],
    next_of_steps (by decide +kernel)⟩
theorem witness_StepKeepsPoolLawful :
    (let s : State := { waiting .idle with pending := [.cancelOrder 1 (orderOf 1 0)] }
     s.recs.pool.Lawful ∧ s.recs.pool.FreeLawful ∧ s.recs.OrdersLawful ∧ s.ClearingLawful ∧
     s.recs.pool.state ≠ .initializing ∧ ∃ t, step s = .next t) ∧
    (let s : State := { cleared with pending := [.clearAllComplete] }
     s.recs.pool.FreeLawful ∧ s.recs.OrdersLawful ∧ s.ClearingLawful ∧ ∃ t, step s = .next t) ∧
    Pool.reset.Lawful ∧ Pool.reset.FreeLawful ∧ Pool.reset.state = .initializing :=
  ⟨⟨by unfold Pool.Lawful; decide +kernel, waiting_freeLawful, waiting_ordersLawful,
      ⟨fun h => absurd rfl h, fun _ _ _ h => by cases h⟩, by decide +kernel, next_of_steps (by decide +kernel)⟩,
    ⟨cleared_lawful.1, cleared_lawful.2.1, cleared_lawful.2.2, next_of_steps (by decide +kernel)⟩,
    by unfold Pool.Lawful; decide +kernel, ⟨fun _ => cleared_slot, fun h => absurd rfl h⟩, rfl⟩
theorem witness_StepKeepsKitchensLawful :
    let s : State := { kitchen2 with pending := [.setStaffing 1 2 (some 7)] }
    (∀ k : KitchenNo, (s.recs.kitchen k).Lawful) ∧ (∀ c : Fin 16, s.menu[c.val].Lawful) ∧ ∃ t, step s = .next t :=
  ⟨by unfold Kitchen.Lawful; decide +kernel, by unfold MenuClass.Lawful; decide +kernel,
    next_of_steps (by decide +kernel)⟩
theorem witness_StepKeepsLinesLawful :
    let s : State := { visiting 3 39 .poll { State.reset with recs := oneNode } with pending := [.setLine 1 3 1 20 110] }
    let t := visiting 1 11 .page (putNode 1 11 { online (.panel 18) with misses := 3, state := .silent } State.reset)
    (∀ l : LineNo, (t.recs.line l).Lawful) ∧ (∃ u, step s = .next u) ∧
    ∃ u, step { t with pending := [.visitTimeout 1] } = .next u :=
  ⟨by unfold Line.Lawful Node.Lawful; decide +kernel, next_of_steps (by decide +kernel),
    next_of_steps (by decide +kernel)⟩
theorem witness_StepKeepsNoticeLine :
    let n : Notices := { Notices.reset with part := [.poolLow], masks := Vector.replicate 18 false, line := true }
    let s : State := { State.reset with recs := { Records.reset with notices := n }, pending := [.readNotices 1 2 0] }
    s.recs.notices.Lawful ∧ s.recs.notices.Ordered ∧ ∃ t, step s = .next t :=
  ⟨⟨fun _ => Or.inl ⟨.poolLow, by simp, by simp⟩, fun _ => rfl⟩,
    by unfold Notices.Ordered; decide +kernel, next_of_steps (by decide +kernel)⟩
theorem witness_StepKeepsRoomsLawful :
    let s : State := { State.reset with recs := smallHall, pending := [.writeRoomRemove 1 2] }
    (∀ r : RoomNo, (s.recs.room r).attrs.Lawful) ∧ s.recs.MembershipsLawful ∧ ∃ t, step s = .next t := by
  refine ⟨fun r => ?_, smallHall_memberships, next_of_steps (by decide +kernel)⟩
  show (smallHall.room r).attrs.Lawful
  rw [(smallHall_room r).2]; split_ifs <;> simp [RoomAttrs.Lawful, RoomAttrs.reset]
theorem witness_StepKeepsNodeTable :
    let s : State := { State.reset with recs := oneNodeOnline, pending := [.setLine 1 3 0 5 60] }
    s.recs.NodesLawful ∧ s.recs.TerminalsLawful ∧ (∀ l : LineNo, (s.recs.line l).Lawful) ∧ s.recs.OnlineLawful ∧
    (s.recs.kitchen 2).online = true ∧ ∃ t, step s = .next t := by
  refine ⟨⟨fun l l' n n' h h' => ?_, fun l n r h => ?_⟩, fun k l n => ?_, ?_, fun k h => ?_, rfl,
    next_of_steps (by decide +kernel)⟩
  · simp only [oneNodeOnline_kind] at h h'
    split_ifs at h h' <;> simp_all
  · simp only [oneNodeOnline_kind] at h
    split_ifs at h
  · simp only [oneNodeOnline_kind, oneNodeOnline_terminal]
    split_ifs <;> simp_all [Fin.ext_iff] <;> omega
  · unfold Line.Lawful Node.Lawful; decide +kernel
  · have hk : k = 2 := by simpa [oneNodeOnline_terminal] using h
    exact ⟨3, 39, oneNodeOnline_up.1, by rw [hk]; exact oneNodeOnline_kind 3 39, oneNodeOnline_up.2⟩
theorem witness_OnlyClockEventsMoveClock :
    exec (.poolStatus 1) State.reset = .next (after (.poolStatus 1) State.reset) := rfl
theorem witness_ConfigurationHasOneWriter : Instr.setHorizon 1 120 ≠ .hardReset ∧
    exec (.setHorizon 1 120) State.reset = .next (after (.setHorizon 1 120) State.reset) := ⟨by decide, rfl⟩
theorem witness_ResetAndInitialization :
    State.reset.recs.pool.state = .initializing ∧ (ready 0).recs.pool.state ≠ .initializing := by decide +kernel
theorem witness_ElapsedSecondCountsAndAdvances : State.reset.clk.state ≠ .running ∧
    (clockAt 58).clk.state = .running ∧ (clockAt 58).clk.seconds < 59 ∧ (clockAt 59).clk.seconds = 59 ∧
    (clockAt 59).clk.minute < 16777215 ∧ (clockAt 59).clk.uncounted = false ∧
    (let c := (after (.setClock 1 593758) { clockAt 59 with pending := [.elapsedSecond] }).clk
     c.state = .running ∧ c.uncounted = true) := by decide +kernel
theorem witness_SetClockStartsUnsetClock : State.reset.port.state = .idle ∧ State.reset.clk.state = .unset := ⟨rfl, rfl⟩
theorem witness_SetClockAfterStart : (clockAt 0).port.state = .idle ∧ (clockAt 0).clk.state = .running ∧
    (let s : State := { State.reset with
      clk := { state := .stopped, minute := 16777215, seconds := 0, lastJump := none } }
     s.port.state = .idle ∧ s.clk.state ≠ .unset ∧ s.clk.state = .stopped ∧ s.clk.minute = 16777215) ∧
    (let s : State := { clockAt 59 with pending := [.elapsedSecond] }
     s.port.state = .idle ∧ s.clk.seconds = 59 ∧ s.pending.head? = some .elapsedSecond) := by
  decide +kernel
theorem witness_ReadClockReportsClock : (clockAt 59).port.state = .idle ∧ (clockAt 59).clk.minute ≤ 16777215 ∧
    (clockAt 59).clk.lastJump = none := by decide +kernel
theorem witness_SetReserveAndHorizon :
    (let p := (ready 28673).recs.pool
     (ready 28673).port.state = .idle ∧ p.state = .ready ∧ p.lowArmed = true ∧ p.freeCount ≤ 4095) ∧
    (let p : Pool := { (ready 32703).recs.pool with lowArmed := false }
     p.state = .ready ∧ p.lowArmed = false ∧ 0 + 64 < p.freeCount) ∧
    ((ready 0).recs.pool.state = .ready ∧ ¬ (ready 0).recs.pool.freeCount ≤ 4095) := by decide +kernel
theorem witness_ClearAllBegins : State.reset.port.state = .idle ∧ State.reset.recs.pool.state = .initializing ∧
    (ready 0).port.state = .idle ∧ (ready 0).recs.pool.state = .ready := by decide +kernel
theorem witness_ClearingVisitsAndCompletes :
    (clearing room12Held 0 0 0).recs.pool.state = .clearing (0 : SlotNo).val 0 0 ∧
    (clearing room12Held 0 0 0).recs.booking? 0 = some holdB1 ∧ holdB1.annex = [] ∧
    ((clearing room12Held 32767 0 0).recs.slot 32767).body = .free ∧
    ((clearing ordered 0 0 0).recs.booking? 0).map (fun k => k.annex) = some [1] ∧
    ((clearing (put 2 (.order orderOne) (kitchenAt kitchenTwo [1, 2] 3)) 0 0 0).recs.booking? 0).map
      (fun k => k.annex) = some [1, 2] ∧
    (clearing ordered 0 0 0).recs.order? 1 = some orderOne ∧ orderOne.state ≠ .voiding ∧
    orderState 1 (clearing (ticketed .voiding [] none) 1 1 0) = some .voiding ∧
    (clearing room12 32768 1 0).recs.pool.state = .clearing 32768 1 0 ∧
    (clearing room12 32768 1 0).port.state = .executing (.clearAll 9) true := by decide +kernel
theorem witness_SlotsAreTakenAndReturned :
    (let p := (ready 3).recs.pool
     p.state = .ready ∧ 0 < p.freeCount ∧ p.floor < p.freeCount ∧ p.freeList = 3 :: slotsFrom 32764 4) ∧
    ((ready 32512).recs.pool.freeCount ≤ (ready 32512).recs.pool.floor ∧ 0 < (ready 32512).recs.pool.freeCount) ∧
    (ready 32768).recs.pool.freeCount = 0 ∧ State.reset.recs.pool.state ≠ .ready := by
  refine ⟨⟨rfl, by decide, by decide, rfl⟩, by decide, by decide, by decide⟩
theorem witness_HandlesAreChecked : room12Held.port.state = .idle ∧ room12Held.recs.pool.state = .ready ∧
    room12Held.recs.booking? 0 = some holdB1 ∧ (room12Held.recs.slot 0).gen = (bookingOf 0 0).gen ∧
    holdB1.holdExpiry = some (day 8 32) ∧ room12Held.clk.minute < day 8 32 ∧
    (atMinute (day 8 32) room12Held).clk.minute = day 8 32 ∧ ordered.recs.order? 1 = some orderOne ∧
    ((ready 0).recs.slot 32767).body = .free ∧ (hall43 .closing [0]).recs.booking? 0 =
      some (booked 43 (day 12 0) (day 13 0)) ∧ ((hall43 .closing [0]).recs.room 43).service = .closing ∧
    named room12Held (bookingOf 0 0) = some (0, holdB1) ∧
    (let s := atMinute (day 8 32) room12Held
     ((s.recs.bringUpSet s.clk 12).slot 0).gen = 1) ∧
    orderState 1 (ticketed .voiding [] none) = some .voiding ∧
    ({ ordered.recs with rooms := (hall43 .closing [0]).recs.rooms.set 7 ((hall43 .closing [0]).recs.room 43) }
      : Records).isClosing orderOne.room = true ∧
    (let s := atMinute (day 14 0) ordered
     ((s.recs.bringUp s.clk 7).slot 1).gen = 1) ∧
    (let s := atMinute (day 14 0) (ticketed .ticketed [] none)
     ((s.recs.bringUp s.clk 7).order? 1).map (fun o => o.state) = some .voiding ∧
     ((s.recs.bringUp s.clk 7).slot 1).gen = 0) ∧
    namedOrder ordered (orderOf 1 0) = some (1, orderOne) := by decide +kernel
theorem witness_ReadingCommandsAnswer : kitchen2.port.state = .idle ∧ kitchen2.clk.minute / 30 = 19798 ∧
    19798 ≤ 19799 ∧ 20133 ≤ 19798 + 335 ∧ 19798 + 335 < 20134 := by decide +kernel
theorem witness_LookupAndListUseLivingView : room12Both.port.state = .idle ∧ room12Both.recs.pool.state = .ready ∧
    State.reset.recs.pool.state ≠ .ready := by decide +kernel
theorem witness_ConflictSetsMirror :
    (smallHall.MembershipsLawful ∧ smallHall.conflictSet 0 = [0, 2] ∧ smallHall.conflictSet 2 = [0, 1, 2] ∧
      (smallHall.room 0).attrs.members = none ∧ (smallHall.room 1).attrs.members = none ∧
      (smallHall.room 2).attrs.members = some [0, 1]) ∧
    (∃ t, exec (.poolStatus 1) State.reset = .next t) ∧
    let s : State := { State.reset with recs := smallHall, pending := [.writeRoomRemove 1 2] }
    (∀ r : RoomNo, (s.recs.room r).attrs.Lawful) ∧ s.recs.SetsBounded ∧ ∃ t, step s = .next t := by
  refine ⟨⟨smallHall_memberships, by decide +kernel, by decide +kernel, by decide +kernel, by decide +kernel,
    by decide +kernel⟩, ⟨_, rfl⟩, fun r => ?_, ?_, next_of_steps (by decide +kernel)⟩
  · show (smallHall.room r).attrs.Lawful
    rw [(smallHall_room r).2]; split_ifs <;> simp [RoomAttrs.Lawful, RoomAttrs.reset]
  · show ∀ r : RoomNo, (smallHall.conflictSet r).length ≤ 12
    decide +kernel
theorem witness_ConflictTestKeepsGap :
    hallK4.recs.obstacle (day 10 40) 41 none true (day 13 10) (day 14 0) = none ∧
    hallK4.recs.obstacle (day 10 40) 41 none true (day 13 5) (day 14 0) =
      some (.booking 43 (bookingOf 0 0) (day 12 0) (day 13 0) 10) ∧
    (let b := room12.recs.setRoom 12 { room12.recs.room 12 with turnaround := some (day 8 30) }
     b.obstacle (day 8 12) 12 none true (day 8 25) (day 9 0) = some (.turnaround 12 (day 8 30))) := by decide +kernel
theorem witness_RoomWritten :
    (hall43 .closing []).port.state = .idle ∧ ((hall43 .closing []).recs.room 43).service = .closing ∧
    ((hall 0 [] []).recs.room 43).service = .inService ∧ ((hall 0 [] []).recs.room 46).service = .undefined ∧
    (smallHall.judgeWriteRoom (roomArgs 3 60 500 [] none)).toOption.isSome = true ∧
    (smallHall.judgeWriteRoom (roomArgs 3 60 501 [] none)).toOption = none ∧
    ((hall 0 [] []).recs.judgeWriteRoom (roomArgs 46 0 60 [40, 42] none)).toOption.isSome = true ∧
    (let a := roomArgs 3 60 500 [0, 1] none
     let ms : List RoomNo := [0, 1]
     (smallHall.room 3).service = .undefined ∧ (smallHall.room 3).memberships = [] ∧ (smallHall.room 3).chain = [] ∧
     ms.map Fin.val = a.memberFields.toList.take a.memberCount ∧ ms.Nodup ∧ 3 ∉ ms ∧
     (∀ m ∈ ms, (smallHall.room m).service ≠ .undefined ∧ (smallHall.room m).attrs.members = none) ∧
     (smallHall.judgeWriteRoom a).toOption.isSome = true) ∧
    (smallHall.room 2).attrs.members ≠ none ∧
    (smallHall.judgeWriteRoom (roomArgs 3 60 500 [0, 0] none)).toOption = none ∧
    status (roomWith 46 0 60 [40, 42] none) (putNode 1 11 (online (.panel 46)) (hall 0 [] [])) = some .nodeInUse ∧
    status (roomWith 43 5 60 [40, 41] none) (hall43 .outOfService [0]) = some .roomNotEmpty ∧
    status (roomWith 43 0 60 [41, 40] none) (hall43 .outOfService [0]) = some .ok ∧
    status (roomWith 46 0 60 [41, 42] none) (hall 0 [] []) = some .limit := by decide +kernel
theorem witness_RoomRemovedAndServiceSet :
    (hall43 .closing []).port.state = .idle ∧ (hall43 .closing []).recs.pool.state ≠ .initializing ∧
    ((hall43 .outOfService [0]).recs.room 43).chain ≠ [] ∧ ((hall43 .outOfService []).recs.room 43).chain = [] ∧
    (smallHall.room 0).service = .outOfService ∧ (smallHall.room 0).memberships ≠ [] ∧
    (smallHall.room 2).service = .outOfService ∧ (smallHall.room 2).chain = [] ∧ (smallHall.room 2).memberships = [] ∧
    (∀ (l : LineNo) (n : NodeNo), ((smallHall.line l).node n).kind ≠ .panel 2) ∧
    (let s := putNode 1 11 (online (.panel 3)) State.reset
     let b := s.recs.setRoom 3 { Room.reset with service := .outOfService }
     (b.room 3).service = .outOfService ∧ ((b.line 1).node 11).kind = .panel 3) ∧
    ((hall 0 [] []).recs.room 43).service = .inService := by decide +kernel
theorem witness_CloseWalkRetiresAndCompletes :
    ((hall43 .closing [0]).recs.room 43).service = .closing ∧
    (let b := (hall43 .closing [0]).recs.bringUp (hall43 .closing [0]).clk 43
     (b.room 43).chain = [0] ∧ b.booking? 0 = some (booked 43 (day 12 0) (day 13 0))) ∧
    (((hall43 .closing []).recs.bringUp (hall43 .closing []).clk 43).room 43).chain = [] ∧
    ((hall 0 [] []).recs.room 43).service ≠ .closing := by decide +kernel
theorem witness_BookingMade :
    (let s := room12
     let b := (s.recs.bringUpSet s.clk 12).readTurnarounds s.clk.minute 12
     let st := day 8 10
     s.port.state = .idle ∧ s.recs.pool.state = .ready ∧ s.clk.state ≠ .unset ∧
     (s.recs.room 12).service = .inService ∧ (s.recs.room 12).attrs.members = none ∧
     s.clk.minute / 5 * 5 ≤ st ∧ st + 15 ≤ st + 15 ∧ st + 15 ≤ st + 720 ∧
     st < s.clk.minute + s.recs.pool.horizon * 1440 ∧ b.obstacle s.clk.minute 12 none true st (st + 15) = none ∧
     b.pool.state = .ready ∧ b.pool.freeList.head? = some 0 ∧ b.pool.freeCount ≠ 0 ∧ (b.slot 0).body = .free ∧
     b.pool.floor < b.pool.freeCount ∧ Prio.rank .standard = 1 ∧ 5 ≤ (b.room 12).attrs.grace) ∧
    (((hallK4.recs.bringUpSet hallK4.clk 41).readTurnarounds (day 10 40) 41).obstacle (day 10 40) 41 none true (day 13 5)
      (day 14 0)).isSome = true ∧
    (let s := putRoom 12 (attrsOf 5 10 none) [] [] (atMinute (day 8 12) (ready 32768))
     let b := (s.recs.bringUpSet s.clk 12).readTurnarounds s.clk.minute 12
     b.obstacle s.clk.minute 12 none true (day 8 10) (day 8 25) = none ∧ b.pool.freeCount = 0) ∧
    (let s := putRoom 12 (attrsOf 5 10 none) [] [] (atMinute (day 8 12) (ready 32512))
     let b := (s.recs.bringUpSet s.clk 12).readTurnarounds s.clk.minute 12
     b.pool.freeCount ≠ 0 ∧ b.pool.freeCount ≤ b.pool.floor) := by decide +kernel
theorem witness_BookingConfirmedOrCancelled :
    (State.reset.port.state = .idle ∧ State.reset.recs.pool.state ≠ .ready) ∧
    ((ready 0).port.state = .idle ∧ (ready 0).recs.pool.state = .ready ∧ (ready 0).clk.state = .unset) ∧
    room12Held.port.state = .idle ∧ room12Held.recs.pool.state = .ready ∧ room12Held.clk.state ≠ .unset ∧
    (named room12Held (bookingOf 0 1)) = none ∧ (named room12Held (bookingOf 0 0)) = some (0, holdB1) ∧
    (named room12Both (bookingOf 1 0)).map (fun x => x.2.state) = some .booked ∧
    Prio.rank .casual = 2 ∧ ((hall43 .closing [0]).recs.room 43).service = .closing ∧
    (hall43 .closing [0]).recs.booking? 0 = some (booked 43 (day 12 0) (day 13 0)) ∧
    room12Held.clk.minute + 5 < holdB1.start := by decide +kernel
theorem witness_BookingAmended :
    (State.reset.port.state = .idle ∧ State.reset.recs.pool.state ≠ .ready) ∧
    ((ready 0).port.state = .idle ∧ (ready 0).recs.pool.state = .ready ∧ (ready 0).clk.state = .unset) ∧
    room12Both.port.state = .idle ∧ room12Both.recs.pool.state = .ready ∧ room12Both.clk.state ≠ .unset ∧
    named room12Both (bookingOf 0 0) = some (0, holdB1) ∧
    (let b := (room12Both.recs.nameBooking room12Both.clk (bookingOf 0 0)).1
     b.obstacle (day 8 14) 12 (some 0) false (day 10 0) (day 11 50) = none ∧
     ((b.readTurnarounds (day 8 14) 12).obstacle (day 8 14) 12 (some 0) true (day 9 55) (day 10 50)).isSome = true ∧
     (b.room 12).service = .inService ∧ (b.room 12).attrs.members = none) ∧
    (named ordered (bookingOf 0 0)).map (fun x => x.2.annex) = some [1] ∧ orderOne.delivery + 30 < day 13 5 := by
  decide +kernel
theorem witness_RetirementReleasesRoom : room12Held.recs.booking? 0 = some holdB1 ∧ holdB1.annex = [] ∧
    (ordered.recs.booking? 0).map (fun k => k.annex) = some [1] ∧ ordered.recs.order? 1 = some orderOne := by
  decide +kernel
theorem witness_OrdersSettledByState : ordered.recs.order? 1 = some orderOne ∧ orderOne.state = .confirmed ∧
    orderState 1 (waiting .idle) = some .waitlisted ∧
    (∀ st : OrderState, st = .queued ∨ st = .ticketed ∨ st = .accepted ∨ st = .done ∨ st = .lapsed ∨ st = .voiding →
      orderState 1 (ticketed st [{ slot := 1, asVoid := false }] (some (orderOf 1 0, false))) = some st) ∧
    ((ticketed .queued [{ slot := 1, asVoid := false }] (some (orderOf 1 0, false))).recs.queue 2).inFlight =
      some (orderOf 1 0, false) := by
  refine ⟨by decide +kernel, by decide +kernel, by decide +kernel, ?_, by decide +kernel⟩
  rintro st (rfl | rfl | rfl | rfl | rfl | rfl) <;> decide +kernel
theorem witness_DayTableJudgesBooking :
    let at1 := room18 (day 8 40) { meetingP1 with state := .arriving }
    at1.recs.booking? 0 = some { meetingP1 with state := .arriving } ∧ (at1.recs.room 18).attrs.vacate ≤ 255 ∧
    day 8 30 + (at1.recs.room 18).attrs.grace ≤ at1.clk.minute ∧ at1.clk.lastJump = none ∧
    ((at1.recs.line 1).node 11) = online (.panel 18) ∧ (at1.recs.room 18).attrs.members = none ∧
    (room18 (day 8 50) inUseP1).recs.booking? 0 = some inUseP1 ∧ inUseP1.start + 20 = day 8 50 ∧
    (room18 (day 8 50) inUseP1).recs.lastMotionOf 18 = none ∧ holdB1.holdExpiry = some (day 8 32) ∧
    day 8 32 ≤ holdB1.stop ∧ (at1.recs.room 18).chain = [0, 1, 2] ∧ (at1.recs.slot 3).body = .free ∧
    (room12Both.recs.conflictSet 12) = [12] ∧ (room12Both.recs.room 12).chain = [1, 0] := by decide +kernel
theorem witness_MinuteWalkVisitsRooms : State.reset.mail.bkeAdvances = [] ∧
    (after .elapsedSecond (clockAt 59)).mail.bkeAdvances = (593758, 593759) :: [] ∧ State.reset.walk.next = none ∧
    (walkAt 383 room12).walk.next = some 383 ∧ (walkAt 382 room12).walk.next = some 382 ∧
    ((walkAt 383 room12).recs.room 383).chain = [] := by decide +kernel
theorem witness_PanelHandoffsTaken :
    (let s := handed 1 11 18 (.request .release) (room18 (day 8 40) inUseP1)
     s.mail.panel = [] ++ { line := 1, node := 11, room := 18, item := .request .release } :: [] ∧
     s.recs.pool.state = .ready ∧ s.clk.state ≠ .unset ∧ (s.recs.room 18).service = .inService) ∧
    (let s := handed 1 11 18 .motionCheckIn (room18 (day 8 27) { meetingP1 with state := .arriving })
     let b := s.recs.bringUpSet s.clk 18
     (b.livingView s.clk.minute 18).head?.map (fun x => (x.booking.state, x.booking.checkedIn)) =
       some (.arriving, false) ∧
     (b.room 18).attrs.motionCheckIn = true ∧ (b.room 18).service ≠ .closing) ∧
    (handed 1 11 18 (.motion 1 0) State.reset).mail.panel ≠ [] ∧ State.reset.recs.pool.state ≠ .ready := by
  decide +kernel
theorem witness_PanelRequestsActOnView :
    (let s := room18 (day 9 28) walkupW
     let l := s.recs.livingView s.clk.minute 18
     (l.find? fun x => decide (x.booking.state = .inUse)).map (fun x => x.booking) = some walkupW ∧
     (s.recs.room 18).attrs.members = none ∧ walkupW.extensions < 4 ∧
     s.recs.obstacle s.clk.minute 18 (some 0) false walkupW.start (walkupW.stop + 15) ≠ none) ∧
    (let s := room18 (day 8 40) { meetingP1 with state := .arriving }
     (s.recs.livingView s.clk.minute 18).find? (fun x =>
       decide (x.booking.state = .arriving ∧ x.booking.checkedIn = false)) ≠ none) ∧
    (let s := room18 (day 9 25) (booked 18 (day 13 0) (day 14 0))
     let en := s.recs.walkUpEnd s.clk.minute 18 (day 9 25)
     (∀ x ∈ s.recs.livingView s.clk.minute 18, x.booking.state = .booked) ∧ en = day 9 40 ∧
     (s.recs.readTurnarounds s.clk.minute 18).obstacle s.clk.minute 18 none true (day 9 25) en = none ∧
     s.recs.pool.state = .ready ∧ s.recs.pool.freeList.head? = some 3 ∧ s.recs.pool.freeCount ≠ 0 ∧
     (s.recs.slot 3).body = .free) ∧
    (let k : Booking := { booked 43 (day 12 0) (day 13 0) with state := .inUse }
     let b := (put 0 (.booking k) (hall 1 [] [0])).recs
     let b1 := b.bringUpAll (atMinute (day 12 30) State.reset).clk
       ((b.conflictSet 43).filter fun m => decide (m ∉ b.conflictSet 40))
     ((b.livingView (day 12 30) 40).find? fun x => decide (x.booking.state = .inUse)) =
       some { chainRoom := 43, slot := 0, booking := k } ∧
     (b.room 43).service = .inService ∧ (b.room 43).attrs.members = some [40, 41] ∧
     (b1.slot 0).gen = (b.slot 0).gen ∧ b1.booking? 0 = some k) := by decide +kernel
theorem witness_FindRoomsScans :
    (let s := hall 0 [] []
     s.port.state = .idle ∧ s.recs.pool.state = .ready ∧ s.clk.state ≠ .unset ∧ 1 ≤ findArgs.seats ∧
     findArgs.fromRoom = (41 : RoomNo).val ∧ s.clk.minute / 5 * 5 ≤ findArgs.start ∧
     findArgs.start < s.clk.minute + s.recs.pool.horizon * 1440) ∧
    (searching 383 []).scan.isSome = true ∧
    (searching 383 []).port.state = .executing (.findRooms 5 findArgs) true := by decide +kernel
theorem witness_LoadArithmetic : 1 ≤ ({ weight := 255, setup := 63, lead := 1 } : MenuClass).lead ∧
    computeLoad { weight := 40, setup := 12, lead := 3 } 38 (day 12 30) 19798 =
      some { units := 107, shares := [(19799, 71), (19800, 36)] } := by decide +kernel
theorem witness_KitchenSettingsApplied : kitchen2.port.state = .idle ∧
    (∀ c ∈ (Vector.replicate 8 4095).toList, c ≤ 4095) ∧ (∃ c ∈ (Vector.replicate 8 4096).toList, 4095 < c) ∧
    1440 % 30 = 0 ∧ 0 ≤ 1440 := by decide +kernel
theorem witness_TerminalEventsSetLevel :
    (oneNodeOnline.kitchen 2).terminal = some (3, 39) ∧ (oneNodeOnline.line 3).running = true ∧
    ((oneNodeOnline.line 3).node 39).kind = .terminal 2 ∧ ((oneNodeOnline.line 3).node 39).state = .online ∧
    (oneNode.line 3).running = false ∧ (oneNodeOnline.kitchen 2).Lawful ∧ (oneNodeOnline.kitchen 2).online = true ∧
    (oneNodeOnline.kitchen 2).reported = some 0 := by
  unfold Kitchen.Lawful; decide +kernel
theorem witness_WindowRollDispatchesAndLapses :
    let s := atMinute (day 11 30)
      { waiting .idle with mail := { State.reset.mail with
          kluAdvances := State.reset.mail.kluAdvances.set 2 [(day 11 29, day 11 30)] } }
    s.mail.kluAdvances[(2 : KitchenNo).val] = (day 11 29, day 11 30) :: [] ∧ day 11 29 / 30 ≠ day 11 30 / 30 ∧
    (s.recs.kitchen 2).waitlist = [1] ∧ orderState 1 s = some .waitlisted ∧
    (s.recs.order? 1).map (fun y => y.kitchen) = some 2 ∧
    ordered.recs.order? 1 = some orderOne ∧ orderOne.prepStart ≤ 19799 ∧ orderOne.kitchen = 2 ∧
    (ordered.recs.kitchen 2).waitlist = [] ∧ (∀ h ∈ orderOne.shares, h.1 ≤ 19799 + 335) ∧ 0 < orderOne.shareIn 19800 := by
  refine ⟨rfl, by decide, rfl, rfl, rfl, rfl, by decide, rfl, rfl, by decide, by decide⟩
theorem witness_SheddingStepShedsOneOrder :
    let s := put 1 (.order orderOne) (kitchenAt
      { (kitchenTwo.commit 19799 178).commit 19800 129 with active := 3, pass := .shedding 19799 } [1] 2)
    (s.recs.kitchen 2).pass = .shedding 19799 ∧ (s.recs.kitchen 2).capacity 19799 < (s.recs.kitchen 2).committed 19799 ∧
    s.recs.order? 1 = some orderOne ∧ orderOne.kitchen = 2 ∧ s.clk.minute / 30 < orderOne.prepStart ∧
    0 < orderOne.shareIn 19799 ∧ (s.recs.sheddable 2 19798 19799).map (fun p => p.1) = [1] ∧
    (∀ h ∈ orderOne.shares, h.1 ≤ 19798 + 335) ∧ 19798 + 335 < 20134 ∧ (kitchenTwo.pass = .idle) := by decide +kernel
theorem witness_PromotingStepExaminesOneOrder :
    let s := waiting (.promoting none)
    (s.recs.kitchen 2).pass = .promoting none ∧ (s.recs.kitchen 2).restart = false ∧
    (s.recs.kitchen 2).waitlist = [] ++ 1 :: [] ∧ (s.recs.slot 1).body = .order waitingOne ∧ waitingOne.kitchen = 2 ∧
    s.menu[waitingOne.menuClass.val].lead ≤ 4 ∧
    (kitchenAt { kitchenTwo with pass := .promoting none } [] 1).recs.kitchen 2 =
      { kitchenTwo with pass := .promoting none } ∧ kitchenTwo.waitlist = [] := by decide +kernel
theorem witness_OrderPlaced :
    let s := kitchen2
    let b := (s.recs.nameBooking s.clk (bookingOf 0 0)).1
    s.port.state = .idle ∧ s.recs.pool.state = .ready ∧ s.clk.state ≠ .unset ∧
    (named s (bookingOf 0 0)).map (fun x => (x.1, x.2.state, x.2.annex)) = some (0, .booked, []) ∧
    (b.room 7).attrs.kitchen = some 2 ∧ (b.kitchen 2).terminal ≠ none ∧
    (computeLoad s.menu[3] 30 (day 12 30) 19798).isSome = true ∧ b.pool.freeList.head? = some 1 ∧
    (b.slot 1).body = .free ∧ s.menu[3].lead ≤ 4 ∧ (b.kitchen 2).pass = .idle ∧
    (State.reset.port.state = .idle ∧ State.reset.recs.pool.state ≠ .ready) ∧
    ((ready 0).recs.pool.state = .ready ∧ (ready 0).clk.state = .unset) ∧
    (match (s.recs.nameBooking s.clk (orderOf 0 0)).2 with
      | .error st => decide (st = .wrongKind)
      | .ok _ => false) = true ∧
    (let full := kitchenAt kitchenTwo [] 32768
     let low := kitchenAt kitchenTwo [] 32512
     (named full (bookingOf 0 0)).isSome = true ∧
     (full.recs.nameBooking full.clk (bookingOf 0 0)).1.pool.freeCount = 0 ∧
     (low.recs.nameBooking low.clk (bookingOf 0 0)).1.pool.freeCount = 256 ∧
     (low.recs.nameBooking low.clk (bookingOf 0 0)).1.pool.floor = 256) := by decide +kernel
theorem witness_OrderAmendedOrCancelled :
    (State.reset.port.state = .idle ∧ State.reset.recs.pool.state ≠ .ready) ∧
    ((ready 0).port.state = .idle ∧ (ready 0).recs.pool.state = .ready ∧ (ready 0).clk.state = .unset) ∧
    ordered.port.state = .idle ∧ ordered.recs.pool.state = .ready ∧ ordered.clk.state ≠ .unset ∧
    namedOrder ordered (orderOf 1 0) = some (1, orderOne) ∧ orderOne.owner = some (bookingOf 0 0) ∧
    namedOrder ordered (orderOf 1 1) = none ∧ 19798 < orderOne.prepStart ∧ (ordered.recs.kitchen 2).pass = .idle ∧
    ((namedOrder (waiting .idle) (orderOf 1 0)).map fun x => x.2.state) = some .waitlisted ∧
    ordered.recs.booking? 0 = some { booked 7 (day 12 0) (day 14 0) with annex := [1] } ∧
    (∀ q ∈ orderOne.shares, q.1 ≤ 19798 + 335) ∧ 0 < orderOne.shareIn 19799 ∧
    (computeLoad ordered.menu[3] 10 (day 12 30) 19798).isSome = true ∧ ordered.menu[3].lead ≤ 4 := by decide +kernel
theorem witness_PageFollowsStatusAndTime : ((room12Held.recs.livingView room12Held.clk.minute 12).map
      fun x => x.booking.state) = [.held] ∧
    State.reset.clk.state = .unset ∧ (room18 (day 8 0) meetingP1).clk.state = .running ∧
    ((room18 (day 8 0) meetingP1).recs.room 18).service = .inService ∧
    ((room18 (day 8 40) inUseP1).recs.livingView (day 8 40) 18).head?.map (fun x => x.booking.state) = some .inUse := by
  decide +kernel
theorem witness_TicketFramesSettled :
    (let s := ticketed .queued [{ slot := 1, asVoid := false }] (some (orderOf 1 0, false))
     orderState 1 s = some .queued ∧ (s.recs.queue 2).entries.head?.map (fun e => e.slot) = some 1 ∧
     (s.recs.queue 2).inFlight = some (orderOf 1 (s.recs.slot 1).gen.toNat, false)) ∧
    (let s := ticketed .voiding [{ slot := 1, asVoid := true }] (some (orderOf 1 0, true))
     orderState 1 s = some .voiding ∧ (s.recs.queue 2).inFlight = some (orderOf 1 0, true)) ∧
    orderOf 1 255 ≠ orderOf 1 0 ∧ orderState 1 (ticketed .accepted [] none) = some .accepted ∧
    (let s := ticketed .queued [{ slot := 1, asVoid := false }] (some (orderOf 1 255, false))
     (s.recs.queue 2).inFlight = some (orderOf 1 255, false) ∧
     (s.recs.queue 2).entries.head? = some { slot := 1, asVoid := false } ∧
     orderOf 1 255 ≠ { kind := 2, gen := (s.recs.slot 1).gen, slot := (1 : SlotNo).val } ∧
     (s.recs.slot 5).body = .free ∧ (s.recs.order? 0) = none ∧ (s.recs.booking? 0).isSome = true) ∧
    (∀ sl : SlotNo, (orderOf 40000 0).slot ≠ sl.val) := by
  refine ⟨by decide +kernel, by decide +kernel, by decide +kernel, by decide +kernel, by decide +kernel, fun sl => ?_⟩
  exact (Nat.lt_trans sl.isLt (by decide)).ne'
theorem witness_LineCommandsApplied :
    let s := room18 (day 8 0) meetingP1
    s.port.state = .idle ∧ (s.recs.line 1).running = true ∧ (s.recs.line 0).running = false ∧ 1 ≤ 20 ∧ 110 ≤ 110 ∧
    (oneNodeOnline.line 3).running = true ∧ ((oneNodeOnline.line 3).node 39).kind = .terminal 2 ∧
    ((oneNodeOnline.line 3).node 39).state = .online := by
  decide +kernel
theorem witness_NodeWritten :
    let s := hall 0 [] []
    s.port.state = .idle ∧ (s.recs.line 0).running = false ∧ (s.recs.room 40).service ≠ .undefined ∧
    (s.recs.room 40).attrs.members = none ∧ (s.recs.room 43).attrs.members ≠ none ∧
    (∀ (l : LineNo) (n : NodeNo), ((s.recs.line l).node n).kind ≠ .panel 40) ∧ 100 = (99 : NodeNo).val + 1 ∧
    ((oneNode.line 3).node 39).kind = .terminal 2 ∧ (oneNode.queue 2).entries = [] := by decide +kernel
theorem witness_VisitsBegin :
    (let s := room18 (day 8 0) meetingP1
     (s.recs.line 1).running = true ∧ (s.recs.line 1).visit = none ∧ (s.recs.line 1).sweepCount ≤ 7 ∧
     (s.recs.line 1).sweepPos = none ∧ (∀ n : NodeNo, ((s.recs.line 1).node n).kind ≠ .unused ↔ n = 11) ∧
     ((s.recs.line 1).node 11).state = .online) ∧
    (let s := ticketed .queued [{ slot := 1, asVoid := false }] none
     (s.recs.line 3).running = true ∧ (s.recs.queue 2).entries = { slot := 1, asVoid := false } :: [] ∧
     s.recs.pool.isClearing = false ∧ orderState 1 s = some .queued) := by decide +kernel
theorem witness_AnswersAndLossesEndVisits :
    (let s := visiting 1 11 .page (room18 (day 8 0) meetingP1)
     (s.recs.line 1).visit = some { node := 11, frame := .page, timeout := 5 } ∧
     ((s.recs.line 1).node 11).kind = .panel 18 ∧ goodAnswer 11 (.panel 18) (panelFrame 12 15 4) ≠ none ∧
     goodAnswer 11 (.panel 18) [] = none ∧ (panelFrame 12 15 4).take 4 = [140, 9, 0, 2] ∧
     goodAnswer 11 (.panel 18) (terminalFrame 12 7 []) = none ∧ (terminalFrame 12 7 []).length = 8 ∧
     goodAnswer 11 (.panel 18) [140, 9, 0, 2, 15, 4, 0, 0] = none ∧ (s.recs.line 1).sweepCount ≤ 7) ∧
    (let s := visiting 3 39 .ticket (ticketed .queued [{ slot := 1, asVoid := false }] (some (orderOf 1 0, false)))
     let answer := terminalFrame 40 7 [(2, orderOf 1 0)]
     ((s.recs.line 3).node 39).kind = .terminal 2 ∧ goodAnswer 39 (.terminal 2) (terminalFrame 40 7 []) ≠ none ∧
     answer.length = 8 + 5 * 1 ∧ goodAnswer 39 (.terminal 2) answer ≠ none ∧
     goodAnswer 39 (.terminal 2) (sealFrame 168 [10, 0, 2, 7, 1]) = none) ∧
    (let s := visiting 3 39 .poll (putNode 3 39 { online (.terminal 2) with misses := 2 } kitchen2)
     ((s.recs.line 3).node 39).misses = 2 ∧ ((s.recs.line 3).node 39).state = .online ∧
     (s.recs.line 3).visit = some { node := 39, frame := .poll, timeout := 5 }) ∧
    (State.reset.recs.line 0).visit = none := by decide +kernel
theorem witness_PulsesAndResultsTaken :
    let x : ResultHandoff := { line := 1, node := 11, room := 18, result := .booked (day 9 40) }
    State.reset.mail.pulses[(1 : LineNo).val] = 0 ∧
    (after .elapsedSecond State.reset).mail.pulses[(1 : LineNo).val] = 0 + 1 ∧
    ({ State.reset.mail with results := [x] } : Mail).results = [] ++ x :: [] ∧
    (((room18 (day 8 0) meetingP1).recs.line 1).node 11).kind = .panel 18 := by decide +kernel
theorem witness_NoticesRaisedReadAndMasked : noticed.port.state = .idle ∧ noticed.recs.notices.Ordered ∧
    (∀ m ∈ (Vector.replicate 18 (1 : Byte)).toList, m = 0 ∨ m = 1) ∧
    (∃ m ∈ (Vector.replicate 18 (2 : Byte)).toList, m ≠ 0 ∧ m ≠ 1) := by
  unfold Notices.Ordered; decide +kernel

end Sys2Proof.Tests
end

/-! A server command at its owner: what the port adds to the owner's act (R177), the gate of R2 and R23, and the acts
that change the records alone. -/

namespace Sys2Proof.Machine

open Sys2Proof

/-! ## The port around an act -/

/-- The clock after a server command is the one that the owner's act leaves, or the one that was. -/
theorem State.serve_clk {P : Clock → Prop} {s t : State} {cmd : Instr} {act : State → State × Answer}
    (hs : P s.clk) (hact : P (act s).1.clk) (h : s.serve cmd act = .next t) : P t.clk := by
  unfold State.serve at h
  split at h
  · split at h <;> rename_i ha <;> cases h <;> rwa [ha] at hact
  · cases h; exact hs

/-- A command answered at once on an IDLE port. -/
theorem State.serve_idle_now {s s' : State} {cmd : Instr} {act : State → State × Answer} {st : Status}
    {p : List Byte} (h : s.port.state = .idle) (ha : act s = (s', .now st p)) :
    s.serve cmd act = .next (s'.respond (codeTag cmd).1 (codeTag cmd).2 st p) := by
  rw [State.serve_idle h, ha]

@[simp] theorem State.withRecs_self (s : State) : s.withRecs s.recs = s := rfl

/-! ## The gate (R2, R23) -/

theorem State.gated_notReady {s : State} (h : s.recs.pool.state ≠ .ready) (k : State × Answer) :
    s.gated k = (s, .now .notReady []) := by
  simp [State.gated, refuse, h]

theorem State.gated_unset {s : State} (h : s.recs.pool.state = .ready) (hc : s.clk.state = .unset)
    (k : State × Answer) : s.gated k = (s, .now .clockUnset []) := by
  simp [State.gated, refuse, h, hc]

theorem State.gated_open {s : State} (h : s.recs.pool.state = .ready) (hc : s.clk.state ≠ .unset)
    (k : State × Answer) : s.gated k = k := by
  simp [State.gated, h, hc]

/-! ## Acts that change the records alone -/

/-- `t` is `s` with its records replaced: everything else of the part stands. -/
def State.RecsOnly (s t : State) : Prop := t = s.withRecs t.recs

theorem State.RecsOnly.clk {s t : State} (h : s.RecsOnly t) : t.clk = s.clk := by rw [h]; rfl

theorem State.withRecs_recsOnly (s : State) (b : Records) : s.RecsOnly (s.withRecs b) := rfl

theorem State.recsOnly_self (s : State) : s.RecsOnly s := rfl

theorem State.gated_recsOnly {s : State} {k : State × Answer} (h : s.RecsOnly k.1) : s.RecsOnly (s.gated k).1 := by
  unfold State.gated
  split
  · split
    · exact s.recsOnly_self
    · exact h
  · exact s.recsOnly_self

section RecsOnly

variable (s : State)

theorem State.setReserve_recsOnly (floor : Nat) : s.RecsOnly (s.setReserve floor).1 := by
  unfold State.setReserve; split <;> rfl

theorem State.setHorizon_recsOnly (days : Nat) : s.RecsOnly (s.setHorizon days).1 := by
  unfold State.setHorizon; split <;> rfl

theorem State.writeRoom_recsOnly (a : WriteRoomArgs) : s.RecsOnly (s.writeRoom a).1 := by
  unfold State.writeRoom; split <;> rfl

theorem State.writeRoomRemove_recsOnly (room : Nat) : s.RecsOnly (s.writeRoomRemove room).1 := by
  unfold State.writeRoomRemove
  split
  · rfl
  · dsimp only
    split
    · rfl
    · split
      · rfl
      · split <;> rfl

theorem State.readRoom_recsOnly (room : Nat) : s.RecsOnly (s.readRoom room).1 := by
  unfold State.readRoom; split <;> rfl

theorem State.setRoomService_recsOnly (inService : Bool) (room : Nat) :
    s.RecsOnly (s.setRoomService inService room).1 := by
  unfold State.setRoomService; split <;> rfl

theorem State.closeAndCancel_recsOnly (room : Nat) : s.RecsOnly (s.closeAndCancel room).1 := by
  unfold State.closeAndCancel
  split
  · rfl
  · split <;> rfl

theorem State.makeBooking_recsOnly (k : Booking) : s.RecsOnly (s.makeBooking k).1 := by
  unfold State.makeBooking
  dsimp only
  split
  · rfl
  · split <;> rfl

theorem State.bookOrHold_recsOnly (a : BookArgs) (holdTime : Option Nat) :
    s.RecsOnly (s.bookOrHold a holdTime).1 := by
  refine State.gated_recsOnly ?_
  split
  · rfl
  · exact s.makeBooking_recsOnly _

theorem State.confirm_recsOnly (h : Handle) (cls : Option Nat) : s.RecsOnly (s.confirm h cls).1 := by
  refine State.gated_recsOnly ?_
  split
  · rfl
  · split <;> rfl

theorem State.amendTo_recsOnly (b : Records) (sl : SlotNo) (k k' : Booking) :
    s.RecsOnly (s.amendTo b sl k k').1 := by
  unfold State.amendTo
  dsimp only
  generalize (if k'.start ≠ k.start ∨ k'.stop ≠ k.stop then _ else _ : Option Obstacle) = found
  cases found <;> rfl

theorem State.amend_recsOnly (a : AmendArgs) : s.RecsOnly (s.amend a).1 := by
  refine State.gated_recsOnly ?_
  split
  · rfl
  · split
    · rfl
    · exact s.amendTo_recsOnly ..

theorem State.cancel_recsOnly (h : Handle) : s.RecsOnly (s.cancel h).1 := by
  refine State.gated_recsOnly ?_
  split <;> rfl

theorem State.readBooking_recsOnly (h : Handle) : s.RecsOnly (s.readBooking h).1 := by
  unfold State.readBooking
  split
  · split
    · rfl
    · split
      · rfl
      · split <;> rfl
  · rfl

theorem State.lookupAt_recsOnly (room minute : Nat) : s.RecsOnly (s.lookupAt room minute).1 := by
  unfold State.lookupAt
  split
  · split
    · rfl
    · split <;> rfl
  · rfl

theorem State.listRoom_recsOnly (room count : Nat) (after : Option Nat) :
    s.RecsOnly (s.listRoom room count after).1 := by
  unfold State.listRoom
  split
  · split
    · rfl
    · split <;> rfl
  · rfl

theorem State.writeBanks_recsOnly (kitchen : Nat) (banks : Vector Nat 8) :
    s.RecsOnly (s.writeBanks kitchen banks).1 := by
  unfold State.writeBanks
  split
  · rfl
  · split <;> rfl

theorem State.writeKitchen_recsOnly (kitchen opens closes fallback : Nat) :
    s.RecsOnly (s.writeKitchen kitchen opens closes fallback).1 := by
  unfold State.writeKitchen
  split
  · rfl
  · split
    · rfl
    · split <;> rfl

theorem State.setStaffing_recsOnly (kitchen : Nat) (level : Option Nat) :
    s.RecsOnly (s.setStaffing kitchen level).1 := by
  unfold State.setStaffing
  split
  · rfl
  · split <;> rfl

theorem State.readKitchen_recsOnly (kitchen : Nat) : s.RecsOnly (s.readKitchen kitchen).1 := by
  unfold State.readKitchen; split <;> rfl

theorem State.readWindow_recsOnly (kitchen window : Nat) : s.RecsOnly (s.readWindow kitchen window).1 := by
  unfold State.readWindow
  split
  · rfl
  · split <;> rfl

theorem State.order_recsOnly (h : Handle) (menuClass headcount delivery : Nat) :
    s.RecsOnly (s.order h menuClass headcount delivery).1 := by
  refine State.gated_recsOnly ?_
  split
  · rfl
  · split
    · rfl
    · split <;> rfl

theorem State.amendOrder_recsOnly (a : AmendOrderArgs) : s.RecsOnly (s.amendOrder a).1 := by
  refine State.gated_recsOnly ?_
  split
  · rfl
  · split
    · rfl
    · split
      · rfl
      · split <;> rfl

theorem State.cancelOrder_recsOnly (h : Handle) : s.RecsOnly (s.cancelOrder h).1 := by
  refine State.gated_recsOnly ?_
  split <;> rfl

theorem State.readOrder_recsOnly (h : Handle) : s.RecsOnly (s.readOrder h).1 := by
  unfold State.readOrder
  split
  · split
    · rfl
    · split <;> rfl
  · rfl

theorem State.enterLine_recsOnly (l : LineNo) (run : Bool) : s.RecsOnly (s.enterLine l run) := by
  unfold State.enterLine
  dsimp only
  split <;> rfl

theorem State.setLineTo_recsOnly (line state timeout refresh : Nat) :
    s.RecsOnly (s.setLineTo line state timeout refresh).1 := by
  unfold State.setLineTo
  split
  · rfl
  · split
    · exact (s.setLine _ _).enterLine_recsOnly _ _
    · rfl

theorem State.restartLine_recsOnly (line : Nat) : s.RecsOnly (s.restartLine line).1 := by
  unfold State.restartLine; split <;> rfl

theorem State.writeNode_recsOnly (line node kind target : Nat) :
    s.RecsOnly (s.writeNode line node kind target).1 := by
  unfold State.writeNode
  split
  · rfl
  · split <;> rfl

theorem State.readNode_recsOnly (line node : Nat) : s.RecsOnly (s.readNode line node).1 := by
  unfold State.readNode; split <;> rfl

theorem State.readNotices_recsOnly (indicator number : Nat) : s.RecsOnly (s.readNotices indicator number).1 := by
  unfold State.readNotices; split <;> rfl

theorem State.setNoticeMask_recsOnly (masks : Vector Byte 18) : s.RecsOnly (s.setNoticeMask masks).1 := by
  unfold State.setNoticeMask; split <;> rfl

end RecsOnly

end Sys2Proof.Machine

/-! CLK (R1 to R10): which commands move the clock, the laws it keeps, and what its three events and READ_CLOCK do. -/

namespace Sys2Proof.Machine

open Sys2Proof

/-! ## The clock through the part's own steps -/

@[simp] theorem State.finish_clk (s : State) (st : Status) (p : List Byte) : (s.finish st p).clk = s.clk := by
  unfold State.finish; split <;> rfl

@[simp] theorem State.scanOn_clk (s : State) (x : Scan) : (s.scanOn x).clk = s.clk := by
  unfold State.scanOn
  split
  · split
    · rfl
    · exact State.finish_clk ..
  · exact State.finish_clk ..

@[simp] theorem State.lineFrame_clk (s : State) (l : LineNo) (frame : List Byte) :
    (s.lineFrame l frame).clk = s.clk := by
  unfold State.lineFrame
  split
  · rfl
  · dsimp only
    split <;> rfl

@[simp] theorem State.commandWrite_clk (s : State) (bytes : List Byte) : (s.commandWrite bytes).clk = s.clk := by
  unfold State.commandWrite
  split
  · unfold State.judgeWrite; split <;> rfl
  · rfl
  · rfl

@[simp] theorem State.readOut_clk (s : State) (a : ReadOutArgs) : (s.readOut a).clk = s.clk := by
  unfold State.readOut
  split
  · rfl
  · dsimp only
    split <;> rfl

@[simp] theorem State.transact_clk (s : State) (bytes : List Byte) : (s.transact bytes).clk = s.clk := by
  unfold State.transact
  split
  · rfl
  · split
    · exact State.commandWrite_clk ..
    · split
      · exact State.readOut_clk ..
      · rfl

/-- A hand-off taken keeps the clock when its receiver does. -/
theorem State.takePanel_clk {s t : State} {l : LineNo} {n : NodeNo} {want : PanelItem → Bool}
    {act : State → PanelHandoff → State} (hact : ∀ s x, (act s x).clk = s.clk)
    (h : s.takePanel l n want act = .next t) : t.clk = s.clk := by
  unfold State.takePanel at h
  split at h
  · cases h; rfl
  · split at h <;> cases h
    · exact hact _ _
    · rfl

theorem State.takeMotion_clk (s : State) (x : PanelHandoff) : (s.takeMotion x).clk = s.clk := by
  unfold State.takeMotion
  split
  · split <;> rfl
  · rfl
  · rfl

theorem State.takeMotionCheckIn_clk (s : State) (x : PanelHandoff) : (s.takeMotionCheckIn x).clk = s.clk := by
  unfold State.takeMotionCheckIn; split <;> rfl

theorem State.takeRequest_clk (act : Records → Clock → RoomNo → Records × PanelResult) (s : State)
    (x : PanelHandoff) : (State.takeRequest act s x).clk = s.clk := rfl

theorem State.clearAll_clk (s : State) : s.clearAll.1.clk = s.clk := by
  unfold State.clearAll; split <;> rfl

theorem State.writeMenuClass_clk (cls weight setup lead : Nat) (s : State) :
    (s.writeMenuClass cls weight setup lead).1.clk = s.clk := by
  unfold State.writeMenuClass
  split
  · rfl
  · split <;> rfl

theorem State.findRooms_clk (a : FindArgs) (s : State) : (s.findRooms a).1.clk = s.clk := by
  unfold State.findRooms State.gated
  split
  · split
    · rfl
    · split <;> rfl
  · rfl

/-- A server command whose owner changes the records alone keeps the clock. -/
theorem State.serve_recsOnly_clk {s t : State} {cmd : Instr} {act : State → State × Answer}
    (hact : s.RecsOnly (act s).1) (h : s.serve cmd act = .next t) : t.clk = s.clk :=
  State.serve_clk (P := (· = s.clk)) rfl hact.clk h

theorem execClearSlotVisit_clk {s t : State} (h : execClearSlotVisit s = .next t) : t.clk = s.clk := by
  unfold execClearSlotVisit at h
  split at h
  · cases h; rfl
  · cases h; rfl
  · split at h <;> cases h <;> rfl

theorem execClearAllComplete_clk {s t : State} (h : execClearAllComplete s = .next t) : t.clk = s.clk := by
  unfold execClearAllComplete at h
  split at h
  · cases h; rfl
  · cases h; rfl
  · split at h <;> cases h
    · rfl
    · exact State.finish_clk ..

theorem execFindRoomsScanStep_clk {s t : State} (h : execFindRoomsScanStep s = .next t) : t.clk = s.clk := by
  unfold execFindRoomsScanStep at h
  split at h <;> cases h
  · rfl
  · exact State.scanOn_clk ..

theorem execVisitStart_clk {l : LineNo} {s t : State} (h : execVisitStart l s = .next t) : t.clk = s.clk := by
  unfold execVisitStart at h
  dsimp only at h
  split at h
  · split at h <;> cases h <;> rfl
  · cases h; rfl

/-! ## The commands that move the clock (R1) -/

/-- A command that changes the clock is HARD_RESET, ELAPSED_SECOND or SET_CLOCK. -/
theorem exec_clk {i : Instr} {s t : State} (h : exec i s = .next t) :
    t.clk = s.clk ∨ i = .hardReset ∨ i = .elapsedSecond ∨ ∃ tag v, i = .setClock tag v := by
  cases i with
  | hardReset => exact .inr (.inl rfl)
  | elapsedSecond => exact .inr (.inr (.inl rfl))
  | setClock tag v => exact .inr (.inr (.inr ⟨tag, v, rfl⟩))
  | poolInitComplete => left; simp only [exec, execPoolInitComplete] at h; split at h <;> cases h <;> rfl
  | secondPulse l => left; simp only [exec, execSecondPulse] at h; split at h <;> cases h <;> rfl
  | bkeMinuteAdvance => left; simp only [exec, execBkeMinuteAdvance] at h; split at h <;> cases h <;> rfl
  | minuteWalkStep => left; simp only [exec, execMinuteWalkStep] at h; split at h <;> cases h <;> rfl
  | windowRoll k => left; simp only [exec, execWindowRoll] at h; split at h <;> cases h <;> rfl
  | sheddingStep k => left; simp only [exec, execSheddingStep] at h; split at h <;> cases h <;> rfl
  | promotingStep k => left; simp only [exec, execPromotingStep] at h; split at h <;> cases h <;> rfl
  | closeWalkStep r => left; simp only [exec, execCloseWalkStep] at h; split at h <;> cases h <;> rfl
  | clearSlotVisit => exact .inl (execClearSlotVisit_clk h)
  | clearAllComplete => exact .inl (execClearAllComplete_clk h)
  | findRoomsScanStep => exact .inl (execFindRoomsScanStep_clk h)
  | visitStart l => exact .inl (execVisitStart_clk h)
  | panelAnswer l frame => cases h; exact .inl (State.lineFrame_clk ..)
  | terminalAnswer l frame => cases h; exact .inl (State.lineFrame_clk ..)
  | badAnswer l frame => cases h; exact .inl (State.lineFrame_clk ..)
  | frameDiscarded l frame => cases h; exact .inl (State.lineFrame_clk ..)
  | visitTimeout l => left; simp only [exec, execVisitTimeout] at h; split at h <;> cases h <;> rfl
  | motionReport l n => exact .inl (State.takePanel_clk State.takeMotion_clk h)
  | motionCheckIn l n =>
    exact .inl (State.takePanel_clk (want := fun x => decide (x = .motionCheckIn)) State.takeMotionCheckIn_clk h)
  | checkIn l n => exact .inl (State.takePanel_clk (State.takeRequest_clk _) h)
  | extend l n => exact .inl (State.takePanel_clk (State.takeRequest_clk _) h)
  | release l n => exact .inl (State.takePanel_clk (State.takeRequest_clk _) h)
  | walkUp l n => exact .inl (State.takePanel_clk (State.takeRequest_clk _) h)
  | requestResult l n => left; simp only [exec, execRequestResult] at h; split at h <;> cases h <;> rfl
  | terminalReport a => left; cases h; split <;> rfl
  | terminalLoss k => cases h; exact .inl rfl
  | noticeRaise n => cases h; exact .inl rfl
  | commandWrite bytes => cases h; exact .inl (State.transact_clk ..)
  | overrun bytes => cases h; exact .inl (State.transact_clk ..)
  | readOut a => cases h; exact .inl (State.readOut_clk ..)
  | ignoredTransaction bytes => cases h; exact .inl (State.transact_clk ..)
  | readClock tag =>
    exact .inl (State.serve_recsOnly_clk (act := fun s => (s, .now .ok s.clk.readPayload)) s.recsOnly_self h)
  | poolStatus tag =>
    exact .inl (State.serve_recsOnly_clk (act := fun s => (s, .now .ok s.recs.poolPayload)) s.recsOnly_self h)
  | noticeSummary tag =>
    exact .inl (State.serve_recsOnly_clk (act := fun s => (s, .now .ok s.recs.notices.summary)) s.recsOnly_self h)
  | clearAll tag => exact .inl (State.serve_clk (P := (· = s.clk)) rfl s.clearAll_clk h)
  | writeMenuClass tag cls weight setup lead =>
    exact .inl (State.serve_clk (P := (· = s.clk)) rfl (State.writeMenuClass_clk cls weight setup lead s) h)
  | findRooms tag a => exact .inl (State.serve_clk (P := (· = s.clk)) rfl (State.findRooms_clk a s) h)
  | setReserve tag floor => exact .inl (State.serve_recsOnly_clk (State.setReserve_recsOnly ..) h)
  | setHorizon tag days => exact .inl (State.serve_recsOnly_clk (State.setHorizon_recsOnly ..) h)
  | writeRoom tag a => exact .inl (State.serve_recsOnly_clk (State.writeRoom_recsOnly ..) h)
  | writeRoomRemove tag room => exact .inl (State.serve_recsOnly_clk (State.writeRoomRemove_recsOnly ..) h)
  | readRoom tag room => exact .inl (State.serve_recsOnly_clk (State.readRoom_recsOnly ..) h)
  | setRoomService tag inService room =>
    exact .inl (State.serve_recsOnly_clk (State.setRoomService_recsOnly ..) h)
  | closeAndCancel tag room => exact .inl (State.serve_recsOnly_clk (State.closeAndCancel_recsOnly ..) h)
  | hold tag a holdTime => exact .inl (State.serve_recsOnly_clk (State.bookOrHold_recsOnly ..) h)
  | book tag a => exact .inl (State.serve_recsOnly_clk (State.bookOrHold_recsOnly ..) h)
  | confirm tag g cls => exact .inl (State.serve_recsOnly_clk (State.confirm_recsOnly ..) h)
  | amend tag a => exact .inl (State.serve_recsOnly_clk (State.amend_recsOnly ..) h)
  | cancel tag g => exact .inl (State.serve_recsOnly_clk (State.cancel_recsOnly ..) h)
  | readBooking tag g => exact .inl (State.serve_recsOnly_clk (State.readBooking_recsOnly ..) h)
  | lookupAt tag room minute => exact .inl (State.serve_recsOnly_clk (State.lookupAt_recsOnly ..) h)
  | listRoom tag room count after => exact .inl (State.serve_recsOnly_clk (State.listRoom_recsOnly ..) h)
  | writeBanks tag kitchen banks => exact .inl (State.serve_recsOnly_clk (State.writeBanks_recsOnly ..) h)
  | writeKitchen tag kitchen opens closes fallback =>
    exact .inl (State.serve_recsOnly_clk (State.writeKitchen_recsOnly ..) h)
  | setStaffing tag kitchen level => exact .inl (State.serve_recsOnly_clk (State.setStaffing_recsOnly ..) h)
  | readKitchen tag kitchen => exact .inl (State.serve_recsOnly_clk (State.readKitchen_recsOnly ..) h)
  | readWindow tag kitchen window => exact .inl (State.serve_recsOnly_clk (State.readWindow_recsOnly ..) h)
  | order tag g menuClass headcount delivery =>
    exact .inl (State.serve_recsOnly_clk (State.order_recsOnly ..) h)
  | amendOrder tag a => exact .inl (State.serve_recsOnly_clk (State.amendOrder_recsOnly ..) h)
  | cancelOrder tag g => exact .inl (State.serve_recsOnly_clk (State.cancelOrder_recsOnly ..) h)
  | readOrder tag g => exact .inl (State.serve_recsOnly_clk (State.readOrder_recsOnly ..) h)
  | setLine tag line state timeout refresh =>
    exact .inl (State.serve_recsOnly_clk (State.setLineTo_recsOnly ..) h)
  | restartLine tag line => exact .inl (State.serve_recsOnly_clk (State.restartLine_recsOnly ..) h)
  | writeNode tag line node kind target =>
    exact .inl (State.serve_recsOnly_clk (State.writeNode_recsOnly ..) h)
  | readNode tag line node => exact .inl (State.serve_recsOnly_clk (State.readNode_recsOnly ..) h)
  | readNotices tag indicator number => exact .inl (State.serve_recsOnly_clk (State.readNotices_recsOnly ..) h)
  | setNoticeMask tag masks => exact .inl (State.serve_recsOnly_clk (State.setNoticeMask_recsOnly ..) h)

/-- Settles O16: `exec_clk` leaves the three events of the clock as the only ones that move it. -/
theorem onlyClockEventsMoveClock : Obligations.OnlyClockEventsMoveClock := by
  intro i s t h
  rcases exec_clk h with hc | rfl | rfl | ⟨tag, v, rfl⟩
  · split
    · trivial
    · trivial
    · trivial
    · exact hc
  · trivial
  · trivial
  · trivial

/-! ## The laws of the clock -/

theorem Clock.reset_lawful : Clock.reset.Lawful := by
  simp [Clock.Lawful, Clock.reset, Config.maxMinute]

/-- A clock carried to a minute of the range keeps its laws when every second counts and its last jump does not lie
ahead. -/
theorem Clock.arriveAt_lawful {c : Clock} {v : Nat} (hv : v ≤ Config.maxMinute)
    (hj : ∀ j, c.lastJump = some j → j.1 < j.2 ∧ j.2 ≤ v) (hu : c.uncounted = false) :
    (c.arriveAt v).Lawful := by
  by_cases hm : v < Config.maxMinute
  · simpa [Clock.Lawful, Clock.arriveAt, hm, hu, hv] using hj
  · obtain rfl : v = Config.maxMinute := by omega
    simpa [Clock.Lawful, Clock.arriveAt, hu] using hj

/-- Passing over the completing second keeps the laws of a clock whose seconds are 0. -/
theorem Clock.passOver_lawful {c : Clock} (h : { c with uncounted := false : Clock }.Lawful) (hs : c.seconds = 0)
    (w : Bool) : (c.passOver w).Lawful := by
  obtain ⟨hm, hsec, hun, hrun, hst, hj, -⟩ := h
  exact ⟨hm, hsec, hun, hrun, hst, hj, fun hu => ⟨by simpa using (Bool.and_eq_true_iff.mp hu).2, hs⟩⟩

/-- The elapsed second keeps the clock's laws (R3, R4, R7). -/
theorem execElapsedSecond_lawful {s t : State} (hs : s.clk.Lawful) (h : execElapsedSecond s = .next t) :
    t.clk.Lawful := by
  unfold execElapsedSecond at h
  split at h
  · cases h; exact hs
  · cases h; exact hs
  · rename_i hr
    obtain ⟨hm, hsec, hun, hrun, hst, hj, hu⟩ := hs
    have hlt := hrun hr
    split at h
    · cases h
      exact ⟨hm, hsec, hun, hrun, hst, hj, nofun⟩
    · rename_i hnu
      have hnu : s.clk.uncounted = false := by simpa using hnu
      split at h
      · rename_i h60
        cases h
        refine ⟨hm, h60, ?_, hrun, ?_, hj, ?_⟩
        · exact fun e => absurd (hr.symm.trans e) nofun
        · exact fun e => absurd (hr.symm.trans e) nofun
        · exact fun e => absurd (hnu.symm.trans e) nofun
      · cases h
        exact Clock.arriveAt_lawful (by omega) (fun j e => ⟨(hj j e).1, by have := (hj j e).2; omega⟩) hnu

/-- SET_CLOCK keeps the clock's laws (R6 to R9). -/
theorem State.setClock_lawful {s : State} (hs : s.clk.Lawful) (v : Nat) : (s.setClock v).1.clk.Lawful := by
  obtain ⟨hm, hsec, hun, hrun, hst, hj, hu⟩ := hs
  unfold State.setClock
  split
  · exact ⟨hm, hsec, hun, hrun, hst, hj, hu⟩
  · rename_i hv
    have hv : v ≤ Config.maxMinute := by omega
    split
    · rename_i hunset
      have hnu : s.clk.uncounted = false := by
        cases e : s.clk.uncounted
        · rfl
        · exact absurd (hunset.symm.trans (hu e).1) nofun
      exact Clock.arriveAt_lawful hv (fun j e => absurd ((hun hunset).2.2.symm.trans e) nofun) hnu
    · rename_i hr
      split
      · exact ⟨hm, hsec, hun, hrun, hst, hj, hu⟩
      · split
        · refine Clock.passOver_lawful (c := { s.clk with seconds := 0 })
            ⟨hm, Nat.zero_lt_succ _, ?_, hrun, ?_, hj, nofun⟩ rfl _
          · exact fun e => absurd (hr.symm.trans e) nofun
          · exact fun e => absurd (hr.symm.trans e) nofun
        · refine Clock.passOver_lawful ?_ rfl _
          exact Clock.arriveAt_lawful (c := { s.clk with lastJump := some (s.clk.minute, v), uncounted := false }) hv
            (fun j e => by cases e; exact ⟨by omega, le_refl _⟩) rfl
    · split
      · exact ⟨hm, hsec, hun, hrun, hst, hj, hu⟩
      · exact ⟨hm, hsec, hun, hrun, hst, hj, hu⟩

/-- Settles O7: the three events of the clock keep its laws, and no other command moves it. -/
theorem stepKeepsClockLawful : Obligations.StepKeepsClockLawful := by
  intro s t hs h
  unfold step at h
  split at h
  · cases h; exact hs
  · rename_i c rest _
    rcases exec_clk h with hc | rfl | rfl | ⟨tag, v, rfl⟩
    · rw [hc]; exact hs
    · cases h; exact Clock.reset_lawful
    · exact execElapsedSecond_lawful (s := { s with pending := rest }) hs h
    · exact State.serve_clk (P := Clock.Lawful) (s := { s with pending := rest }) hs
        (State.setClock_lawful (s := { s with pending := rest }) hs v) h

/-! ## What the clock's events do -/

/-- A minute of the range travels as three bytes (R186). -/
theorem minuteBytes_of_le {m : Nat} (h : m ≤ 16777215) : minuteBytes m = be 3 m := by
  have h' : (0 : Int) ≤ (m : Int) ∧ (m : Int) ≤ (Config.maxMinute : Nat) := by
    simp only [Config.maxMinute]; omega
  simp only [minuteBytes, h', and_self, if_true, Int.toNat_natCast]

/-- The clock states that an arrival at a minute of the range gives, judged by equality with the last minute. -/
theorem Clock.arriveAt_eq {v : Nat} (hv : v ≤ 16777215) (c : Clock) :
    c.arriveAt v = { c with state := if v = 16777215 then .stopped else .running, minute := v, seconds := 0 } := by
  by_cases h : v = 16777215
  · simp [Clock.arriveAt, Config.maxMinute, h]
  · have h' : v < 16777215 := by omega
    simp [Clock.arriveAt, Config.maxMinute, h, h']

/-- CLOCK_END is raised exactly at the last minute of the range. -/
theorem Records.clockEnd_eq {v : Nat} (hv : v ≤ 16777215) (b : Records) :
    b.clockEnd v = if v = 16777215 then b.raise (.part .clockEnd) else b := by
  by_cases h : v = 16777215
  · simp [Records.clockEnd, Config.maxMinute, h]
  · have h' : v < 16777215 := by omega
    simp [Records.clockEnd, Config.maxMinute, h, h']

/-- The clock carried to a minute of the range: one advance delivered, CLOCK_END at the last minute (R4, R8). -/
theorem State.advanceTo_eq {v : Nat} (hv : v ≤ 16777215) (s : State) :
    s.advanceTo v = { s with
      clk := { s.clk with state := if v = 16777215 then .stopped else .running, minute := v, seconds := 0 }
      mail := { s.mail with
        bkeAdvances := s.mail.bkeAdvances ++ [(s.clk.minute, v)]
        kluAdvances := s.mail.kluAdvances.map fun a => a ++ [(s.clk.minute, v)] }
      recs := if v = 16777215 then s.recs.raise (.part .clockEnd) else s.recs } := by
  rw [State.advanceTo, Clock.arriveAt_eq hv, Records.clockEnd_eq hv]; rfl

/-- Settles O19: the branches of ELAPSED_SECOND by the clock state, the second passed over, and the count. -/
theorem elapsedSecondCountsAndAdvances : Obligations.ElapsedSecondCountsAndAdvances := by
  intro s m pulsed
  simp only [exec, execElapsedSecond]
  refine ⟨fun hr => ?_, fun hr hu => ?_, fun hr hu hs => ?_, fun hr hu hs hm => ?_⟩
  · cases hst : s.clk.state
    · rfl
    · exact absurd hst hr
    · rfl
  · simp only [hr, hu, if_true]; rfl
  · have h60 : s.clk.seconds + 1 < 60 := by omega
    simp only [hr, hu, h60, if_true]; rfl
  · have h60 : ¬ s.clk.seconds + 1 < 60 := by omega
    simp only [hr, hu, h60, if_false, State.advanceTo_eq (v := s.clk.minute + 1) hm, State.pulsed]
    rfl

/-- A SET_CLOCK above the range is refused with BAD_VALUE in every clock state. -/
theorem State.setClock_badValue {s : State} {v : Nat} (h : 16777215 < v) :
    s.setClock v = (s, .now .badValue []) := by
  simp [State.setClock, Config.maxMinute, h, refuse]

/-- The response items of SET_CLOCK for a clock whose minute lies in the range. -/
theorem Clock.setPayload_eq {c : Clock} (hm : c.minute ≤ 16777215) :
    c.setPayload = c.state.byte :: be 3 c.minute := by
  rw [Clock.setPayload, minuteBytes_of_le hm]; rfl

/-- Settles O20: the first setting of the clock. -/
theorem setClockStartsUnsetClock : Obligations.SetClockStartsUnsetClock := by
  intro tag v s hidle hunset
  refine ⟨fun hv => State.serve_idle_now hidle (State.setClock_badValue hv), fun hv => ?_⟩
  refine ⟨s.recs.markAllPanels, ?_, rfl, s.recs.markAllPanels_marks⟩
  have hle : ¬ Config.maxMinute < v := Nat.not_lt.mpr hv
  have hact : s.setClock v = (s.startClock v, .now .ok (s.clk.arriveAt v).setPayload) := by
    simp only [State.setClock, hle, if_false, hunset]; rfl
  rw [Clock.setPayload_eq (c := s.clk.arriveAt v) hv] at hact
  refine (State.serve_idle_now hidle hact).trans ?_
  simp only [State.startClock, Clock.arriveAt_eq hv, Records.clockEnd_eq hv]
  split <;> rfl

/-- Settles O21: SET_CLOCK of a clock that has been set, by its state and the place of the new minute. -/
theorem setClockAfterStart : Obligations.SetClockAfterStart := by
  intro tag v s hidle hset m arrives
  have hle : v ≤ 16777215 → ¬ Config.maxMinute < v := Nat.not_lt.mpr
  have harr : s.secondArrives = arrives := (Bool.decide_and ..).symm
  refine ⟨fun hv => State.serve_idle_now hidle (State.setClock_badValue hv), fun hv hlt => ?_,
    fun hst hm hvm => ?_, fun hr hv hvm => ?_, fun hr hv hlt => ?_⟩
  · refine State.serve_idle_now hidle ?_
    simp only [State.setClock, hle hv, if_false]
    cases hst : s.clk.state
    · exact absurd hst hset
    · exact if_pos hlt
    · exact if_pos hlt
  · refine State.serve_idle_now hidle ?_
    have hv : v ≤ 16777215 := by omega
    have hpay : s.clk.setPayload = 2 :: be 3 v := by
      rw [Clock.setPayload_eq (hm.le), hst, hvm]; rfl
    have hnot : ¬ v < s.clk.minute := by omega
    simp only [State.setClock, hle hv, if_false, hst, hnot, hpay]
  · have hact : s.setClock v =
        (s.overSecond { s with clk := { s.clk with seconds := 0 } }, .now .ok (1 :: be 3 v)) := by
      have hpay : (s.overSecond { s with clk := { s.clk with seconds := 0 } }).clk.setPayload = 1 :: be 3 v := by
        refine (Clock.setPayload_eq (hvm.symm.trans_le hv)).trans ?_
        simp [hr, hvm, m, ClockState.byte]
      have hnot : ¬ v < s.clk.minute := by omega
      rw [← hpay]
      simp only [State.setClock, hle hv, if_false, hr, hnot]
      exact if_pos hvm
    refine (State.serve_idle_now hidle hact).trans ?_
    simp only [State.overSecond, Clock.passOver, harr, hr, decide_true, Bool.and_true]
    rfl
  · have hact : s.setClock v = (s.overSecond (s.jumpTo v),
        .now .ok ((if v = 16777215 then 2 else 1) :: be 3 v)) := by
      have hpay : (s.overSecond (s.jumpTo v)).clk.setPayload = (if v = 16777215 then 2 else 1) :: be 3 v := by
        rw [State.jumpTo, State.advanceTo_eq hv, Clock.setPayload_eq hv]
        simp only [State.overSecond_clk, Clock.passOver_state, Clock.passOver_minute]
        split <;> rfl
      have hnot : ¬ v < s.clk.minute := by omega
      have hne : ¬ v = s.clk.minute := by omega
      rw [← hpay]
      simp only [State.setClock, hle hv, if_false, hr, hnot]
      exact if_neg hne
    refine (State.serve_idle_now hidle hact).trans ?_
    simp only [State.jumpTo, State.advanceTo_eq hv, State.overSecond, Clock.passOver, harr]
    by_cases hlast : v = 16777215
    · simp only [hlast, if_true]
      rfl
    · simp only [hlast, if_false, ne_eq, not_false_eq_true]
      rfl

/-- Settles O22: the items of R10 for minutes that fit their three bytes. -/
theorem readClockReportsClock : Obligations.ReadClockReportsClock := by
  intro tag s hidle hm hj state jump
  have hstate : s.clk.state.byte = state := by
    simp only [state]; cases s.clk.state <;> rfl
  have hjump : (match s.clk.lastJump with
      | some j => 1 :: minuteBytes j.1 ++ minuteBytes j.2
      | none => [0, 0, 0, 0, 0, 0, 0]) = jump := by
    simp only [jump]
    cases hl : s.clk.lastJump with
    | none => rfl
    | some j => simp only [minuteBytes_of_le (hj j hl).1, minuteBytes_of_le (hj j hl).2]
  have hpay : s.clk.readPayload =
      [state] ++ be 3 s.clk.minute ++ be 1 s.clk.seconds ++ be 2 (s.clk.minute / 1440) ++
        be 2 (s.clk.minute % 1440) ++ be 3 (s.clk.minute / 30) ++ jump := by
    rw [← hstate, ← hjump, ← minuteBytes_of_le hm]; rfl
  exact State.serve_idle_now (act := fun s => (s, .now .ok s.clk.readPayload)) hidle (by rw [hpay])

end Sys2Proof.Machine

/-! The state after hard reset has every law of Safety (R22); the minute walk visits the rooms in order (R76, R77). -/

namespace Sys2Proof.Machine

open Sys2Proof

/-! ## The tables after hard reset -/

@[simp] theorem State.reset_recs : State.reset.recs = Records.reset := rfl

@[simp] theorem Records.reset_room (r : RoomNo) : Records.reset.room r = Room.reset := Vector.getElem_replicate ..

@[simp] theorem Records.reset_kitchen (k : KitchenNo) : Records.reset.kitchen k = Kitchen.reset :=
  Vector.getElem_replicate ..

@[simp] theorem Records.reset_line (l : LineNo) : Records.reset.line l = Line.reset := Vector.getElem_replicate ..

@[simp] theorem Line.reset_node (n : NodeNo) : Line.reset.node n = Node.reset := Vector.getElem_replicate ..

@[simp] theorem Pool.reset_slot (sl : SlotNo) : Pool.reset.slots[sl.val] = Slot.reset := Vector.getElem_replicate ..

@[simp] theorem Records.reset_slot (sl : SlotNo) : Records.reset.slot sl = Slot.reset := Pool.reset_slot sl

@[simp] theorem Notices.reset_rooms (r : RoomNo) : Notices.reset.rooms[r.val] = [] := Vector.getElem_replicate ..

@[simp] theorem Notices.reset_kitchens (k : KitchenNo) : Notices.reset.kitchens[k.val] = [] :=
  Vector.getElem_replicate ..

/-! ## The laws after hard reset -/

theorem Port.reset_lawful : Port.reset.Lawful := by simp [Port.Lawful, Port.reset]

theorem Pool.reset_lawful : Pool.reset.Lawful := by simp [Pool.Lawful, Pool.reset]

theorem Pool.reset_freeLawful : Pool.reset.FreeLawful :=
  ⟨fun _ sl => by rw [Pool.reset_slot]; rfl, fun h => absurd rfl h⟩

theorem Records.reset_ordersLawful : Records.reset.OrdersLawful := by
  simp [Records.OrdersLawful, Slot.reset, Kitchen.reset]

theorem State.reset_clearingLawful : State.reset.ClearingLawful := ⟨fun h => absurd rfl h, nofun⟩

theorem MenuClass.reset_lawful : MenuClass.reset.Lawful := by simp [MenuClass.Lawful, MenuClass.reset]

theorem Kitchen.reset_lawful : Kitchen.reset.Lawful := by
  simp [Kitchen.Lawful, Kitchen.reset]

theorem Node.reset_lawful : Node.reset.Lawful := by simp [Node.Lawful, Node.reset]

theorem Line.reset_lawful : Line.reset.Lawful := by
  refine ⟨by decide, by decide, by decide, by decide, by decide, fun _ => rfl, fun n => ?_⟩
  rw [Line.reset_node]; exact Node.reset_lawful

theorem Notices.reset_lawful : Notices.reset.Lawful := by
  simp [Notices.Lawful, Notices.reset]

theorem Notices.reset_ordered : Notices.reset.Ordered := by
  simp [Notices.Ordered, Notices.reset]

theorem RoomAttrs.reset_lawful : RoomAttrs.reset.Lawful := by simp [RoomAttrs.Lawful, RoomAttrs.reset]

theorem Records.reset_membershipsLawful : Records.reset.MembershipsLawful := by
  simp [Records.MembershipsLawful, Room.reset, RoomAttrs.reset]

theorem Records.reset_conflictSet (r : RoomNo) : Records.reset.conflictSet r = [r] := by
  simp [Records.conflictSet, Room.reset, RoomAttrs.reset, roomSet, insertRoom]

theorem Records.reset_setsBounded : Records.reset.SetsBounded := fun r => by
  simp [Records.reset_conflictSet]

theorem Records.reset_nodesLawful : Records.reset.NodesLawful := by
  simp [Records.NodesLawful, Node.reset]

theorem Records.reset_terminalsLawful : Records.reset.TerminalsLawful := by
  simp [Records.TerminalsLawful, Kitchen.reset, Node.reset]

theorem Records.reset_onlineLawful : Records.reset.OnlineLawful := by
  simp [Records.OnlineLawful, Kitchen.reset]

/-- Settles O14, block by block. -/
theorem resetStateIsLawful : Obligations.ResetStateIsLawful where
  port := Port.reset_lawful
  clock := Clock.reset_lawful
  pool := Pool.reset_lawful
  free := Pool.reset_freeLawful
  orders := Records.reset_ordersLawful
  clearing := State.reset_clearingLawful
  menu c := by
    have h : State.reset.menu[c.val] = MenuClass.reset := Vector.getElem_replicate ..
    rw [h]; exact MenuClass.reset_lawful
  kitchens k := by simpa using Kitchen.reset_lawful
  lines l := by simpa using Line.reset_lawful
  notices := Notices.reset_lawful
  ordered := Notices.reset_ordered
  rooms r := by simpa [Room.reset] using RoomAttrs.reset_lawful
  memberships := Records.reset_membershipsLawful
  bounded := Records.reset_setsBounded
  nodes := Records.reset_nodesLawful
  terminals := Records.reset_terminalsLawful
  online := Records.reset_onlineLawful

/-! ## The minute walk -/

/-- The walk at the taking of an advance, by the pool state and whether a walk is in flight. -/
theorem Walk.advance_eq (w : Walk) (p : Pool) :
    w.advance p.isReady =
      if p.state = .ready then
        if w.next = none then { next := some 0, rewalk := w.rewalk } else { next := w.next, rewalk := true }
      else w := by
  by_cases h : p.state = .ready
  · have hr : p.isReady = true := (Pool.isReady_iff p).mpr h
    cases hn : w.next <;> simp [Walk.advance, hr, h, hn]
  · have hr : ¬ p.isReady = true := mt (Pool.isReady_iff p).mp h
    simp [Walk.advance, hr, h]

/-- A room without bookings has only its turnaround-until brought up to date. -/
theorem Records.bringUp_of_chain_nil {b : Records} {r : RoomNo} (c : Clock) (h : (b.room r).chain = []) :
    b.bringUp c r = b.clearTurnaround c.minute r := by
  have hc : ((b.clearTurnaround c.minute r).room r).chain = [] := by
    rw [Records.clearTurnaround_room, if_pos rfl]; exact h
  simp only [Records.bringUp, hc, List.foldl_nil]

/-- The walk moves to the next room. -/
theorem Walk.step_of_lt {r : RoomNo} (h : r.val < 383) (w : Walk) :
    (w.step r).rewalk = w.rewalk ∧ (w.step r).next.map Fin.val = some (r.val + 1) := by
  have h' : r.val + 1 < 384 := by omega
  simp [Walk.step, h']

/-- After room 383 the walk begins again when it is marked, and ends otherwise. -/
theorem Walk.step_last {r : RoomNo} (h : r.val = 383) (w : Walk) :
    w.step r = { next := if w.rewalk then some 0 else none, rewalk := false } := by
  obtain ⟨next, rewalk⟩ := w
  cases rewalk <;> simp [Walk.step, h]

/-- Settles O41: an advance by the walk it finds, and a row by the room it reaches. -/
theorem minuteWalkVisitsRooms : Obligations.MinuteWalkVisitsRooms := by
  intro s
  refine ⟨fun h => ?_, fun x rest h => ?_, fun h => ?_, fun r h => ?_⟩
  · simp only [exec, execBkeMinuteAdvance, h]
  · simp only [exec, execBkeMinuteAdvance, h, Walk.advance_eq]
  · simp only [exec, execMinuteWalkStep, h]
  · refine ⟨s.recs.bringUp s.clk r, s.walk.step r, ?_, rfl, fun hr => Walk.step_of_lt hr _,
      fun hr => Walk.step_last hr _, fun hc => ?_⟩
    · simp only [exec, execMinuteWalkStep, h]
    · rw [Records.bringUp_of_chain_nil s.clk hc]
      refine ⟨Records.clearTurnaround_eq .., fun q hq => ?_, ?_⟩
      · rw [Records.clearTurnaround_room, if_neg hq]
      · rw [Records.clearTurnaround_room, if_pos rfl]

end Sys2Proof.Machine

/-! Bringing a room up to date (R70) and naming a booking or an order (R53, R133): what they leave as it was, and what a
name that passes says of its slot. -/

namespace Sys2Proof.Machine

open Sys2Proof

/-! ## What the booking day leaves as it was -/

/-- From `b` to `b'` the pool's state, floor and horizon and every room's settings, service state and memberships
stand. -/
structure Records.SameSetup (b b' : Records) : Prop where
  state : b'.pool.state = b.pool.state
  floor : b'.pool.floor = b.pool.floor
  horizon : b'.pool.horizon = b.pool.horizon
  attrs : ∀ r : RoomNo, (b'.room r).attrs = (b.room r).attrs
  service : ∀ r : RoomNo, (b'.room r).service = (b.room r).service
  memberships : ∀ r : RoomNo, (b'.room r).memberships = (b.room r).memberships

namespace Records.SameSetup

theorem refl (b : Records) : b.SameSetup b := ⟨rfl, rfl, rfl, fun _ => rfl, fun _ => rfl, fun _ => rfl⟩

theorem trans {b c d : Records} (h : b.SameSetup c) (h' : c.SameSetup d) : b.SameSetup d :=
  ⟨h'.state.trans h.state, h'.floor.trans h.floor, h'.horizon.trans h.horizon,
    fun r => (h'.attrs r).trans (h.attrs r), fun r => (h'.service r).trans (h.service r),
    fun r => (h'.memberships r).trans (h.memberships r)⟩

/-- Two record tables with one room table, whose pools differ in slots, free list and low notice alone. -/
theorem of_rooms {b b' : Records} (hr : b'.rooms = b.rooms) (hs : b'.pool.state = b.pool.state)
    (hf : b'.pool.floor = b.pool.floor) (hh : b'.pool.horizon = b.pool.horizon) : b.SameSetup b' := by
  have h : ∀ r, b'.room r = b.room r := fun r => by simp only [Records.room, hr]
  exact ⟨hs, hf, hh, fun r => by rw [h], fun r => by rw [h], fun r => by rw [h]⟩

/-- A fold of operations that each leave the setup leaves it. -/
theorem foldl {α : Type} {f : Records → α → Records} (hf : ∀ (b : Records) (x : α), b.SameSetup (f b x))
    (l : List α) (b : Records) : b.SameSetup (l.foldl f b) := by
  induction l generalizing b with
  | nil => exact refl b
  | cons x xs ih => exact (hf b x).trans (ih _)

end Records.SameSetup

section SameSetup

variable (b : Records)

theorem Records.setBody_sameSetup (sl : SlotNo) (x : SlotBody) : b.SameSetup (b.setBody sl x) :=
  .of_rooms rfl rfl rfl rfl

theorem Records.returnSlot_sameSetup (sl : SlotNo) : b.SameSetup (b.returnSlot sl) := .of_rooms rfl rfl rfl rfl

theorem Records.setKitchen_sameSetup (k : KitchenNo) (x : Kitchen) : b.SameSetup (b.setKitchen k x) :=
  .of_rooms rfl rfl rfl rfl

theorem Records.setQueue_sameSetup (k : KitchenNo) (x : TicketQueue) : b.SameSetup (b.setQueue k x) :=
  .of_rooms rfl rfl rfl rfl

theorem Records.markShowing_sameSetup (r : RoomNo) : b.SameSetup (b.markShowing r) := .of_rooms rfl rfl rfl rfl

theorem Records.raiseRoom?_sameSetup (r : RoomNo) (n : Option RoomNotice) : b.SameSetup (b.raiseRoom? r n) := by
  cases n <;> exact .of_rooms rfl rfl rfl rfl

/-- A room entry replaced by one with the same settings, service state and memberships. -/
theorem Records.setRoom_sameSetup {r : RoomNo} {x : Room} (ha : x.attrs = (b.room r).attrs)
    (hs : x.service = (b.room r).service) (hm : x.memberships = (b.room r).memberships) :
    b.SameSetup (b.setRoom r x) := by
  refine ⟨rfl, rfl, rfl, fun q => ?_, fun q => ?_, fun q => ?_⟩ <;> by_cases hq : q = r
  · subst hq; simpa using ha
  · rw [b.setRoom_room_other _ hq]
  · subst hq; simpa using hs
  · rw [b.setRoom_room_other _ hq]
  · subst hq; simpa using hm
  · rw [b.setRoom_room_other _ hq]

theorem Records.link_sameSetup (r : RoomNo) (sl : SlotNo) (start : Nat) : b.SameSetup (b.link r sl start) := by
  refine .trans (b.setRoom_sameSetup ?_ ?_ ?_) (Records.markShowing_sameSetup _ _) <;> rfl

theorem Records.unlink_sameSetup (r : RoomNo) (sl : SlotNo) : b.SameSetup (b.unlink r sl) := by
  refine .trans (b.setRoom_sameSetup ?_ ?_ ?_) (Records.markShowing_sameSetup _ _) <;> rfl

theorem Records.clearTurnaround_sameSetup (now : Nat) (r : RoomNo) : b.SameSetup (b.clearTurnaround now r) := by
  unfold Records.clearTurnaround
  split
  · split
    · exact b.setRoom_sameSetup rfl rfl rfl
    · exact .refl b
  · exact .refl b

theorem Records.readTurnarounds_sameSetup (now : Nat) (r : RoomNo) : b.SameSetup (b.readTurnarounds now r) :=
  .foldl (fun b r => b.clearTurnaround_sameSetup now r) _ b

theorem Records.promotionTrigger_sameSetup (c : Clock) (k : KitchenNo) : b.SameSetup (b.promotionTrigger c k) := by
  unfold Records.promotionTrigger
  split
  · exact b.setKitchen_sameSetup _ _
  · exact .refl b

theorem Records.joinVoid_sameSetup (k : KitchenNo) (sl : SlotNo) : b.SameSetup (b.joinVoid k sl) := by
  unfold Records.joinVoid
  dsimp only
  split
  · exact b.setQueue_sameSetup _ _
  · split <;> exact b.setQueue_sameSetup _ _

theorem Records.settleOrder_sameSetup (c : Clock) (sl : SlotNo) : b.SameSetup (b.settleOrder c sl).1 := by
  unfold Records.settleOrder
  split
  · exact .refl b
  · split
    · exact (b.setKitchen_sameSetup _ _).trans (Records.returnSlot_sameSetup _ _)
    · exact ((b.setKitchen_sameSetup _ _).trans (Records.returnSlot_sameSetup _ _)).trans
        (Records.promotionTrigger_sameSetup _ _ _)
    · split
      · exact b.setBody_sameSetup _ _
      · exact (b.setQueue_sameSetup _ _).trans (Records.returnSlot_sameSetup _ _)
    · exact (b.setBody_sameSetup _ _).trans (Records.joinVoid_sameSetup _ _ _)
    · exact (b.setBody_sameSetup _ _).trans (Records.joinVoid_sameSetup _ _ _)
    · exact b.returnSlot_sameSetup _
    · exact b.returnSlot_sameSetup _
    · exact .refl b

theorem Records.settleAll_sameSetup (c : Clock) (l : List SlotNo) : b.SameSetup (b.settleAll c l).1 := by
  induction l generalizing b with
  | nil => exact .refl b
  | cons sl rest ih =>
    have h := b.settleOrder_sameSetup c sl
    rcases hs : b.settleOrder c sl with ⟨b', st⟩
    rw [hs] at h
    cases st <;> simpa only [Records.settleAll, hs] using h.trans (ih b')

theorem Records.retire_sameSetup (c : Clock) (sl : SlotNo) (k : Booking) (why : Reason) :
    b.SameSetup (b.retire c sl k why).1 := by
  have h3 : b.SameSetup (((b.unlink k.room sl).settleAll c k.annex).1.returnSlot sl) :=
    ((b.unlink_sameSetup _ _).trans (Records.settleAll_sameSetup _ _ _)).trans (Records.returnSlot_sameSetup _ _)
  refine h3.trans (.trans (.trans (Records.setRoom_sameSetup _ ?_ ?_ ?_) (Records.markShowing_sameSetup _ _))
    (Records.raiseRoom?_sameSetup _ _ _)) <;> rfl

theorem Records.updateBooking_sameSetup (c : Clock) (sl : SlotNo) : b.SameSetup (b.updateBooking c sl) := by
  unfold Records.updateBooking
  split
  · exact .refl b
  · split
    · exact b.retire_sameSetup ..
    · split
      · exact .refl b
      · exact (b.setBody_sameSetup _ _).trans (Records.markShowing_sameSetup _ _)

theorem Records.bringUp_sameSetup (c : Clock) (r : RoomNo) : b.SameSetup (b.bringUp c r) :=
  (b.clearTurnaround_sameSetup _ _).trans (.foldl (fun b sl => b.updateBooking_sameSetup c sl) _ _)

theorem Records.bringUpSet_sameSetup (c : Clock) (r : RoomNo) : b.SameSetup (b.bringUpSet c r) :=
  .foldl (fun b r => b.bringUp_sameSetup c r) _ b

end SameSetup

/-! ## Naming a booking (R53) -/

/-- What the checks of R53 say of a booking that passes them: the handle names its slot, which holds the record, and
the setup of the records stands. -/
theorem Records.nameBooking_ok {b b' : Records} {c : Clock} {h : Handle} {sl : SlotNo} {k : Booking}
    (hn : b.nameBooking c h = (b', .ok (sl, k))) :
    h.slot = sl.val ∧ (b'.slot sl).body = .booking k ∧ b.SameSetup b' := by
  unfold Records.nameBooking at hn
  split at hn
  · cases hn
  · rename_i sl' hc
    split at hn
    · cases hn
    · split at hn
      · cases hn
      · dsimp only at hn
        split at hn
        · rename_i k' hk
          split at hn
          · cases hn
            exact ⟨(Records.checkHandle_ok hc).2.1, Records.booking?_eq_some.mp hk, b.bringUpSet_sameSetup _ _⟩
          · cases hn
        · cases hn

/-- A handle with the kind and generation of the record in its slot passes the check of R18. -/
theorem Records.checkHandle_of_body {b : Records} {kind : Byte} {sl : SlotNo}
    (hk : (b.slot sl).body.kind? = some kind) :
    b.checkHandle kind { kind := kind, gen := (b.slot sl).gen, slot := sl.val } = .ok sl := by
  simp [Records.checkHandle, hk]

/-- A booking of a CLOSING room is refused with ROOM_CLOSED, the records as they were. -/
theorem Records.nameBooking_closing {b : Records} {sl : SlotNo} {k : Booking} (c : Clock)
    (hb : (b.slot sl).body = .booking k) (hs : (b.room k.room).service = .closing) :
    b.nameBooking c { kind := 1, gen := (b.slot sl).gen, slot := sl.val } = (b, .error .roomClosed) := by
  have hc := Records.checkHandle_of_body (b := b) (sl := sl) (kind := bookingKind) (by rw [hb]; rfl)
  have hk : b.booking? sl = some k := Records.booking?_eq_some.mpr hb
  have hcl : b.isClosing k.room = true := by simp [Records.isClosing, hs]
  simp only [bookingKind] at hc
  simp only [Records.nameBooking, bookingKind, hc, hk, hcl, if_true]

/-! ## Naming an order (R133, R135) -/

/-- What naming says of an order that passes: its slot holds the record, and the setup of the records stands. -/
theorem Records.nameOrder_ok {b b' : Records} {c : Clock} {h : Handle} {refuses : Bool} {sl : SlotNo} {o : Order}
    (hn : b.nameOrder c h refuses = (b', .ok (sl, o))) :
    h.slot = sl.val ∧ (b'.slot sl).body = .order o ∧ b.SameSetup b' := by
  unfold Records.nameOrder at hn
  split at hn
  · cases hn
  · rename_i sl' hc
    split at hn
    · cases hn
    · split at hn
      · cases hn
      · dsimp only at hn
        split at hn
        · cases hn
        · rename_i o' ho
          cases hn
          refine ⟨(Records.checkHandle_ok hc).2.1, ?_, b.bringUp_sameSetup _ _⟩
          unfold Records.orderStill at ho
          split at ho
          · cases ho
          · rename_i o'' hb
            split at ho
            · split at ho
              · cases ho
              · cases ho; exact Records.order?_eq_some.mp hb
            · cases ho

end Sys2Proof.Machine

/-! CONFIRM, CANCEL and AMEND of a booking (R62 to R66). -/

namespace Sys2Proof.Machine

open Sys2Proof

/-! ## The class byte and the table of checks -/

/-- A class byte names a class exactly when it is below 3 (R186). -/
theorem prio?_isSome (n : Nat) : (prio? n).isSome = decide (n < 3) := by
  unfold prio?
  split
  · simp_all
  · split
    · simp_all
    · split
      · simp_all
      · simp; omega

/-- The rank of a class that a byte can name is that byte. -/
theorem prio?_rank {p : Prio} (h : p.rank < 3) : prio? p.rank = some p := by
  cases p
  · rfl
  · rfl
  · rfl
  · exact absurd h (by decide)

/-- A check that passes leaves the rest of the table to be judged. -/
@[simp] theorem firstRefusal_pass (st : Status) (l : List (Bool × Status)) :
    firstRefusal ((true, st) :: l) = firstRefusal l := rfl

/-- The first check that fails gives the refusal. -/
@[simp] theorem firstRefusal_fail (st : Status) (l : List (Bool × Status)) :
    firstRefusal ((false, st) :: l) = some st := rfl

@[simp] theorem firstRefusal_nil : firstRefusal [] = none := rfl

/-! ## CONFIRM and CANCEL -/

section Named

variable {s : State} {h : Handle} (hr : s.recs.pool.state = .ready) (hc : s.clk.state ≠ .unset)

include hr hc

theorem State.confirm_refused {b : Records} {st : Status} (cls : Option Nat)
    (hn : s.recs.nameBooking s.clk h = (b, .error st)) : s.confirm h cls = (s.withRecs b, .now st []) := by
  rw [State.confirm, State.gated_open hr hc, hn]; rfl

theorem State.cancel_refused {b : Records} {st : Status}
    (hn : s.recs.nameBooking s.clk h = (b, .error st)) : s.cancel h = (s.withRecs b, .now st []) := by
  rw [State.cancel, State.gated_open hr hc, hn]; rfl

theorem State.amend_refused {a : AmendArgs} {b : Records} {st : Status}
    (hn : s.recs.nameBooking s.clk a.handle = (b, .error st)) : s.amend a = (s.withRecs b, .now st []) := by
  rw [State.amend, State.gated_open hr hc, hn]; rfl

theorem State.cancel_named {b : Records} {sl : SlotNo} {k : Booking}
    (hn : s.recs.nameBooking s.clk h = (b, .ok (sl, k))) :
    s.cancel h = (s.withRecs (b.retire s.clk sl k .cancelled).1,
      .now .ok (be 1 (b.retire s.clk sl k .cancelled).2.1 ++ be 1 (b.retire s.clk sl k .cancelled).2.2)) := by
  rw [State.cancel, State.gated_open hr hc, hn]

/-- CONFIRM of a named booking, by the two checks of R62. -/
theorem State.confirm_named {b : Records} {sl : SlotNo} {k : Booking} (cls : Option Nat)
    (hn : s.recs.nameBooking s.clk h = (b, .ok (sl, k))) :
    s.confirm h cls =
      match firstRefusal [((cls.map fun n => (prio? n).isSome).getD true, .badValue),
        (decide (k.state = .held), .wrongState)] with
      | some st => (s.withRecs b, .now st [])
      | none => (s.withRecs (b.confirm s.clk sl (k.confirmed (cls.bind prio?))),
          .now .ok ((b.confirm s.clk sl (k.confirmed (cls.bind prio?))).confirmPayload sl
            (k.confirmed (cls.bind prio?)))) := by
  rw [State.confirm, State.gated_open hr hc, hn]; rfl

end Named

/-- Whether a supplied class is one of the three, or none is supplied. -/
theorem classSupplied_eq_true {cls : Option Nat} (h : ∀ n, cls = some n → n < 3) :
    (cls.map fun n => (prio? n).isSome).getD true = true := by
  cases cls with
  | none => rfl
  | some n => simpa [prio?_isSome] using h n rfl

/-- The class of a booking confirmed with a supplied class, or its own when none is supplied. -/
theorem Booking.confirmed_eq {k : Booking} {cls : Option Nat} {p : Prio} (hp : ∀ n, cls = some n → p.rank = n)
    (hlt : ∀ n, cls = some n → n < 3) (hnone : cls = none → p = k.cls) :
    k.confirmed (cls.bind prio?) = { k with state := .booked, holdExpiry := none, cls := p } := by
  cases cls with
  | none => simp [Booking.confirmed, hnone rfl]
  | some n =>
    have hn := hp n rfl
    subst hn
    simp [Booking.confirmed, prio?_rank (hlt _ rfl)]

/-- A BOOKED booking without a hold expiry whose lead has not begun and whose end is ahead stays as it is when it is
brought up to date (R70). -/
theorem Records.updateBooking_of_booked_ahead {b : Records} {c : Clock} {sl : SlotNo} {k : Booking}
    (hb : (b.slot sl).body = .booking k) (hst : k.state = .booked) (he : k.holdExpiry = none)
    (hstop : c.minute < k.stop) (hlead : c.minute + (b.room k.room).attrs.lead < k.start) :
    b.updateBooking c sl = b := by
  have hk : b.booking? sl = some k := Records.booking?_eq_some.mpr hb
  have hstate : reportedState c (b.room k.room).attrs k = .booked := by
    simp [reportedState, hst, Nat.not_le.mpr hlead]
  have hday : b.dayOf c k = .kept k := by
    obtain ⟨⟩ := k
    dsimp only at *
    subst hst he
    simp [Records.dayOf, Nat.not_le.mpr hstop, hstate, Records.dayGrace, Records.dayVacate]
  simp [Records.updateBooking, hk, hday]

/-- The response items of CONFIRM end with the class and the times (R62). -/
theorem Records.confirmPayload_eq (b : Records) (sl : SlotNo) (k : Booking) :
    ∃ items : List Byte, b.confirmPayload sl k = items ++ [k.cls.byte] ++ minuteBytes k.start ++ minuteBytes k.stop :=
  ⟨_, rfl⟩

/-- The response items of CONFIRM of a booking that lives on. -/
theorem Records.confirmPayload_living {b : Records} {sl : SlotNo} {k k' : Booking}
    (h : (b.slot sl).body = .booking k') :
    b.confirmPayload sl k = [1, k'.state.byte, 0, 0] ++ [k.cls.byte] ++ minuteBytes k.start ++ minuteBytes k.stop := by
  simp only [Records.confirmPayload, Records.booking?_eq_some.mpr h]

/-- Settles O36: the two gates, the refusals of naming, and then CONFIRM and CANCEL of the booking named. -/
theorem bookingConfirmedOrCancelled : Obligations.BookingConfirmedOrCancelled := by
  intro tag h cls s hidle both
  refine ⟨fun hr => ⟨?_, ?_⟩, fun hr hc => ⟨?_, ?_⟩, fun hr hc => ⟨fun b st hn => ⟨?_, ?_, fun a ha => ?_⟩,
    fun sl k hh hb hs => ?_, fun b sl k hn => ?_⟩⟩
  · exact State.serve_idle_now hidle (State.gated_notReady hr _)
  · exact State.serve_idle_now hidle (State.gated_notReady hr _)
  · exact State.serve_idle_now hidle (State.gated_unset hr hc _)
  · exact State.serve_idle_now hidle (State.gated_unset hr hc _)
  · exact State.serve_idle_now hidle (State.confirm_refused hr hc cls hn)
  · exact State.serve_idle_now hidle (State.cancel_refused hr hc hn)
  · exact State.serve_idle_now hidle (State.amend_refused hr hc (ha ▸ hn))
  · have hn := Records.nameBooking_closing s.clk hb hs
    rw [← hh] at hn
    exact ⟨State.serve_idle_now hidle (State.confirm_refused hr hc cls hn),
      State.serve_idle_now hidle (State.cancel_refused hr hc hn)⟩
  · have hconfirm := State.confirm_named hr hc cls hn
    refine ⟨State.serve_idle_now hidle (State.cancel_named hr hc hn), fun n hcls hbad => ?_, fun hok hheld => ?_,
      fun p hp hlt hnone hheld => ?_⟩
    · refine State.serve_idle_now hidle (hconfirm.trans ?_)
      simp [hcls, prio?_isSome, Nat.not_lt.mpr hbad]
    · refine State.serve_idle_now hidle (hconfirm.trans ?_)
      simp [classSupplied_eq_true hok, hheld]
    · rw [Booking.confirmed_eq hp hlt hnone] at hconfirm
      simp only [classSupplied_eq_true hlt, hheld, decide_true, firstRefusal_pass, firstRefusal_nil] at hconfirm
      intro k' b1 b2
      have hbody : (b1.slot sl).body = .booking k' := by simp [b1]
      refine ⟨?_, fun hstop hlead => ?_⟩
      · obtain ⟨items, hitems⟩ := b2.confirmPayload_eq sl k'
        exact ⟨items, (State.serve_idle_now hidle hconfirm).trans (by rw [← hitems]; rfl)⟩
      · have hsame : b2 = b1 := Records.updateBooking_of_booked_ahead hbody rfl rfl hstop hlead
        have hconf : b.confirm s.clk sl k' = b1 := hsame
        refine ⟨hsame, (State.serve_idle_now hidle hconfirm).trans ?_⟩
        rw [hconf, Records.confirmPayload_living hbody]; rfl

end Sys2Proof.Machine

/-! AMEND of a booking (R63 to R65). -/

namespace Sys2Proof.Machine

open Sys2Proof

/-! ## The checks of R63, each as the condition it judges -/

theorem BookingState.startMoves_iff (st : BookingState) : st.startMoves = true ↔ st = .held ∨ st = .booked := by
  cases st <;> simp [BookingState.startMoves]

/-- A room is bookable when it and each of its members is IN_SERVICE (R32). -/
theorem Records.bookable_iff (b : Records) (r : RoomNo) :
    b.bookable r = true ↔ (b.room r).service = .inService ∧
      ∀ m ∈ (b.room r).attrs.members.getD [], (b.room m).service = .inService := by
  simp [Records.bookable, Records.inService]

theorem suppliedInRange_iff (t : Option Nat) : suppliedInRange t = true ↔ ∀ m, t = some m → m ≤ 16777215 := by
  cases t with
  | none => simp [suppliedInRange]
  | some x => simp only [suppliedInRange, Option.getD_some, decide_eq_true_eq, Option.some.injEq, forall_eq']; rfl

/-- The times that an AMEND may set (R64): those of a new booking when the start is new, an end ahead otherwise. -/
theorem amendTimesOk_iff (now horizon : Nat) (a : AmendArgs) (k k' : Booking) :
    amendTimesOk now horizon a k k' = true ↔
      (∀ m, a.start = some m → m ≤ 16777215) ∧ (∀ m, a.stop = some m → m ≤ 16777215) ∧
      k'.start + 15 ≤ k'.stop ∧ k'.stop ≤ k'.start + 720 ∧
      (k'.start ≠ k.start → now / 5 * 5 ≤ k'.start ∧ k'.start < now + horizon * 1440) ∧
      (k'.start = k.start → now < k'.stop) := by
  simp only [amendTimesOk, Bool.and_eq_true, suppliedInRange_iff, and_assoc]
  refine and_congr_right fun _ => and_congr_right fun _ => ?_
  by_cases hs : k'.start = k.start
  · simp [hs, and_assoc]
  · simp only [hs, ne_eq, not_false_eq_true, if_true, newTimesOk, Bool.and_eq_true, decide_eq_true_eq,
      forall_true_left, false_implies, and_true]
    unfold floor5
    tauto

/-- Whether the orders of a booking deliver within its new times (check 8 of R63). -/
theorem Records.ordersInside_iff (b : Records) (k : Booking) :
    b.ordersInside k = true ↔
      ∀ o ∈ k.annex, ∀ x, (b.slot o).body = .order x → k.start ≤ x.delivery + 30 ∧ x.delivery < k.stop := by
  simp only [Records.ordersInside, List.all_eq_true, List.mem_filterMap, Bool.and_eq_true, decide_eq_true_eq,
    Records.order?_eq_some]
  exact ⟨fun h o ho x hx => h x ⟨o, ho, hx⟩, fun h x ⟨o, ho, hx⟩ => h o ho x hx⟩

/-! ## The amendment -/

/-- AMEND of a booking that passed R53: the checks 4 to 8, then the test and the change. -/
theorem State.amend_named {s : State} {a : AmendArgs} {b : Records} {sl : SlotNo} {k : Booking}
    (hr : s.recs.pool.state = .ready) (hc : s.clk.state ≠ .unset)
    (hn : s.recs.nameBooking s.clk a.handle = (b, .ok (sl, k))) :
    s.amend a =
      match s.judgeAmend b a k (k.amended a) with
      | some st => (s.withRecs b, .now st [])
      | none => s.amendTo b sl k (k.amended a) := by
  rw [State.amend, State.gated_open hr hc, hn]; rfl

/-- An amendment applied leaves the settings of every room. -/
theorem Records.applyAmend_sameSetup (b : Records) (c : Clock) (sl : SlotNo) (k k' : Booking) :
    b.SameSetup (b.applyAmend c sl k k') := by
  unfold Records.applyAmend
  extract_lets b1 b2
  have h1 : b.SameSetup b1 := by
    simp only [b1]
    split
    · exact ((b.unlink_sameSetup _ _).trans (Records.setBody_sameSetup _ _ _)).trans (Records.link_sameSetup _ _ _ _)
    · exact b.setBody_sameSetup _ _
  have h2 : b.SameSetup b2 := by
    simp only [b2]
    split
    · exact h1
    · exact h1.trans (Records.markShowing_sameSetup _ _)
  split
  · exact h2.trans (Records.updateBooking_sameSetup _ _ _)
  · exact h2

section AmendTo

variable {s : State} {b b1 : Records} {sl : SlotNo} {k k' : Booking}
  (hb : b1 = if k'.start ≠ k.start then b.readTurnarounds s.clk.minute k.room else b)

include hb

/-- An AMEND of the times that meets an obstacle is refused, the turnaround-until fields read. -/
theorem State.amendTo_conflict {o : Obstacle} (hm : k'.start ≠ k.start ∨ k'.stop ≠ k.stop)
    (ho : b1.obstacle s.clk.minute k.room (some sl) (decide (k'.start ≠ k.start)) k'.start k'.stop = some o) :
    s.amendTo b sl k k' = (s.withRecs b1, .now .conflict (obstacleBytes o k'.start k'.stop)) := by
  unfold State.amendTo
  dsimp only
  rw [← hb, if_pos hm, ho]

/-- An AMEND that keeps the times, or whose new times meet no obstacle, is applied. -/
theorem State.amendTo_applied (hm : k'.start ≠ k.start ∨ k'.stop ≠ k.stop →
      b1.obstacle s.clk.minute k.room (some sl) (decide (k'.start ≠ k.start)) k'.start k'.stop = none) :
    s.amendTo b sl k k' = (s.withRecs (b1.applyAmend s.clk sl k k'),
      .now (b1.seatStatus k.room k'.attendees) ((b1.applyAmend s.clk sl k k').bookingPayload
        (((b1.applyAmend s.clk sl k k').booking? sl).getD k'))) := by
  have hfound : (if k'.start ≠ k.start ∨ k'.stop ≠ k.stop then
      b1.obstacle s.clk.minute k.room (some sl) (decide (k'.start ≠ k.start)) k'.start k'.stop else none) = none := by
    split
    · exact hm ‹_›
    · rfl
  have hseats : b1.seatStatus k.room k'.attendees =
      (b1.applyAmend s.clk sl k k').seatStatus k.room k'.attendees := by
    simp only [Records.seatStatus, (b1.applyAmend_sameSetup s.clk sl k k').attrs]
  unfold State.amendTo
  dsimp only
  rw [← hb, hfound, hseats]

end AmendTo

/-- Settles O37: the checks of R63 one after another, and then the test and the change. -/
theorem bookingAmended : Obligations.BookingAmended := by
  intro tag a s hidle
  refine ⟨fun hr => State.serve_idle_now hidle (State.gated_notReady hr _),
    fun hr hc => State.serve_idle_now hidle (State.gated_unset hr hc _), fun b sl k hr hc hn => ?_⟩
  intro k' now moves refused stateOk valueOk bookable timesOk ordersOk b1 found
  have hact : s.amend a = match s.judgeAmend b a k k' with
      | some st => (s.withRecs b, .now st [])
      | none => s.amendTo b sl k k' := State.amend_named hr hc hn
  have hstate : (decide (k'.start = k.start) || k.state.startMoves) = true ↔ stateOk := by
    rw [Bool.or_eq_true, decide_eq_true_eq, BookingState.startMoves_iff]
  have hvalue : (a.attendees.map fun n => decide (1 ≤ n ∧ n ≤ 500)).getD true = true ↔ valueOk := by
    cases h : a.attendees <;> simp [valueOk, h]
  have hbookable : b.bookable k.room = true ↔ bookable := b.bookable_iff _
  have htimes : amendTimesOk s.clk.minute b.pool.horizon a k k' = true ↔ timesOk := amendTimesOk_iff ..
  have horders : b.ordersInside k' = true ↔ ordersOk := b.ordersInside_iff k'
  have refusedOf : ∀ st, s.judgeAmend b a k k' = some st → refused st := fun st hj =>
    State.serve_idle_now hidle (hact.trans (by rw [hj]))
  have amended : s.judgeAmend b a k k' = none → ∀ t st p, s.amendTo b sl k k' = (t, .now st p) →
      exec (.amend tag a) s = .next (t.respond 51 tag st p) := fun hj t st p ht =>
    State.serve_idle_now hidle (hact.trans (by rw [hj]; exact ht))
  have hmoves : moves → decide (k'.start ≠ k.start ∨ k'.stop ≠ k.stop) = true := fun hm => decide_eq_true hm
  refine ⟨fun hne => ?_, fun h4 => ?_, fun h4 h5 => ?_, fun h4 h5 hm h6 => ?_, fun h4 h5 hm h6 h7 => ?_,
    fun h4 h5 hm h6 h7 h8 => ?_, fun h4 h5 hm h6 h7 h8 o ho => ?_, fun h4 h5 hrest => ?_⟩
  · simp only [b1, if_pos hne]
    exact ⟨Records.clearTurnarounds_eq .., fun q => Records.clearTurnarounds_room ..⟩
  · refine refusedOf _ ?_
    simp only [State.judgeAmend, Bool.eq_false_iff.mpr (mt hstate.mp h4), firstRefusal_fail]
  · refine refusedOf _ ?_
    simp only [State.judgeAmend, hstate.mpr h4, Bool.eq_false_iff.mpr (mt hvalue.mp h5), firstRefusal_pass,
      firstRefusal_fail]
  · refine refusedOf _ ?_
    simp only [State.judgeAmend, hstate.mpr h4, hvalue.mpr h5, hmoves hm,
      Bool.eq_false_iff.mpr (mt hbookable.mp h6), Bool.not_true, Bool.false_or, firstRefusal_pass, firstRefusal_fail]
  · refine refusedOf _ ?_
    simp only [State.judgeAmend, hstate.mpr h4, hvalue.mpr h5, hmoves hm, hbookable.mpr h6,
      Bool.eq_false_iff.mpr (mt htimes.mp h7), Bool.not_true, Bool.false_or, firstRefusal_pass, firstRefusal_fail]
  · refine refusedOf _ ?_
    simp only [State.judgeAmend, hstate.mpr h4, hvalue.mpr h5, hmoves hm, hbookable.mpr h6, htimes.mpr h7,
      Bool.eq_false_iff.mpr (mt horders.mp h8), Bool.not_true, Bool.false_or, firstRefusal_pass, firstRefusal_fail]
  · refine amended ?_ _ _ _ (State.amendTo_conflict rfl hm ho)
    simp only [State.judgeAmend, hstate.mpr h4, hvalue.mpr h5, hmoves hm, hbookable.mpr h6, htimes.mpr h7,
      horders.mpr h8, Bool.not_true, Bool.false_or, firstRefusal_pass, firstRefusal_nil]
  · refine amended ?_ _ _ _ (State.amendTo_applied rfl fun hm => (hrest hm).2.2.2)
    by_cases hm : moves
    · obtain ⟨h6, h7, h8, -⟩ := hrest hm
      simp only [State.judgeAmend, hstate.mpr h4, hvalue.mpr h5, hmoves hm, hbookable.mpr h6, htimes.mpr h7,
        horders.mpr h8, Bool.not_true, Bool.false_or, firstRefusal_pass, firstRefusal_nil]
    · have hstay : decide (k'.start ≠ k.start ∨ k'.stop ≠ k.stop) = false := decide_eq_false hm
      simp only [State.judgeAmend, hstate.mpr h4, hvalue.mpr h5, hstay, Bool.not_false, Bool.true_or,
        firstRefusal_pass, firstRefusal_nil]

end Sys2Proof.Machine

/-! The load of an order in a kitchen's ring (R105 to R110): the windows of its shares, the units that adding and
testing them leave committed, and the place of an order on a waitlist (R115). -/

namespace Sys2Proof.Machine

open Sys2Proof

/-! ## The windows of a load (R106, R108) -/

/-- Stage 2 spreads over the windows wd − lead to wd − 1, in ascending order. -/
theorem spread_windows (units lead wd : Nat) :
    (spread units lead wd).map Prod.fst = (List.range lead).map fun i : Nat => (wd : Int) - lead + (i : Int) := by
  have hlist : (do let i ← List.range lead; pure (i : Int)) = (List.range lead).map fun i : Nat => (i : Int) :=
    List.flatMap_pure_eq_map ..
  rw [spread, hlist, List.map_map, List.map_map]
  rfl

theorem spread_sorted (units lead wd : Nat) : (spread units lead wd).Pairwise fun p q => p.1 < q.1 := by
  refine List.pairwise_map.mp ?_
  rw [spread_windows]
  exact List.pairwise_map.mpr (List.pairwise_lt_range.imp fun h => by omega)

theorem spread_bounds {units lead wd : Nat} {p : Int × Nat} (h : p ∈ spread units lead wd) :
    p.1 < wd ∧ (wd : Int) ≤ p.1 + lead := by
  have hp : p.1 ∈ (spread units lead wd).map Prod.fst := List.mem_map_of_mem h
  rw [spread_windows] at hp
  obtain ⟨i, hi, e⟩ := List.mem_map.mp hp
  have hi := List.mem_range.mp hi
  omega

/-- Stage 4 keeps the windows that have not begun. -/
theorem lateDrop_windows {w0 : Nat} {prep : List (Int × Nat)} {l : List (Nat × Nat)} (h : lateDrop w0 prep = some l) :
    l.map Prod.fst = (prep.filter fun x => decide ((w0 : Int) < x.1)).map fun x => x.1.toNat := by
  unfold lateDrop at h
  dsimp only at h
  split at h
  · cases h
  · rename_i w u rest heq
    cases h
    have hfst := congrArg (List.map Prod.fst) heq
    rw [List.map_map] at hfst
    exact hfst.symm

/-- The windows of a computed load lie behind the current one and within the class's lead of the delivery window, in
ascending order. -/
theorem computeLoad_windows {m : MenuClass} {heads delivery w0 : Nat} {x : Load}
    (h : computeLoad m heads delivery w0 = some x) :
    (∀ p ∈ x.shares, w0 < p.1 ∧ p.1 < windowOf delivery ∧ windowOf delivery ≤ p.1 + m.lead) ∧
      x.shares.Pairwise fun p q => p.1 < q.1 := by
  obtain ⟨l, hl, rfl⟩ := Option.map_eq_some_iff.mp h
  have hw := lateDrop_windows hl
  constructor
  · intro p hp
    have hmem : p.1 ∈ l.map Prod.fst := List.mem_map_of_mem hp
    rw [hw] at hmem
    obtain ⟨y, hy, hyp⟩ := List.mem_map.mp hmem
    obtain ⟨hys, hy0⟩ := List.mem_filter.mp hy
    have hb := spread_bounds hys
    have hy0 := of_decide_eq_true hy0
    omega
  · have hs : (l.map Prod.fst).Pairwise fun v w => v < w := by
      rw [hw]
      refine List.pairwise_map.mpr (List.Pairwise.imp_of_mem (fun {y z} hy _ hyz => ?_)
        ((spread_sorted _ _ _).filter _))
      have hy0 := of_decide_eq_true (List.mem_filter.mp hy).2
      omega
    exact List.pairwise_map.mp hs

/-- Shares of which no two fall on one ring entry. -/
def SharesApart (l : List (Nat × Nat)) : Prop := l.Pairwise fun p q => p.1 % 336 ≠ q.1 % 336

/-- The shares of a load whose class has a lead of at most 4 fall on ring entries of their own. -/
theorem computeLoad_apart {m : MenuClass} {heads delivery w0 : Nat} {x : Load}
    (h : computeLoad m heads delivery w0 = some x) (hm : m.lead ≤ 4) : SharesApart x.shares := by
  obtain ⟨hb, hs⟩ := computeLoad_windows h
  refine List.Pairwise.imp_of_mem (fun {p q} hp hq hpq => ?_) hs
  have h1 := hb p hp
  have h2 := hb q hq
  omega

/-! ## Shares in the ring (R109, R110) -/

theorem Kitchen.fits_iff (k : Kitchen) (l : List (Nat × Nat)) :
    k.fits l = true ↔ ∀ p ∈ l, p.2 = 0 ∨ k.committed p.1 + p.2 ≤ k.capacity p.1 := by
  simp [Kitchen.fits]

/-- Shares on ring entries of their own are each added to what their window holds. -/
theorem Kitchen.addShares_committed {l : List (Nat × Nat)} (hl : SharesApart l) (k : Kitchen) :
    ∀ p ∈ l, (k.addShares l).committed p.1 = k.committed p.1 + p.2 := by
  induction l generalizing k with
  | nil => nofun
  | cons q l ih =>
    obtain ⟨hq, hl⟩ := List.pairwise_cons.mp hl
    have step : k.addShares (q :: l) = (k.commit q.1 (k.committed q.1 + q.2)).addShares l := rfl
    intro p hp
    rw [step]
    rcases List.mem_cons.mp hp with rfl | hp
    · rw [(Kitchen.addShares_frame l _).2 _ fun r hr => (hq r hr).symm, Kitchen.commit_committed_same]
    · rw [ih hl _ p hp, Kitchen.commit_committed_other _ _ (hq p hp)]

/-- Testing shares on ring entries of their own leaves the units of their windows. -/
theorem Kitchen.touchTested_committed {l : List (Nat × Nat)} (hl : SharesApart l) (k : Kitchen) :
    ∀ p ∈ l, (k.touchTested l).committed p.1 = k.committed p.1 := by
  induction l generalizing k with
  | nil => nofun
  | cons q l ih =>
    obtain ⟨hq, hl⟩ := List.pairwise_cons.mp hl
    have step : k.touchTested (q :: l) = (if q.2 = 0 then k else k.touch q.1).touchTested l := rfl
    intro p hp
    rw [step]
    rcases List.mem_cons.mp hp with rfl | hp
    · rw [(Kitchen.touchTested_frame l _).2 _ fun r hr => (hq r hr).symm]
      split
      · rfl
      · exact Kitchen.commit_committed_same ..
    · rw [ih hl _ p hp]
      split
      · rfl
      · exact Kitchen.commit_committed_other _ _ (hq p hp)

/-- The capacity of a window does not read the ring. -/
theorem Kitchen.capacity_of_ring {k k' : Kitchen} (h : k' = { k with ring := k'.ring }) (w : Nat) :
    k'.capacity w = k.capacity w := by
  rw [h]; rfl

/-- The test of stage 5 reads the same on the kitchen whose tested windows have been read. -/
theorem Kitchen.touchTested_fits {l : List (Nat × Nat)} (hl : SharesApart l) (k : Kitchen) :
    (k.touchTested l).fits l = k.fits l := by
  rw [Bool.eq_iff_iff, Kitchen.fits_iff, Kitchen.fits_iff]
  refine forall₂_congr fun p hp => ?_
  rw [Kitchen.touchTested_committed hl k p hp, Kitchen.capacity_of_ring (Kitchen.touchTested_frame l k).1]

/-! ## The waitlist (R115) -/

/-- A slot stands in a waitlist behind the places it is not ahead of, and ahead of the first that it is ahead of. -/
theorem Records.insertWaiting_eq (b : Records) (sl : SlotNo) (l : List SlotNo) :
    ∃ front back : List SlotNo, l = front ++ back ∧ b.insertWaiting sl l = front ++ sl :: back ∧
      (∀ y ∈ front, ¬ (b.placeOf sl).ahead (b.placeOf y) = true) ∧
      ∀ y, back.head? = some y → (b.placeOf sl).ahead (b.placeOf y) = true := by
  induction l with
  | nil => exact ⟨[], [], rfl, rfl, by simp, by simp⟩
  | cons x xs ih =>
    by_cases h : (b.placeOf sl).ahead (b.placeOf x) = true
    · exact ⟨[], x :: xs, rfl, by simp [Records.insertWaiting, h], by simp, by simpa using h⟩
    · obtain ⟨front, back, rfl, h2, h3, h4⟩ := ih
      exact ⟨x :: front, back, rfl, by simp [Records.insertWaiting, h, h2], by simpa [h] using h3, h4⟩

@[simp] theorem Records.setKitchen_placeOf (b : Records) (k : KitchenNo) (x : Kitchen) (sl : SlotNo) :
    (b.setKitchen k x).placeOf sl = b.placeOf sl := rfl

@[simp] theorem Records.setKitchen_setKitchen (b : Records) (k : KitchenNo) (x y : Kitchen) :
    (b.setKitchen k x).setKitchen k y = b.setKitchen k y := by
  simp [Records.setKitchen]

theorem Kitchen.passIdle_iff (k : Kitchen) : k.passIdle = true ↔ k.pass = .idle := by simp [Kitchen.passIdle]

end Sys2Proof.Machine

/-! ORDER (R129 to R131): the checks, the claim of the slot, and the creation. -/

namespace Sys2Proof.Machine

open Sys2Proof

/-! ## The claim of a slot (R15, R19) -/

theorem Records.allocate_empty {b : Records} (hr : b.pool.state = .ready) (h : b.pool.freeCount = 0)
    (privileged : Bool) (body : SlotBody) : b.allocate privileged body = .error .poolEmpty := by
  simp [Records.allocate, hr, h]

theorem Records.allocate_low {b : Records} (hr : b.pool.state = .ready) (h0 : b.pool.freeCount ≠ 0)
    (h : b.pool.freeCount ≤ b.pool.floor) (body : SlotBody) : b.allocate false body = .error .poolLow := by
  simp [Records.allocate, hr, h0, h]

/-- From `b` to `b'` the head slot `sl` of the free list was taken for `body`, and the low notice judged. -/
structure Records.Claimed (b b' : Records) (sl : SlotNo) (rest : List SlotNo) (body : SlotBody) : Prop where
  slot : b'.slot sl = { gen := (b.slot sl).gen, body := body }
  others : ∀ q : SlotNo, q ≠ sl → b'.slot q = b.slot q
  freeList : b'.pool.freeList = rest
  freeCount : b'.pool.freeCount = b.pool.freeCount - 1
  rooms : b'.rooms = b.rooms
  kitchens : b'.kitchens = b.kitchens
  queues : b'.queues = b.queues
  lines : b'.lines = b.lines
  notices : b'.notices = if b.pool.lowArmed = true ∧ b.pool.freeCount - 1 = b.pool.floor then
    b.notices.raise (.part .poolLow) else b.notices

theorem Records.Claimed.kitchen {b b' : Records} {sl : SlotNo} {rest : List SlotNo} {body : SlotBody}
    (h : b.Claimed b' sl rest body) (q : KitchenNo) : b'.kitchen q = b.kitchen q := by
  simp only [Records.kitchen, h.kitchens]

section LowNotice

variable (b : Records)

@[simp] theorem Records.lowAfterAllocation_slot (q : SlotNo) : b.lowAfterAllocation.slot q = b.slot q := by
  rw [Records.lowAfterAllocation_eq]; split <;> rfl

@[simp] theorem Records.lowAfterAllocation_rooms : b.lowAfterAllocation.rooms = b.rooms := by
  rw [Records.lowAfterAllocation_eq]; split <;> rfl

@[simp] theorem Records.lowAfterAllocation_kitchens : b.lowAfterAllocation.kitchens = b.kitchens := by
  rw [Records.lowAfterAllocation_eq]; split <;> rfl

@[simp] theorem Records.lowAfterAllocation_queues : b.lowAfterAllocation.queues = b.queues := by
  rw [Records.lowAfterAllocation_eq]; split <;> rfl

@[simp] theorem Records.lowAfterAllocation_lines : b.lowAfterAllocation.lines = b.lines := by
  rw [Records.lowAfterAllocation_eq]; split <;> rfl

@[simp] theorem Records.lowAfterAllocation_freeList : b.lowAfterAllocation.pool.freeList = b.pool.freeList := by
  rw [Records.lowAfterAllocation_eq]; split <;> rfl

@[simp] theorem Records.lowAfterAllocation_freeCount : b.lowAfterAllocation.pool.freeCount = b.pool.freeCount := by
  rw [Records.lowAfterAllocation_eq]; split <;> rfl

@[simp] theorem Records.lowAfterAllocation_notices : b.lowAfterAllocation.notices =
    if b.pool.lowArmed = true ∧ b.pool.freeCount = b.pool.floor then b.notices.raise (.part .poolLow)
    else b.notices := by
  rw [Records.lowAfterAllocation_eq]; split <;> rfl

end LowNotice

/-- A claim that passes the reserve rule takes the head of the free list. -/
theorem Records.allocate_claimed {b : Records} {privileged : Bool} {sl : SlotNo} {rest : List SlotNo}
    (hr : b.pool.state = .ready) (hc : b.pool.freeCount ≠ 0)
    (hf : b.pool.floor < b.pool.freeCount ∨ privileged = true) (hl : b.pool.freeList = sl :: rest) (body : SlotBody) :
    ∃ b', b.allocate privileged body = .ok (sl, b') ∧ b.Claimed b' sl rest body := by
  refine ⟨_, Records.allocate_ok hr hc hf hl, ?_, fun q hq => ?_, ?_, ?_, ?_, ?_, ?_, ?_,
    Records.lowAfterAllocation_notices _⟩
  · simp; rfl
  · rw [Records.lowAfterAllocation_slot, Records.setBody_slot_other _ _ hq]; rfl
  all_goals simp

/-! ## Admission and the waitlist -/

/-- An order admitted while the pass engine is IDLE and its load fits (R109, R131). -/
theorem Records.admitOrWait_admits {b : Records} {sl : SlotNo} {o : Order} {x : Load} (hx : SharesApart x.shares)
    (hidle : (b.kitchen o.kitchen).pass = .idle) (hfits : (b.kitchen o.kitchen).fits x.shares = true) :
    b.admitOrWait sl o x =
      (b.setKitchen o.kitchen ((b.kitchen o.kitchen).touchTested x.shares)).admitOrder sl o x := by
  have hp : (b.kitchen o.kitchen).passIdle = true := (Kitchen.passIdle_iff _).mpr hidle
  have hf : ((b.kitchen o.kitchen).touchTested x.shares).fits x.shares = true := by
    rw [Kitchen.touchTested_fits hx, hfits]
  simp only [Records.admitOrWait, hp, if_true, Records.setKitchen_kitchen_same, hf]

/-- The kitchen that an order not admitted waits at: its tested windows read in IDLE, the again mark set otherwise. -/
def Kitchen.waitedAt (k : Kitchen) (x : Load) : Kitchen :=
  if k.pass = .idle then k.touchTested x.shares else { k with again := true }

/-- Why an order not admitted waits (R131). -/
def Kitchen.waitReason (k : Kitchen) : WaitReason := if k.pass = .idle then .noFit else .pass

/-- An order put on the waitlist while a pass is in flight or when its load does not fit (R131). -/
theorem Records.admitOrWait_waits {b : Records} {sl : SlotNo} {o : Order} {x : Load} (hx : SharesApart x.shares)
    (h : ¬ ((b.kitchen o.kitchen).pass = .idle ∧ (b.kitchen o.kitchen).fits x.shares = true)) :
    b.admitOrWait sl o x =
      (b.setKitchen o.kitchen ((b.kitchen o.kitchen).waitedAt x)).joinWaitlist sl o
        (b.kitchen o.kitchen).waitReason := by
  by_cases hidle : (b.kitchen o.kitchen).pass = .idle
  · have hp : (b.kitchen o.kitchen).passIdle = true := (Kitchen.passIdle_iff _).mpr hidle
    have hf : ¬ ((b.kitchen o.kitchen).touchTested x.shares).fits x.shares = true := by
      rw [Kitchen.touchTested_fits hx]; exact fun hf => h ⟨hidle, hf⟩
    simp only [Records.admitOrWait, hp, if_true, Records.setKitchen_kitchen_same, if_neg hf, Kitchen.waitedAt, hidle,
      Kitchen.waitReason]
  · have hp : ¬ (b.kitchen o.kitchen).passIdle = true := mt (Kitchen.passIdle_iff _).mp hidle
    simp only [Records.admitOrWait, if_neg hp, Kitchen.waitedAt, if_neg hidle, Kitchen.waitReason]

/-- The kitchen at which an order waits differs in its ring and its again mark. -/
theorem Kitchen.waitedAt_eq (k : Kitchen) (x : Load) :
    k.waitedAt x = { k with ring := (k.waitedAt x).ring, again := k.again || decide (k.pass ≠ .idle) } := by
  unfold Kitchen.waitedAt
  split
  · rename_i h
    rw [(Kitchen.touchTested_frame x.shares k).1]
    simp [h]
  · rename_i h
    simp [h]

/-- The units committed at the kitchen at which an order waits: those of its own windows, and those of windows on
other ring entries. -/
theorem Kitchen.waitedAt_committed {x : Load} (hx : SharesApart x.shares) (k : Kitchen) :
    (∀ p ∈ x.shares, (k.waitedAt x).committed p.1 = k.committed p.1) ∧
      ∀ v, (∀ p ∈ x.shares, p.1 % 336 ≠ v % 336) → (k.waitedAt x).committed v = k.committed v := by
  unfold Kitchen.waitedAt
  split
  · exact ⟨Kitchen.touchTested_committed hx k, (Kitchen.touchTested_frame x.shares k).2⟩
  · exact ⟨fun _ _ => rfl, fun _ _ => rfl⟩

/-- An order on its waitlist, as the writes of R115: the record with its stamp and reason, and the kitchen with the
slot at its place. -/
theorem Records.joinWaitlist_eq (b : Records) (sl : SlotNo) (o : Order) (why : WaitReason) :
    ∃ front back : List SlotNo,
      let k := b.kitchen o.kitchen
      let b' := b.joinWaitlist sl o why
      k.waitlist = front ++ back ∧
      b' = (b.setBody sl (.order { o with
          state := .waitlisted, shares := [], admission := none, wait := some (nextStamp k.waits, why) })).setKitchen
        o.kitchen { k with waits := nextStamp k.waits, waitlist := front ++ sl :: back } ∧
      (∀ y ∈ front, ¬ (b'.placeOf sl).ahead (b'.placeOf y) = true) ∧
      ∀ y, back.head? = some y → (b'.placeOf sl).ahead (b'.placeOf y) = true := by
  obtain ⟨front, back, hsplit, hins, hfront, hback⟩ := (b.setBody sl (.order { o with
    state := .waitlisted, shares := [], admission := none
    wait := some (nextStamp (b.kitchen o.kitchen).waits, why) })).insertWaiting_eq sl (b.kitchen o.kitchen).waitlist
  refine ⟨front, back, hsplit, ?_, hfront, hback⟩
  rw [← hins]; rfl

/-- The record and the kitchen that admission or the waitlist makes of a new order `o` with load `x` at a kitchen `k`
that it leaves as `k'`: what R109 and R115 say of both. -/
structure Records.OrderSettled (b' : Records) (sl : SlotNo) (o o' : Order) (x : Load) (k k' : Kitchen) : Prop where
  order : o' = { o with state := o'.state, shares := o'.shares, admission := o'.admission, wait := o'.wait }
  elsewhere : ∀ v, (∀ p ∈ x.shares, p.1 % 336 ≠ v % 336) → k'.committed v = k.committed v
  admitted : k.pass = .idle → k.fits x.shares = true →
    o'.state = .confirmed ∧ o'.shares = x.shares ∧ o'.admission = some (nextStamp k.admissions) ∧ o'.wait = none ∧
    k' = { k with ring := k'.ring, admissions := nextStamp k.admissions } ∧
    ∀ p ∈ x.shares, k'.committed p.1 = k.committed p.1 + p.2
  waits : ¬ (k.pass = .idle ∧ k.fits x.shares = true) →
    o'.state = .waitlisted ∧ o'.shares = [] ∧ o'.admission = none ∧
    o'.wait = some (nextStamp k.waits, k.waitReason) ∧
    ∃ front back : List SlotNo, k.waitlist = front ++ back ∧
      (∀ y ∈ front, ¬ (b'.placeOf sl).ahead (b'.placeOf y) = true) ∧
      (∀ y, back.head? = some y → (b'.placeOf sl).ahead (b'.placeOf y) = true) ∧
      k' = { k with
        ring := k'.ring, again := k.again || decide (k.pass ≠ .idle), waits := nextStamp k.waits
        waitlist := front ++ sl :: back } ∧
      ∀ p ∈ x.shares, k'.committed p.1 = k.committed p.1

/-- A kitchen written before and after a slot is the one written last. -/
theorem Records.setKitchen_setBody_setKitchen (b : Records) (k : KitchenNo) (x y : Kitchen) (sl : SlotNo)
    (z : SlotBody) : ((b.setKitchen k x).setBody sl z).setKitchen k y = (b.setKitchen k y).setBody sl z := by
  simp [Records.setKitchen, Records.setBody, Records.slot]

/-- Admission or the waitlist writes the order's record and its kitchen, and nothing else. -/
theorem Records.admitOrWait_settled (b : Records) (sl : SlotNo) {o : Order} {x : Load} (hx : SharesApart x.shares)
    (hload : o.load = x.units) (hprep : o.prepStart = x.prepStart) :
    ∃ (k' : Kitchen) (o' : Order),
      b.admitOrWait sl o x = (b.setKitchen o.kitchen k').setBody sl (.order o') ∧
      (b.admitOrWait sl o x).OrderSettled sl o o' x (b.kitchen o.kitchen) k' := by
  by_cases h : (b.kitchen o.kitchen).pass = .idle ∧ (b.kitchen o.kitchen).fits x.shares = true
  · set k := b.kitchen o.kitchen with hk
    have heq : b.admitOrWait sl o x =
        (b.setKitchen o.kitchen { (k.touchTested x.shares).addShares x.shares with
          admissions := nextStamp (k.touchTested x.shares).admissions }).setBody sl (.order { o with
            state := .confirmed, load := x.units, shares := x.shares, prepStart := x.prepStart
            admission := some (nextStamp (k.touchTested x.shares).admissions), wait := none }) := by
      rw [Records.admitOrWait_admits hx h.1 h.2, Records.admitOrder, Records.setKitchen_kitchen_same,
        Records.setKitchen_setKitchen]
    have hadm : (k.touchTested x.shares).admissions = k.admissions := by rw [(Kitchen.touchTested_frame x.shares k).1]
    refine ⟨_, _, heq, ?_, fun v hv => ?_, fun _ _ => ⟨rfl, rfl, by rw [hadm], rfl, ?_, fun p hp => ?_⟩,
      fun hn => absurd h hn⟩
    · simp [hload, hprep]
    · exact ((Kitchen.addShares_frame x.shares _).2 v hv).trans ((Kitchen.touchTested_frame x.shares k).2 v hv)
    · rw [(Kitchen.addShares_frame x.shares _).1, (Kitchen.touchTested_frame x.shares k).1]
    · refine (Kitchen.addShares_committed hx _ p hp).trans ?_
      rw [Kitchen.touchTested_committed hx k p hp]
  · obtain ⟨front, back, hsplit, heq, hfront, hback⟩ :=
      (b.setKitchen o.kitchen ((b.kitchen o.kitchen).waitedAt x)).joinWaitlist_eq sl o (b.kitchen o.kitchen).waitReason
    rw [← Records.admitOrWait_waits hx h] at heq hfront hback
    rw [Records.setKitchen_kitchen_same] at hsplit heq
    have hwaited := (b.kitchen o.kitchen).waitedAt_eq x
    have hwaits : ((b.kitchen o.kitchen).waitedAt x).waits = (b.kitchen o.kitchen).waits := by rw [hwaited]
    have hlist : ((b.kitchen o.kitchen).waitedAt x).waitlist = (b.kitchen o.kitchen).waitlist := by rw [hwaited]
    rw [hlist] at hsplit
    rw [hwaits] at heq
    obtain ⟨hown, helse⟩ := (b.kitchen o.kitchen).waitedAt_committed hx
    refine ⟨_, _, heq.trans (Records.setKitchen_setBody_setKitchen ..), rfl, helse, fun hi hf => absurd ⟨hi, hf⟩ h,
      fun _ => ⟨rfl, rfl, rfl, rfl, front, back, hsplit, hfront, hback, ?_, hown⟩⟩
    conv_lhs => rw [hwaited]

end Sys2Proof.Machine

/-! ORDER at its owner (R129, R131). -/

namespace Sys2Proof.Machine

open Sys2Proof

/-! ## The judgement of a delivery minute (R106, R129) -/

section Delivery

variable {k : Booking} {d w0 : Nat}

theorem judgeSupplied_above (h : 16777215 < d) : judgeSupplied k d w0 = some .badTime := if_pos h

theorem judgeSupplied_within (h : d ≤ 16777215) : judgeSupplied k d w0 = judgeDelivery k (d / 5 * 5) w0 :=
  if_neg (Nat.not_lt.mpr h)

theorem judgeDelivery_horizon (h : w0 + 335 < d / 30) : judgeDelivery k d w0 = some .horizon := if_pos h

theorem judgeDelivery_badTime (hw : d / 30 ≤ w0 + 335) (h : d + 30 < k.start ∨ k.stop ≤ d) :
    judgeDelivery k d w0 = some .badTime :=
  (if_neg (Nat.not_lt.mpr hw)).trans (if_pos h)

theorem judgeDelivery_timely (hw : d / 30 ≤ w0 + 335) (h1 : k.start ≤ d + 30) (h2 : d < k.stop) :
    judgeDelivery k d w0 = none :=
  (if_neg (Nat.not_lt.mpr hw)).trans (if_neg (by omega))

end Delivery

@[simp] theorem menuNo?_val (m : Fin 16) : menuNo? m.val = some m := by simp [menuNo?]

theorem menuNo?_none {n : Nat} (h : 16 ≤ n) : menuNo? n = none := by simp [menuNo?]; omega

/-! ## The checks of R129 -/

section Judge

variable {s : State} {b : Records} {h : Handle} {k : Booking} {m : Fin 16} {kt : KitchenNo} {heads d : Nat}

theorem State.judgeOrder_held (hs : k.state = .held) (mc : Nat) :
    s.judgeOrder b h k mc heads d = .error .wrongState := if_pos hs

theorem State.judgeOrder_badClass (hs : k.state ≠ .held) {mc : Nat} (hm : 16 ≤ mc) :
    s.judgeOrder b h k mc heads d = .error .badValue := by
  simp only [State.judgeOrder, if_neg hs, menuNo?_none hm]

variable (hs : k.state ≠ .held)

include hs

theorem State.judgeOrder_noKitchen (hk : (b.room k.room).attrs.kitchen = none) :
    s.judgeOrder b h k m.val heads d = .error .badKitchen := by
  simp only [State.judgeOrder, if_neg hs, menuNo?_val, hk]

variable (hk : (b.room k.room).attrs.kitchen = some kt)

include hk

theorem State.judgeOrder_noTerminal (ht : (b.kitchen kt).terminal = none) :
    s.judgeOrder b h k m.val heads d = .error .noTerminal := by
  simp only [State.judgeOrder, if_neg hs, menuNo?_val, hk, ht, Option.isSome_none, firstRefusal_fail]

theorem State.judgeOrder_full (ht : (b.kitchen kt).terminal ≠ none) (ha : 4 ≤ k.annex.length) :
    s.judgeOrder b h k m.val heads d = .error .limit := by
  simp only [State.judgeOrder, if_neg hs, menuNo?_val, hk, Option.isSome_iff_ne_none.mpr ht,
    decide_eq_false (Nat.not_lt.mpr ha), firstRefusal_pass, firstRefusal_fail]

variable (ht : (b.kitchen kt).terminal ≠ none) (ha : k.annex.length < 4)

include ht ha

/-- Past the checks on the booking and its kitchen, the delivery minute and the load judge. -/
theorem State.judgeOrder_delivery :
    s.judgeOrder b h k m.val heads d =
      match judgeSupplied k d (s.clk.minute / 30) with
      | some st => .error st
      | none =>
        match computeLoad s.menu[m.val] (formHeadcount heads k.attendees).1 (d / 5 * 5) (s.clk.minute / 30) with
        | none => .error .tooLate
        | some x => .ok (newOrder h k.room kt m (formHeadcount heads k.attendees).1 (d / 5 * 5) x, x) := by
  simp only [State.judgeOrder, if_neg hs, menuNo?_val, hk, Option.isSome_iff_ne_none.mpr ht, decide_eq_true ha,
    firstRefusal_pass, firstRefusal_nil]
  rfl

end Judge

/-! ## The creation (R131) -/

/-- The status of an order that is applied. -/
theorem Order.status_eq (o : Order) (clamped : Prop) [Decidable clamped] :
    o.status (decide clamped) = if o.state = .waitlisted then .waitlisted else if clamped then .clamped else .ok := by
  simp [Order.status]

/-- The place of a waitlisted order whose owner lives: the owner's class, its stamp and its slot. -/
theorem Records.placeOf_owned {b : Records} {sl owner : SlotNo} {o : Order} {k : Booking} {g : Handle} {stamp : Nat}
    {why : WaitReason} (ho : (b.slot sl).body = .order o) (hw : o.wait = some (stamp, why)) (hg : o.owner = some g)
    (hs : g.slot = owner.val) (hk : (b.slot owner).body = .booking k) :
    b.placeOf sl = { cls := k.cls, stamp := stamp, slot := sl } := by
  have hclass : b.orderClass o = k.cls := by
    simp [Records.orderClass, hg, hs, Records.booking?_eq_some.mpr hk]
  simp [Records.placeOf, Records.order?_eq_some.mpr ho, hclass, hw]

section Ordered

variable {s : State} {h : Handle} {b : Records} {owner : SlotNo} {k : Booking} {mc heads d : Nat}
  (hr : s.recs.pool.state = .ready) (hc : s.clk.state ≠ .unset)

include hr hc

theorem State.order_refused {st : Status} (hn : s.recs.nameBooking s.clk h = (b, .error st)) :
    s.order h mc heads d = (s.withRecs b, .now st []) := by
  rw [State.order, State.gated_open hr hc, hn]; rfl

variable (hn : s.recs.nameBooking s.clk h = (b, .ok (owner, k)))

include hn

theorem State.order_judged {st : Status} (hj : s.judgeOrder b h k mc heads d = .error st) :
    s.order h mc heads d = (s.withRecs b, .now st []) := by
  rw [State.order, State.gated_open hr hc, hn]
  simp only [hj]; rfl

theorem State.order_unclaimed {o : Order} {x : Load} {st : Status}
    (hj : s.judgeOrder b h k mc heads d = .ok (o, x))
    (ha : b.allocate (decide (k.cls = .executive)) (.order o) = .error st) :
    s.order h mc heads d = (s.withRecs b, .now st []) := by
  rw [State.order, State.gated_open hr hc, hn]
  simp only [hj, Records.createOrder, ha]; rfl

/-- An order created: its slot claimed, its owner's annex chain lengthened, and the order settled. -/
theorem State.order_created {o o' : Order} {x : Load} {sl : SlotNo} {b1 b' : Records}
    (hj : s.judgeOrder b h k mc heads d = .ok (o, x))
    (ha : b.allocate (decide (k.cls = .executive)) (.order o) = .ok (sl, b1))
    (hb : (b1.setBody owner (.booking { k with annex := k.annex ++ [sl] })).admitOrWait sl o x = b')
    (ho : (b'.slot sl).body = .order o') :
    s.order h mc heads d = (s.withRecs b',
      .now (o'.status (formHeadcount heads k.attendees).2) (b'.orderedPayload sl o')) := by
  rw [State.order, State.gated_open hr hc, hn]
  simp only [hj, Records.createOrder, ha, hb, Records.order?_eq_some.mpr ho, Option.getD_some]

end Ordered

/-- A claimed slot given to an order of `owner`, which is written with it, and the order's kitchen written: what each
table then holds. -/
theorem Records.Claimed.created {b b1 b' : Records} {sl owner : SlotNo} {rest : List SlotNo} {body : SlotBody}
    {k : Booking} {kt : KitchenNo} {kit : Kitchen} {o : Order} (hcl : b.Claimed b1 sl rest body) (hne : owner ≠ sl)
    (hb : b' = ((b1.setBody owner (.booking k)).setKitchen kt kit).setBody sl (.order o)) :
    b'.slot sl = { gen := (b.slot sl).gen, body := .order o } ∧
    b'.slot owner = { gen := (b.slot owner).gen, body := .booking k } ∧
    (∀ q : SlotNo, q ≠ sl → q ≠ owner → b'.slot q = b.slot q) ∧
    b'.pool.freeList = rest ∧ b'.pool.freeCount = b.pool.freeCount - 1 ∧
    b'.rooms = b.rooms ∧ b'.lines = b.lines ∧ b'.queues = b.queues ∧
    b'.notices = (if b.pool.lowArmed = true ∧ b.pool.freeCount - 1 = b.pool.floor then
      b.notices.raise (.part .poolLow) else b.notices) ∧
    (∀ q : KitchenNo, q ≠ kt → b'.kitchen q = b.kitchen q) ∧ b'.kitchen kt = kit := by
  subst hb
  refine ⟨?_, ?_, fun q hq hq' => ?_, hcl.freeList, hcl.freeCount, hcl.rooms, hcl.lines, hcl.queues, hcl.notices,
    fun q hq => ?_, by simp⟩
  · simp [Records.setBody_slot_other _ _ hne.symm, hcl.slot]
  · simp [Records.setBody_slot_other _ _ hne, hcl.others owner hne]
  · simp [Records.setBody_slot_other _ _ hq, Records.setBody_slot_other _ _ hq', hcl.others q hq]
  · rw [Records.setBody_kitchen, Records.setKitchen_kitchen_other _ _ hq, Records.setBody_kitchen]
    exact hcl.kitchen q

/-- Settles O51: the gates, the checks of R129 in their order, and the order created. -/
theorem orderPlaced : Obligations.OrderPlaced := by
  intro tag h mc hc d s hidle answered
  refine ⟨fun hr => State.serve_idle_now hidle (State.gated_notReady hr _),
    fun hr hu => State.serve_idle_now hidle (State.gated_unset hr hu _),
    fun b st hr hu hn => State.serve_idle_now hidle (State.order_refused hr hu hn), fun b owner k hr hu hn => ?_⟩
  intro refused w0 dd supplied
  have judged : ∀ st, s.judgeOrder b h k mc hc d = .error st → refused st := fun st hj =>
    State.serve_idle_now hidle (State.order_judged hr hu hn hj)
  refine ⟨fun hs => judged _ (State.judgeOrder_held hs _), fun hs hm => judged _ (State.judgeOrder_badClass hs hm),
    fun hs hm hk => ?_, fun m kt hs hm hk => ?_⟩
  · exact judged _ (State.judgeOrder_noKitchen (m := ⟨mc, hm⟩) hs hk)
  subst hm
  intro x load timely
  refine ⟨fun ht => judged _ (State.judgeOrder_noTerminal hs hk ht),
    fun ht ha => judged _ (State.judgeOrder_full hs hk ht ha), fun ht ha => ?_⟩
  have hdel := State.judgeOrder_delivery (s := s) (h := h) (m := m) (heads := hc) (d := d) hs hk ht ha
  have htimely : timely → judgeSupplied k d (s.clk.minute / 30) = none := fun ⟨h1, h2, h3, h4⟩ =>
    (judgeSupplied_within h1).trans (judgeDelivery_timely h2 h3 h4)
  have hload : ∀ y, timely → load = some y →
      s.judgeOrder b h k m.val hc d = .ok (newOrder h k.room kt m (min supplied 250) dd y, y) := fun y hy hl => by
    rw [hdel, htimely hy]
    have hl' : computeLoad s.menu[m.val] (formHeadcount hc k.attendees).1 (d / 5 * 5) (s.clk.minute / 30) = some y := hl
    simp only [hl']; rfl
  have hready : b.pool.state = .ready := (Records.nameBooking_ok hn).2.2.state.trans hr
  refine ⟨fun h1 => judged _ ?_, fun h1 h2 => judged _ ?_, fun h1 h2 h3 => judged _ ?_, fun hy hl => judged _ ?_,
    fun y hy hl h0 hlow hcls => ?_, fun y hy hl h0 => ?_, fun y sl rest hy hl _ hfl h0 hres hfree hlead => ?_⟩
  · rw [hdel, judgeSupplied_above h1]
  · rw [hdel, judgeSupplied_within h1, judgeDelivery_horizon h2]
  · rw [hdel, judgeSupplied_within h1, judgeDelivery_badTime h2 h3]
  · have hl' : computeLoad s.menu[m.val] (formHeadcount hc k.attendees).1 (d / 5 * 5) (s.clk.minute / 30) = none := hl
    rw [hdel, htimely hy, hl']
  · refine State.serve_idle_now hidle (State.order_unclaimed hr hu hn (hload y hy hl) ?_)
    rw [decide_eq_false hcls]
    exact Records.allocate_low hready h0 hlow _
  · exact State.serve_idle_now hidle (State.order_unclaimed hr hu hn (hload y hy hl)
      (Records.allocate_empty hready h0 _ _))
  · have hbk : (b.slot owner).body = .booking k := (Records.nameBooking_ok hn).2.1
    have hne : owner ≠ sl := fun e => by
      rw [e, hfree] at hbk; cases hbk
    have hapart : SharesApart y.shares := computeLoad_apart hl hlead
    intro fits admission wait before
    have hfits : x.fits y.shares = true ↔ fits := x.fits_iff _
    obtain ⟨b1, halloc, hcl⟩ := Records.allocate_claimed hready h0 (hres.imp_right decide_eq_true) hfl
      (.order (newOrder h k.room kt m (min supplied 250) dd y))
    have hxk : (b1.setBody owner (.booking { k with annex := k.annex ++ [sl] })).kitchen kt = x := by
      rw [Records.setBody_kitchen, hcl.kitchen]
    obtain ⟨kit, o, hplaced, hset⟩ := Records.admitOrWait_settled
      (b1.setBody owner (.booking { k with annex := k.annex ++ [sl] })) sl
      (o := newOrder h k.room kt m (min supplied 250) dd y) hapart rfl rfl
    obtain ⟨hslot, hown, hothers, hlist, hcount, hrooms, hlines, hqueues, hnotices, hkothers, hkit⟩ :=
      hcl.created hne hplaced
    generalize hb' : (b1.setBody owner (.booking { k with annex := k.annex ++ [sl] })).admitOrWait sl
      (newOrder h k.room kt m (min supplied 250) dd y) y = b' at *
    have hcreated := State.order_created hr hu hn (hload y hy hl) halloc hb' (by rw [hslot])
    change b'.kitchen kt = kit at hkit
    change b'.OrderSettled sl _ o y (Records.kitchen _ kt) kit at hset
    rw [hxk] at hset
    refine ⟨b', o, (State.serve_idle_now hidle hcreated).trans ?_, hset.order, hslot, hown, hothers, hlist, hcount,
      hrooms, hlines, hqueues, hnotices, hkothers, fun v hv => ?_, fun hi hf => ?_, fun hnot => ?_⟩
    · rw [← Order.status_eq]; rfl
    · rw [hkit]; exact hset.elsewhere v hv
    · rw [hkit]; exact hset.admitted hi (hfits.mpr hf)
    · obtain ⟨hst, hsh, hadm, hwait, front, back, hsplit, hfront, hback, hk', hcom⟩ :=
        hset.waits fun hboth => hnot ⟨hboth.1, hfits.mp hboth.2⟩
      refine ⟨hst, hsh, hadm, hwait, front, back, hsplit, ?_, fun q hq => ?_, fun q hq => ?_, ?_, ?_⟩
      · have howner : o.owner = some h := congrArg Order.owner hset.order
        exact Records.placeOf_owned (k := { k with annex := k.annex ++ [sl] }) (by rw [hslot]) hwait howner
          (Records.nameBooking_ok hn).1 (by rw [hown])
      · exact fun hbefore => hfront q hq ((WaitPlace.ahead_iff _ _).mpr hbefore)
      · exact (WaitPlace.ahead_iff _ _).mp (hback q hq)
      · rw [hkit]; exact hk'
      · rw [hkit]; exact hcom

end Sys2Proof.Machine

/-! AMEND_ORDER and CANCEL_ORDER (R133 to R135). -/

namespace Sys2Proof.Machine

open Sys2Proof

/-! ## The owner of an order, and CANCEL_ORDER -/

/-- The owner of an order, when its handle names a living booking's slot. -/
theorem Records.ownerOf_eq {b : Records} {o : Order} {g : Handle} {owner : SlotNo} {k : Booking}
    (hg : o.owner = some g) (hs : g.slot = owner.val) (hk : (b.slot owner).body = .booking k) :
    b.ownerOf o = some (owner, k) := by
  simp [Records.ownerOf, hg, hs, Records.booking?_eq_some.mpr hk]

theorem Settled.byte_eq (x : Settled) : x.byte = if x = .freed then 0 else 1 := by cases x <;> rfl

section Named

variable {s : State} {h : Handle} {b : Records} (hr : s.recs.pool.state = .ready) (hc : s.clk.state ≠ .unset)

include hr hc

theorem State.cancelOrder_refused {st : Status} (hn : s.recs.nameOrder s.clk h false = (b, .error st)) :
    s.cancelOrder h = (s.withRecs b, .now st []) := by
  rw [State.cancelOrder, State.gated_open hr hc, hn]; rfl

theorem State.cancelOrder_named {sl : SlotNo} {o : Order}
    (hn : s.recs.nameOrder s.clk h false = (b, .ok (sl, o))) :
    s.cancelOrder h = (s.withRecs ((b.leaveAnnex sl o).settleOrder s.clk sl).1,
      .now .ok [((b.leaveAnnex sl o).settleOrder s.clk sl).2.byte]) := by
  rw [State.cancelOrder, State.gated_open hr hc, hn]

variable {a : AmendOrderArgs}

theorem State.amendOrder_refused {st : Status} (hn : s.recs.nameOrder s.clk a.handle true = (b, .error st)) :
    s.amendOrder a = (s.withRecs b, .now st []) := by
  rw [State.amendOrder, State.gated_open hr hc, hn]; rfl

variable {sl owner : SlotNo} {o : Order} {k : Booking} (hn : s.recs.nameOrder s.clk a.handle true = (b, .ok (sl, o)))
  (ho : b.ownerOf o = some (owner, k))

include hn ho

theorem State.amendOrder_judged {st : Status} (hj : s.judgeAmendOrder b a o k = .error st) :
    s.amendOrder a = (s.withRecs b, .now st []) := by
  rw [State.amendOrder, State.gated_open hr hc, hn]
  simp only [ho, hj]; rfl

theorem State.amendOrder_noFit {o' : Order} {x : Load} {clamped : Bool}
    (hj : s.judgeAmendOrder b a o k = .ok (o', x, clamped)) (ha : b.amendOrderTo s.clk sl o o' x = none) :
    s.amendOrder a = (s.withRecs b, .now .noFit []) := by
  rw [State.amendOrder, State.gated_open hr hc, hn]
  simp only [ho, hj, ha]; rfl

theorem State.amendOrder_applied {o' o'' : Order} {x : Load} {clamped : Bool} {b' : Records}
    (hj : s.judgeAmendOrder b a o k = .ok (o', x, clamped)) (ha : b.amendOrderTo s.clk sl o o' x = some b')
    (hb : (b'.slot sl).body = .order o'') :
    s.amendOrder a = (s.withRecs b', .now (o''.status clamped) (b'.orderPayload sl o'')) := by
  rw [State.amendOrder, State.gated_open hr hc, hn]
  simp only [ho, hj, ha, Records.order?_eq_some.mpr hb, Option.getD_some]

end Named

/-! ## The checks of R133 -/

theorem Order.amendable_iff (o : Order) (w0 : Nat) :
    o.amendable w0 = true ↔ o.state = .waitlisted ∨ (o.state = .confirmed ∧ w0 < o.prepStart) := by
  simp [Order.amendable]

section Judge

variable {s : State} {b : Records} {a : AmendOrderArgs} {o : Order} {k : Booking}

theorem amendedClass_some {m : Fin 16} (h : a.menuClass.getD o.menuClass.val = m.val) : amendedClass a o = some m := by
  unfold amendedClass
  cases hm : a.menuClass with
  | none => rw [hm] at h; exact congrArg some (Fin.ext h)
  | some n => rw [hm] at h; obtain rfl : n = m.val := h; exact menuNo?_val m

theorem amendedClass_none (h : 16 ≤ a.menuClass.getD o.menuClass.val) : amendedClass a o = none := by
  unfold amendedClass
  cases hm : a.menuClass with
  | none => rw [hm] at h; exact absurd o.menuClass.isLt (Nat.not_lt.mpr h)
  | some n => rw [hm] at h; exact menuNo?_none h

/-- A supplied delivery minute above the range is BAD_TIME. -/
theorem judgeNewDelivery_above {v w0 : Nat} (hv : a.delivery = some v) (h : 16777215 < v) :
    judgeNewDelivery a o k w0 = some .badTime := by
  simp only [judgeNewDelivery, hv, judgeSupplied_above h]

/-- A delivery minute within the range, kept or new, is judged rounded (R106, R133). -/
theorem judgeNewDelivery_within {w0 : Nat} (h : ∀ v, a.delivery = some v → v ≤ 16777215) :
    judgeNewDelivery a o k w0 = judgeDelivery k ((a.delivery.map fun m => m / 5 * 5).getD o.delivery) w0 := by
  unfold judgeNewDelivery
  cases hd : a.delivery with
  | none => rfl
  | some v => exact judgeSupplied_within (h v hd)

/-- The headcount after an AMEND_ORDER: the one supplied, formed as R130 has it, or the one kept. -/
theorem amendedHeadcount_eq (a : AmendOrderArgs) (o : Order) (attendees : Nat) :
    amendedHeadcount a o attendees =
      (let supplied := a.headcount.elim o.headcount fun n => if n = 0 then attendees else n
       (if a.headcount.isSome then min supplied 250 else o.headcount,
        decide (a.headcount.isSome = true ∧ 250 < supplied))) := by
  unfold amendedHeadcount
  cases a.headcount with
  | none => simp
  | some n => simp [formHeadcount]

theorem State.judgeAmendOrder_state (h : ¬ o.amendable s.clk.w0 = true) :
    s.judgeAmendOrder b a o k = .error .wrongState := by
  simp only [State.judgeAmendOrder, Bool.eq_false_iff.mpr h, firstRefusal_fail]

variable (h7 : o.amendable s.clk.w0 = true)

include h7

theorem State.judgeAmendOrder_busy (h : (b.kitchen o.kitchen).pass ≠ .idle) :
    s.judgeAmendOrder b a o k = .error .passBusy := by
  simp only [State.judgeAmendOrder, h7, Bool.eq_false_iff.mpr (mt (Kitchen.passIdle_iff _).mp h), firstRefusal_pass,
    firstRefusal_fail]

variable (h8 : (b.kitchen o.kitchen).pass = .idle)

include h8

theorem State.judgeAmendOrder_badClass (h : 16 ≤ a.menuClass.getD o.menuClass.val) :
    s.judgeAmendOrder b a o k = .error .badValue := by
  simp only [State.judgeAmendOrder, h7, (Kitchen.passIdle_iff _).mpr h8, firstRefusal_pass, firstRefusal_nil,
    amendedClass_none h]

variable {m : Fin 16} (h9 : a.menuClass.getD o.menuClass.val = m.val)

include h9

theorem State.judgeAmendOrder_untimely {st : Status} (hd : judgeNewDelivery a o k s.clk.w0 = some st) :
    s.judgeAmendOrder b a o k = .error st := by
  simp only [State.judgeAmendOrder, h7, (Kitchen.passIdle_iff _).mpr h8, firstRefusal_pass, firstRefusal_nil,
    amendedClass_some h9, hd]

variable {d heads : Nat} {clamped : Bool} (hd : judgeNewDelivery a o k s.clk.w0 = none)
  (hm : (a.delivery.map floor5).getD o.delivery = d) (hh : amendedHeadcount a o k.attendees = (heads, clamped))

include hd hm hh

theorem State.judgeAmendOrder_tooLate (hl : computeLoad s.menu[m.val] heads d s.clk.w0 = none) :
    s.judgeAmendOrder b a o k = .error .tooLate := by
  simp only [State.judgeAmendOrder, h7, (Kitchen.passIdle_iff _).mpr h8, firstRefusal_pass, firstRefusal_nil,
    amendedClass_some h9, hd, hm, hh, hl]

/-- An AMEND_ORDER that passes: the order as it would be stored, its load and whether the headcount was clamped. -/
theorem State.judgeAmendOrder_ok {x : Load} (hl : computeLoad s.menu[m.val] heads d s.clk.w0 = some x) :
    s.judgeAmendOrder b a o k =
      .ok ({ o with headcount := heads, menuClass := m, delivery := d, load := x.units, prepStart := x.prepStart },
        x, clamped) := by
  simp only [State.judgeAmendOrder, h7, (Kitchen.passIdle_iff _).mpr h8, firstRefusal_pass, firstRefusal_nil,
    amendedClass_some h9, hd, hm, hh, hl]

end Judge

/-! ## The change of an order and its kitchen (R110, R114, R116, R134) -/

/-- A promotion trigger at an IDLE pass engine begins a walk. -/
theorem Kitchen.promote_of_idle {k : Kitchen} (h : k.pass = .idle) :
    k.promote = { k with pass := .promoting none, again := false } := by
  simp only [Kitchen.promote, h]

theorem Records.setKitchen_self (b : Records) (k : KitchenNo) : b.setKitchen k (b.kitchen k) = b := by
  simp [Records.setKitchen, Records.kitchen]

/-- A promotion trigger when triggers act (R116), and nothing otherwise. -/
def Kitchen.promoteIf (k : Kitchen) (acts : Bool) : Kitchen := if acts then k.promote else k

/-- A kitchen and a slot written, and a promotion trigger when `low` says so, as the two writes they come to. -/
theorem Records.writeOrder_trigger (b : Records) (c : Clock) (k : KitchenNo) (x : Kitchen) (sl : SlotNo) (y : SlotBody)
    (low : Bool) :
    (if low then ((b.setKitchen k x).setBody sl y).promotionTrigger c k else (b.setKitchen k x).setBody sl y) =
      (b.setKitchen k (x.promoteIf (low && b.triggersAct c))).setBody sl y := by
  cases low
  · rfl
  · have hacts : ((b.setKitchen k x).setBody sl y).triggersAct c = b.triggersAct c := rfl
    simp only [if_true, Records.promotionTrigger, hacts, Bool.true_and, Kitchen.promoteIf]
    cases b.triggersAct c
    · rfl
    · simp only [if_true, Records.setBody_kitchen, Records.setKitchen_kitchen_same]
      exact Records.setKitchen_setBody_setKitchen ..

/-- A WAITLISTED order amended: its record, and a promotion trigger (R134). -/
theorem Records.amendOrderTo_waitlisted (b : Records) {o : Order} (c : Clock) (sl : SlotNo) (o' : Order) (x : Load)
    (h : o.state = .waitlisted) :
    b.amendOrderTo c sl o o' x =
      some ((b.setKitchen o.kitchen ((b.kitchen o.kitchen).promoteIf (b.triggersAct c))).setBody sl (.order o')) := by
  rw [Records.amendOrderTo, if_pos h]
  have h' := b.writeOrder_trigger c o.kitchen (b.kitchen o.kitchen) sl (.order o') true
  rw [Records.setKitchen_self] at h'
  exact congrArg some h'

/-- The kitchen of a CONFIRMED order whose load is replaced: the old shares released, the new ones added (R114). -/
def Kitchen.exchanged (k : Kitchen) (w0 : Nat) (old new : List (Nat × Nat)) : Kitchen :=
  (k.subShares w0 old).addShares new

/-- A CONFIRMED order amended: refused when the new load does not fit without the old, replaced otherwise (R134). -/
theorem Records.amendOrderTo_confirmed (b : Records) {o : Order} (c : Clock) (sl : SlotNo) (o' : Order) (x : Load)
    (h : o.state = .confirmed) :
    b.amendOrderTo c sl o o' x =
      if ((b.kitchen o.kitchen).subShares c.w0 o.shares).fits x.shares then
        some ((b.setKitchen o.kitchen (((b.kitchen o.kitchen).exchanged c.w0 o.shares x.shares).promoteIf
          (loweredOn c.w0 o.shares (b.kitchen o.kitchen) ((b.kitchen o.kitchen).exchanged c.w0 o.shares x.shares) &&
            b.triggersAct c))).setBody sl (.order { o' with shares := x.shares }))
      else none := by
  have hne : ¬ o.state = .waitlisted := by rw [h]; nofun
  rw [Records.amendOrderTo, if_neg hne, Records.replaceLoad, ← Records.writeOrder_trigger]
  rfl

/-- The exchange of loads touches the ring alone. -/
theorem Kitchen.exchanged_eq (k : Kitchen) (w0 : Nat) (old new : List (Nat × Nat)) :
    k.exchanged w0 old new = { k with ring := (k.exchanged w0 old new).ring } :=
  (Kitchen.addShares_frame new _).1.trans (congrArg
    (fun y : Kitchen => { y with ring := (k.exchanged w0 old new).ring }) (Kitchen.subShares_frame w0 old k).1)

/-- A promotion trigger after an exchange at an IDLE pass engine begins a walk; without one the engine stays
as it is. -/
theorem Kitchen.exchanged_promoteIf {k : Kitchen} (hidle : k.pass = .idle) (w0 : Nat) (old new : List (Nat × Nat))
    (acts : Bool) :
    (acts = true → ((k.exchanged w0 old new).promoteIf acts).pass = .promoting none ∧
      ((k.exchanged w0 old new).promoteIf acts).again = false) ∧
    (acts = false → ((k.exchanged w0 old new).promoteIf acts).pass = k.pass ∧
      ((k.exchanged w0 old new).promoteIf acts).again = k.again) := by
  have hpass : (k.exchanged w0 old new).pass = k.pass := by rw [k.exchanged_eq]
  have hagain : (k.exchanged w0 old new).again = k.again := by rw [k.exchanged_eq]
  constructor
  · rintro rfl
    rw [Kitchen.promoteIf, if_pos rfl, Kitchen.promote_of_idle (hpass.trans hidle)]
    exact ⟨rfl, rfl⟩
  · rintro rfl
    exact ⟨hpass, hagain⟩

/-- Some window not yet begun of the old shares has fewer units after the exchange exactly when some window of the range
has: the exchange lowers no other window. -/
theorem Kitchen.exchanged_lowered {w0 : Nat} {old new : List (Nat × Nat)} (k : Kitchen)
    (hold : ∀ q ∈ old, q.1 ≤ w0 + 335) (hnew : ∀ p ∈ new, w0 < p.1 ∧ p.1 ≤ w0 + 335) (hapart : SharesApart new) :
    loweredOn w0 old k (k.exchanged w0 old new) = true ↔
      ∃ v, w0 < v ∧ v ≤ w0 + 335 ∧ (k.exchanged w0 old new).committed v < k.committed v := by
  simp only [loweredOn, List.any_eq_true, Bool.and_eq_true, decide_eq_true_eq]
  constructor
  · rintro ⟨q, hq, hw, hlt⟩
    exact ⟨q.1, hw, hold q hq, hlt⟩
  · rintro ⟨v, hw, hv, hlt⟩
    by_contra hnone
    have hkept : (k.subShares w0 old).committed v = k.committed v := by
      refine (Kitchen.subShares_frame w0 old k).2 v fun q hq hq0 hmod => hnone ⟨q, hq, hq0, ?_⟩
      have hq1 := hold q hq
      obtain rfl : q.1 = v := by omega
      exact hlt
    have hraised : (k.subShares w0 old).committed v ≤ (k.exchanged w0 old new).committed v := by
      by_cases hmem : ∃ p ∈ new, p.1 % 336 = v % 336
      · obtain ⟨p, hp, hmod⟩ := hmem
        obtain ⟨hp0, hp1⟩ := hnew p hp
        obtain rfl : p.1 = v := by omega
        rw [Kitchen.exchanged, Kitchen.addShares_committed hapart _ p hp]
        exact Nat.le_add_right ..
      · exact ((Kitchen.addShares_frame new _).2 v fun p hp hmod => hmem ⟨p, hp, hmod⟩).ge
    omega

/-- A kitchen and then an order's slot written: what each table then holds. -/
theorem Records.orderWritten_frame {b b' : Records} {kt : KitchenNo} {x : Kitchen} {sl : SlotNo} {o : Order}
    (hb : b' = (b.setKitchen kt x).setBody sl (.order o)) :
    b'.slot sl = { gen := (b.slot sl).gen, body := .order o } ∧ (∀ q : SlotNo, q ≠ sl → b'.slot q = b.slot q) ∧
    (∀ q : KitchenNo, q ≠ kt → b'.kitchen q = b.kitchen q) ∧ b'.kitchen kt = x ∧
    b' = { b with kitchens := b'.kitchens, pool := { b.pool with slots := b'.pool.slots } } := by
  subst hb
  refine ⟨by simp, fun q hq => ?_, fun q hq => ?_, by simp, rfl⟩
  · rw [Records.setBody_slot_other _ _ hq, Records.setKitchen_slot]
  · rw [Records.setBody_kitchen, Records.setKitchen_kitchen_other _ _ hq]

/-- A promotion trigger leaves the units of every window. -/
@[simp] theorem Kitchen.promoteIf_committed (k : Kitchen) (acts : Bool) (v : Nat) :
    (k.promoteIf acts).committed v = k.committed v := by
  cases acts
  · rfl
  · simp only [Kitchen.promoteIf, if_true, Kitchen.promote]
    split <;> rfl

/-- A promotion trigger touches the pass engine and its again mark alone. -/
theorem Kitchen.promoteIf_eq (k : Kitchen) (acts : Bool) :
    k.promoteIf acts = { k with pass := (k.promoteIf acts).pass, again := (k.promoteIf acts).again } := by
  cases acts
  · rfl
  · simp only [Kitchen.promoteIf, if_true, Kitchen.promote]
    split <;> rfl

theorem Records.triggersAct_eq {b : Records} {c : Clock} (hc : c.state ≠ .unset) :
    b.triggersAct c = decide (b.pool.state = .ready) := by
  rw [Bool.eq_iff_iff]; simp [Records.triggersAct, hc]

/-- Settles O52: the gates, CANCEL_ORDER, and then AMEND_ORDER by the checks of R133 and the state of the order. -/
theorem orderAmendedOrCancelled : Obligations.OrderAmendedOrCancelled := by
  intro tag h s hidle every
  refine ⟨fun hr => ⟨?_, fun a _ => ?_⟩, fun hr hc => ⟨?_, fun a _ => ?_⟩, fun hr hc => ⟨fun b st hn => ?_,
    fun b sl o hn => ⟨b.leaveAnnex sl o, ?_⟩, fun a ha => ⟨fun b st hn => ?_, ?_⟩⟩⟩
  · exact State.serve_idle_now hidle (State.gated_notReady hr _)
  · exact State.serve_idle_now hidle (State.gated_notReady hr _)
  · exact State.serve_idle_now hidle (State.gated_unset hr hc _)
  · exact State.serve_idle_now hidle (State.gated_unset hr hc _)
  · exact State.serve_idle_now hidle (State.cancelOrder_refused hr hc hn)
  · refine ⟨(State.serve_idle_now hidle (State.cancelOrder_named hr hc hn)).trans ?_, fun g owner k hg hs hk => ?_⟩
    · rw [Settled.byte_eq]; rfl
    · simp only [Records.leaveAnnex, Records.ownerOf_eq hg hs hk]
  · exact State.serve_idle_now hidle (State.amendOrder_refused hr hc (ha ▸ hn))
  · intro b sl o g owner k hn hg hs hk refused w0 x open7 mc dd supplied heads clamped
    rw [← ha] at hn
    have howner := Records.ownerOf_eq hg hs hk
    have judged : ∀ st, s.judgeAmendOrder b a o k = .error st → refused st := fun st hj =>
      State.serve_idle_now hidle (State.amendOrder_judged hr hc hn howner hj)
    have hopen : o.amendable s.clk.w0 = true ↔ open7 := o.amendable_iff _
    refine ⟨fun h7 => judged _ (State.judgeAmendOrder_state (mt hopen.mp h7)),
      fun h7 h8 => judged _ (State.judgeAmendOrder_busy (hopen.mpr h7) h8),
      fun h7 h8 hm => judged _ (State.judgeAmendOrder_badClass (hopen.mpr h7) h8 hm), fun m h7 h8 hm => ?_⟩
    intro load supplyOk timely
    have hheads : amendedHeadcount a o k.attendees = (heads, decide clamped) := amendedHeadcount_eq ..
    have untimely : ∀ st, judgeNewDelivery a o k s.clk.w0 = some st → refused st := fun st hd =>
      judged _ (State.judgeAmendOrder_untimely (hopen.mpr h7) h8 hm hd)
    have htimely : timely → judgeNewDelivery a o k s.clk.w0 = none := fun ⟨h1, h2, h3, h4⟩ =>
      (judgeNewDelivery_within h1).trans (judgeDelivery_timely h2 h3 h4)
    refine ⟨fun hsup => ?_, fun hsup h2 => ?_, fun hsup h2 h3 => ?_,
      fun hy hl => judged _ (State.judgeAmendOrder_tooLate (hopen.mpr h7) h8 hm (htimely hy) rfl hheads hl),
      fun y hy hl => ?_⟩
    · obtain ⟨v, hv, hbig⟩ : ∃ v, a.delivery = some v ∧ 16777215 < v := by
        simpa [supplyOk] using hsup
      exact untimely _ (judgeNewDelivery_above hv hbig)
    · exact untimely _ ((judgeNewDelivery_within hsup).trans (judgeDelivery_horizon h2))
    · exact untimely _ ((judgeNewDelivery_within hsup).trans (judgeDelivery_badTime h2 h3))
    · intro o'
      have hj : s.judgeAmendOrder b a o k = .ok (o', y, decide clamped) :=
        State.judgeAmendOrder_ok (hopen.mpr h7) h8 hm (htimely hy) rfl hheads hl
      refine ⟨fun hwait => ?_, fun hconf => ?_⟩
      · have happ := b.amendOrderTo_waitlisted s.clk sl o' y hwait
        generalize hb' : Records.setBody _ sl _ = b' at happ
        obtain ⟨hslot, hothers, hkothers, hkit, hframe⟩ := Records.orderWritten_frame hb'.symm
        refine ⟨b', ?_, hslot, hothers, hkothers, fun hready => ?_, hframe⟩
        · refine (State.serve_idle_now hidle
            (State.amendOrder_applied hr hc hn howner hj happ (by rw [hslot]))).trans ?_
          have hst : o'.status (decide clamped) = .waitlisted := if_pos hwait
          rw [hst]; rfl
        · rw [hkit, Records.triggersAct_eq hc, decide_eq_true hready]
          exact Kitchen.promote_of_idle h8
      · intro without fits
        have happ := b.amendOrderTo_confirmed s.clk sl o' y hconf
        have hfits : without.fits y.shares = true ↔ fits := by
          rw [Kitchen.fits_iff]
          simp only [Kitchen.capacity_of_ring (Kitchen.subShares_frame w0 o.shares x).1, without, fits]
        refine ⟨fun hnot => ?_, fun hfit hlead => ?_⟩
        · refine State.serve_idle_now hidle (State.amendOrder_noFit hr hc hn howner hj (happ.trans ?_))
          exact if_neg (mt hfits.mp hnot)
        · have happ := happ.trans (if_pos (hfits.mpr hfit))
          generalize hb' : Records.setBody _ sl _ = b' at happ
          obtain ⟨hslot, hothers, hkothers, hkit, hframe⟩ := Records.orderWritten_frame hb'.symm
          have hapart : SharesApart y.shares := computeLoad_apart hl hlead
          have hbounds : ∀ p ∈ y.shares, w0 < p.1 ∧ p.1 ≤ w0 + 335 := fun p hp => by
            have hwin := (computeLoad_windows hl).1 p hp
            have hdel : windowOf dd ≤ w0 + 335 := hy.2.1
            omega
          have hcom : ∀ v, (b'.kitchen o.kitchen).committed v = (without.addShares y.shares).committed v :=
            fun v => by rw [hkit, Kitchen.promoteIf_committed]; rfl
          refine ⟨b', ?_, hslot, hothers, hkothers, fun p hp => ?_, fun v hv => ?_, ?_, fun hold => ?_, hframe⟩
          · refine (State.serve_idle_now hidle
              (State.amendOrder_applied hr hc hn howner hj happ (by rw [hslot]))).trans ?_
            have hst : ({ o' with shares := y.shares } : Order).status (decide clamped) =
                if clamped then .clamped else .ok :=
              (Order.status_eq _ _).trans (if_neg fun hw => OrderState.noConfusion (hconf.symm.trans hw))
            rw [hst]; rfl
          · rw [hcom, Kitchen.addShares_committed hapart _ p hp]
          · rw [hcom, (Kitchen.addShares_frame y.shares _).2 v hv]
          · rw [hkit, Kitchen.promoteIf_eq, Kitchen.exchanged_eq]
          · intro lowered acts
            have hacts : (loweredOn s.clk.w0 o.shares x (x.exchanged s.clk.w0 o.shares y.shares) &&
                b.triggersAct s.clk) = true ↔ acts := by
              rw [Bool.and_eq_true, Kitchen.exchanged_lowered (w0 := s.clk.w0) x hold hbounds hapart,
                Records.triggersAct_eq hc, decide_eq_true_eq]
              simp only [acts, lowered, hcom]
              rfl
            have hpass := Kitchen.exchanged_promoteIf (k := x) h8 s.clk.w0 o.shares y.shares
              (loweredOn s.clk.w0 o.shares x (x.exchanged s.clk.w0 o.shares y.shares) && b.triggersAct s.clk)
            rw [hkit]
            exact ⟨Kitchen.subShares_committed w0 o.shares x hold, fun ha => hpass.1 (hacts.mpr ha),
              fun hna => hpass.2 (Bool.eq_false_iff.mpr (mt hacts.mp hna))⟩

end Sys2Proof.Machine

/-! The laws of the free list and of the orders with their waitlists (R14, R16, R17, R115, R127), with one slot left out
while an order is on its way from one place to another. -/

namespace Sys2Proof.Machine

open Sys2Proof

/-! ## The laws with one slot left out -/

/-- The order `o` in slot `sl` stands on the annex chain of the living booking that owns it (R127). -/
def Records.Owned (b : Records) (sl : SlotNo) (o : Order) : Prop :=
  ∃ (g : Handle) (owner : SlotNo) (k : Booking), o.owner = some g ∧ g.slot = owner.val ∧
    (b.slot owner).body = .booking k ∧ sl ∈ k.annex

/-- `Records.OrdersLawful` for every slot but `out`, which stands on no waitlist. -/
structure Records.OrdersBut (b : Records) (out : Option SlotNo) : Prop where
  owned : ∀ (sl : SlotNo) (o : Order), some sl ≠ out → (b.slot sl).body = .order o → o.state ≠ .voiding → b.Owned sl o
  held : ∀ (sl : SlotNo) (k : Booking), (b.slot sl).body = .booking k → k.state = .held → k.annex = []
  waiting : ∀ (q : KitchenNo) (sl : SlotNo), sl ∈ (b.kitchen q).waitlist ↔
    some sl ≠ out ∧ ∃ o : Order, (b.slot sl).body = .order o ∧ o.state = .waitlisted ∧ o.kitchen = q
  sorted : ∀ q : KitchenNo, (b.kitchen q).waitlist.Pairwise fun x y => (b.placeOf x).ahead (b.placeOf y) = true

theorem Records.ordersLawful_iff (b : Records) : b.OrdersLawful ↔ b.OrdersBut none := by
  constructor
  · rintro ⟨howned, hheld, hlist⟩
    exact ⟨fun sl o _ => howned sl o, hheld, fun q sl => by simpa using (hlist q).1 sl, fun q => (hlist q).2⟩
  · rintro ⟨howned, hheld, hwaiting, hsorted⟩
    exact ⟨fun sl o => howned sl o nofun, hheld, fun q => ⟨fun sl => by simpa using hwaiting q sl, hsorted q⟩⟩

/-- What CLEAR_ALL may leave behind it in a slot that it has visited (R25). -/
def SlotBody.Passed : SlotBody → Prop
  | .free => True
  | .booking _ => False
  | .order o => o.state ≠ .voiding

/-- The pool is CLEARING. -/
def Records.Clearing (b : Records) : Prop := ∃ n x y, b.pool.state = .clearing n x y

/-- While the pool is CLEARING no room is CLOSING (R24), and no slot visited holds a booking or a VOIDING order
(R25). -/
def Records.ClearedBehind (b : Records) : Prop :=
  ∀ n x y, b.pool.state = .clearing n x y →
    (∀ r : RoomNo, (b.room r).service ≠ .closing) ∧ ∀ sl : SlotNo, sl.val < n → (b.slot sl).body.Passed

/-- The laws of the pool's records together, slot `out` left out of those of the orders. -/
structure Records.Sound (b : Records) (out : Option SlotNo) : Prop where
  free : b.pool.FreeLawful
  orders : b.OrdersBut out
  behind : b.ClearedBehind

/-! ## Places on a waitlist (R100, R115) -/

theorem WaitPlace.ahead_trans {p q r : WaitPlace} (h : p.ahead q = true) (h' : q.ahead r = true) :
    p.ahead r = true := by
  rw [WaitPlace.ahead_iff, Fin.lt_def] at *
  omega

theorem WaitPlace.ahead_of_not {p q : WaitPlace} (h : ¬ p.ahead q = true) (hne : p.slot ≠ q.slot) :
    q.ahead p = true := by
  have hne := mt Fin.ext hne
  rw [WaitPlace.ahead_iff, Fin.lt_def] at *
  omega

@[simp] theorem Records.placeOf_slot (b : Records) (sl : SlotNo) : (b.placeOf sl).slot = sl := by
  unfold Records.placeOf; split <;> rfl

theorem Records.mem_insertWaiting (b : Records) (sl y : SlotNo) (l : List SlotNo) :
    y ∈ b.insertWaiting sl l ↔ y = sl ∨ y ∈ l := by
  obtain ⟨front, back, rfl, hins, -, -⟩ := b.insertWaiting_eq sl l
  rw [hins]; simp [or_left_comm]

/-- A slot put in a waitlist at its place leaves the waitlist in order. -/
theorem Records.insertWaiting_sorted {b : Records} {sl : SlotNo} {l : List SlotNo} (hm : sl ∉ l)
    (h : l.Pairwise fun x y => (b.placeOf x).ahead (b.placeOf y) = true) :
    (b.insertWaiting sl l).Pairwise fun x y => (b.placeOf x).ahead (b.placeOf y) = true := by
  obtain ⟨front, back, rfl, hins, hfront, hback⟩ := b.insertWaiting_eq sl l
  obtain ⟨hf, hb, hfb⟩ := List.pairwise_append.mp h
  have behind : ∀ y ∈ back, (b.placeOf sl).ahead (b.placeOf y) = true := by
    cases back with
    | nil => nofun
    | cons z zs =>
      have hz := hback z rfl
      intro y hy
      rcases List.mem_cons.mp hy with rfl | hy
      · exact hz
      · exact WaitPlace.ahead_trans hz ((List.pairwise_cons.mp hb).1 y hy)
  have ahead : ∀ y ∈ front, (b.placeOf y).ahead (b.placeOf sl) = true := fun y hy =>
    WaitPlace.ahead_of_not (hfront y hy) (by
      simp only [Records.placeOf_slot]; rintro rfl; exact hm (List.mem_append_left _ hy))
  rw [hins]
  refine List.pairwise_append.mpr ⟨hf, List.pairwise_cons.mpr ⟨behind, hb⟩, fun y hy z hz => ?_⟩
  rcases List.mem_cons.mp hz with rfl | hz
  · exact ahead y hy
  · exact hfb y hy z hz

/-- An order ranks by the class of the booking that owns it. -/
theorem Records.orderClass_of_owner {b : Records} {o : Order} {g : Handle} {owner : SlotNo} {k : Booking}
    (hg : o.owner = some g) (hs : g.slot = owner.val) (hk : (b.slot owner).body = .booking k) :
    b.orderClass o = k.cls := by
  simp [Records.orderClass, hg, hs, Records.booking?_eq_some.mpr hk]

/-! ## The orders through a change of one slot -/

/-- Two contents of a slot that no waitlist tells apart: no order in either, or the same owner, state, kitchen and wait
stamp. -/
def SlotBody.SameOrder : SlotBody → SlotBody → Prop
  | .order o, .order o' => o'.owner = o.owner ∧ o'.state = o.state ∧ o'.kitchen = o.kitchen ∧ o'.wait = o.wait
  | .order _, _ => False
  | _, .order _ => False
  | _, _ => True

theorem SlotBody.SameOrder.refl (x : SlotBody) : x.SameOrder x := by cases x <;> simp [SlotBody.SameOrder]

theorem SlotBody.SameOrder.symm {x y : SlotBody} (h : x.SameOrder y) : y.SameOrder x := by
  cases x <;> cases y <;> simp_all [SlotBody.SameOrder]

theorem SlotBody.SameOrder.order {o : Order} {x : SlotBody} (h : (SlotBody.order o).SameOrder x) :
    ∃ o', x = .order o' ∧ o'.owner = o.owner ∧ o'.state = o.state ∧ o'.kitchen = o.kitchen ∧ o'.wait = o.wait := by
  cases x with
  | order o' => exact ⟨o', rfl, h⟩
  | free => exact h.elim
  | booking k => exact h.elim

/-- The laws of the orders go over to records that hold the same orders on the same waitlists, when the bookings that
own them are still there with their class and their orders. -/
theorem Records.OrdersBut.transport {b b' : Records} {out : Option SlotNo} (h : b.OrdersBut out)
    (hw : ∀ q : KitchenNo, (b'.kitchen q).waitlist = (b.kitchen q).waitlist)
    (ho : ∀ z : SlotNo, some z ≠ out → (b.slot z).body.SameOrder (b'.slot z).body)
    (hb : ∀ (z owner : SlotNo) (o : Order) (k : Booking), some z ≠ out → (b.slot z).body = .order o →
      o.state ≠ .voiding → (b.slot owner).body = .booking k → z ∈ k.annex →
      ∃ k' : Booking, (b'.slot owner).body = .booking k' ∧ z ∈ k'.annex ∧ k'.cls = k.cls)
    (hheld : ∀ (sl : SlotNo) (k : Booking), (b'.slot sl).body = .booking k → k.state = .held → k.annex = []) :
    b'.OrdersBut out := by
  have place : ∀ q, ∀ z ∈ (b.kitchen q).waitlist, b'.placeOf z = b.placeOf z := by
    intro q z hz
    obtain ⟨hne, o, hbody, hst, -⟩ := (h.waiting q z).mp hz
    have hv : o.state ≠ .voiding := by rw [hst]; nofun
    obtain ⟨g, owner, k, hg, hs, hk, hmem⟩ := h.owned z o hne hbody hv
    obtain ⟨k', hk', -, hcls⟩ := hb z owner o k hne hbody hv hk hmem
    obtain ⟨o', hbody', how, -, -, hwait⟩ := (hbody ▸ ho z hne).order
    simp only [Records.placeOf, Records.order?_eq_some.mpr hbody, Records.order?_eq_some.mpr hbody', hwait,
      Records.orderClass_of_owner hg hs hk, Records.orderClass_of_owner (how.trans hg) hs hk', hcls]
  refine ⟨fun sl o' hne hbody' hst => ?_, hheld, fun q sl => ?_, fun q => ?_⟩
  · obtain ⟨o, hbody, how, hst', -, -⟩ := (hbody' ▸ (ho sl hne).symm).order
    obtain ⟨g, owner, k, hg, hs, hk, hmem⟩ := h.owned sl o hne hbody (by rwa [hst'])
    obtain ⟨k', hk', hmem', -⟩ := hb sl owner o k hne hbody (by rwa [hst']) hk hmem
    exact ⟨g, owner, k', how.symm.trans hg, hs, hk', hmem'⟩
  · rw [hw, h.waiting]
    refine and_congr_right fun hne => ⟨?_, ?_⟩
    · rintro ⟨o, hbody, hst, hq⟩
      obtain ⟨o', hbody', -, hst', hq', -⟩ := (hbody ▸ ho sl hne).order
      exact ⟨o', hbody', hst'.trans hst, hq'.trans hq⟩
    · rintro ⟨o, hbody, hst, hq⟩
      obtain ⟨o', hbody', -, hst', hq', -⟩ := (hbody ▸ (ho sl hne).symm).order
      exact ⟨o', hbody', hst'.trans hst, hq'.trans hq⟩
  · rw [hw]
    exact (h.sorted q).imp_of_mem fun {x y} hx hy hxy => by rwa [place q x hx, place q y hy]

/-- An order taken off its waitlist may be left out. -/
theorem Records.OrdersBut.leave {b : Records} (h : b.OrdersBut none) {sl : SlotNo} {o : Order}
    (hbody : (b.slot sl).body = .order o) : (b.leaveWaitlist o.kitchen sl).OrdersBut (some sl) := by
  have waitlist : ∀ q, ((b.leaveWaitlist o.kitchen sl).kitchen q).waitlist =
      (b.kitchen q).waitlist.filter fun x => decide (x ≠ sl) := by
    intro q
    by_cases hq : q = o.kitchen
    · subst hq; simp [Records.leaveWaitlist]
    · have hnot : sl ∉ (b.kitchen q).waitlist := fun hm => by
        obtain ⟨-, o', hbody', -, rfl⟩ := (h.waiting q sl).mp hm
        rw [hbody] at hbody'; cases hbody'; exact hq rfl
      rw [Records.leaveWaitlist, Records.setKitchen_kitchen_other _ _ hq]
      exact (List.filter_eq_self.mpr fun x hx => by
        simpa using fun e : x = sl => hnot (e ▸ hx)).symm
  refine ⟨fun z o' _ hz hst => h.owned z o' nofun hz hst, h.held, fun q z => ?_, fun q => ?_⟩
  · rw [waitlist, List.mem_filter, h.waiting q z]
    simp [and_comm, Records.leaveWaitlist]
  · rw [waitlist]; exact (h.sorted q).filter _

/-- The slot left out comes under the laws again when what it holds keeps them off every waitlist. -/
theorem Records.OrdersBut.close {b : Records} {sl : SlotNo} (h : b.OrdersBut (some sl))
    (hsl : ∀ o, (b.slot sl).body = .order o → o.state ≠ .waitlisted ∧ (o.state ≠ .voiding → b.Owned sl o)) :
    b.OrdersBut none := by
  refine ⟨fun z o _ hz hst => ?_, h.held, fun q z => ?_, h.sorted⟩
  · by_cases e : z = sl
    · subst e; exact (hsl o hz).2 hst
    · exact h.owned z o (by simpa using e) hz hst
  · rw [h.waiting]
    refine ⟨fun ⟨_, ho⟩ => ⟨nofun, ho⟩, fun ⟨_, o, hz, hst, hq⟩ => ⟨?_, o, hz, hst, hq⟩⟩
    rintro ⟨⟩
    exact (hsl o hz).1 hst

/-- The order left out put on its kitchen's waitlist at its place. -/
theorem Records.OrdersBut.join {b : Records} {sl : SlotNo} {o : Order} (h : b.OrdersBut (some sl))
    (hbody : (b.slot sl).body = .order o) (hst : o.state = .waitlisted) (howned : b.Owned sl o) {k : Kitchen}
    (hk : k.waitlist = b.insertWaiting sl (b.kitchen o.kitchen).waitlist) :
    (b.setKitchen o.kitchen k).OrdersBut none := by
  have hnot : sl ∉ (b.kitchen o.kitchen).waitlist := fun hm => ((h.waiting _ _).mp hm).1 rfl
  refine ⟨fun z o' _ hz hst' => ?_, h.held, fun q z => ?_, fun q => ?_⟩
  · by_cases e : z = sl
    · subst e
      rw [Records.setKitchen_slot, hbody] at hz
      cases hz; exact howned
    · exact h.owned z o' (by simpa using e) hz hst'
  · by_cases hq : q = o.kitchen
    · subst hq
      rw [Records.setKitchen_kitchen_same, hk, Records.mem_insertWaiting, h.waiting]
      constructor
      · rintro (rfl | ⟨-, ho⟩)
        · exact ⟨nofun, o, hbody, hst, rfl⟩
        · exact ⟨nofun, ho⟩
      · rintro ⟨-, ho⟩
        by_cases e : z = sl
        · exact .inl e
        · exact .inr ⟨by simpa using e, ho⟩
    · rw [Records.setKitchen_kitchen_other _ _ hq, h.waiting]
      refine ⟨fun ⟨_, ho⟩ => ⟨nofun, ho⟩, fun ⟨_, o', hz, hst', hq'⟩ => ⟨?_, o', hz, hst', hq'⟩⟩
      rintro ⟨⟩
      rw [Records.setKitchen_slot, hbody] at hz
      cases hz; exact hq hq'.symm
  · by_cases hq : q = o.kitchen
    · subst hq
      rw [Records.setKitchen_kitchen_same, hk]
      exact Records.insertWaiting_sorted hnot (h.sorted _)
    · rw [Records.setKitchen_kitchen_other _ _ hq]
      exact h.sorted q

/-- A slot with no place on a waitlist may be left out. -/
theorem Records.OrdersBut.omit {b : Records} (h : b.OrdersBut none) {sl : SlotNo}
    (hsl : ∀ o, (b.slot sl).body = .order o → o.state ≠ .waitlisted) : b.OrdersBut (some sl) := by
  refine ⟨fun z o' _ hz hst' => h.owned z o' nofun hz hst', h.held, fun q z => ?_, h.sorted⟩
  rw [h.waiting]
  refine ⟨fun ⟨_, o', hz, hst', hq⟩ => ⟨?_, o', hz, hst', hq⟩, fun ⟨_, ho⟩ => ⟨nofun, ho⟩⟩
  rintro ⟨⟩
  exact hsl o' hz hst'

end Sys2Proof.Machine

/-! The operations on the pool and what they do to its laws (R15 to R17, R20), and the operations that touch neither the
pool nor a waitlist. -/

namespace Sys2Proof.Machine

open Sys2Proof

/-! ## The free list (R14, R16, R17) and the count (R17, R20) -/

/-- A record changed in place leaves the free list lawful. -/
theorem Records.setBody_freeLawful {b : Records} (h : b.pool.FreeLawful) {sl : SlotNo} {x : SlotBody}
    (hsl : (b.slot sl).body ≠ .free) (hx : x ≠ .free) : (b.setBody sl x).pool.FreeLawful := by
  refine ⟨fun hi => absurd (h.1 hi sl) hsl, fun hi => ⟨(h.2 hi).1, fun y => ?_⟩⟩
  rw [show y ∈ (b.setBody sl x).pool.freeList ↔ _ from (h.2 hi).2 y]
  change (b.slot y).body = .free ↔ ((b.setBody sl x).slot y).body = .free
  by_cases e : y = sl
  · subst e; simp [hsl, hx]
  · rw [Records.setBody_slot_other _ _ e]

/-- A record returned leaves the free list lawful. -/
theorem Records.returnSlot_freeLawful {b : Records} (h : b.pool.FreeLawful) {sl : SlotNo}
    (hsl : (b.slot sl).body ≠ .free) : (b.returnSlot sl).pool.FreeLawful := by
  refine ⟨fun hi => absurd (h.1 hi sl) hsl, fun hi => ?_⟩
  obtain ⟨hnodup, hmem⟩ := h.2 hi
  refine ⟨List.nodup_cons.mpr ⟨fun hm => hsl ((hmem sl).mp hm), hnodup⟩, fun y => ?_⟩
  change y ∈ sl :: b.pool.freeList ↔ ((b.returnSlot sl).slot y).body = .free
  by_cases e : y = sl
  · subst e; simp
  · rw [Records.returnSlot_slot_other _ e, List.mem_cons, hmem y]
    exact ⟨fun hy => hy.resolve_left e, .inr⟩

/-- A slot returned keeps the count (R16, R20). -/
theorem Records.returnSlot_lawful {b : Records} (h : b.pool.Lawful) (sl : SlotNo) : (b.returnSlot sl).pool.Lawful := by
  obtain ⟨hfloor, hlo, hhi, hcount, harmed⟩ := h
  refine ⟨hfloor, hlo, hhi, fun hs => ?_, fun hs ha => ?_⟩
  · simpa using hcount hs
  · have ha : b.pool.lowArmed = true ∨ b.pool.floor + 64 < b.pool.freeCount + 1 := by
      simpa [Records.returnSlot] using ha
    change b.pool.floor < b.pool.freeCount + 1
    rcases ha with ha | ha
    · have := harmed hs ha; omega
    · omega

/-- What a claim that succeeds says of the pool: it is READY, and its free list begins with the slot (R15, R19). -/
theorem Records.allocate_inv {b b' : Records} {privileged : Bool} {body : SlotBody} {sl : SlotNo}
    (h : b.allocate privileged body = .ok (sl, b')) :
    b.pool.state = .ready ∧ b.pool.freeCount ≠ 0 ∧ ∃ rest, b.pool.freeList = sl :: rest ∧ b.Claimed b' sl rest body ∧
      b' = (({ b with pool := { b.pool with freeList := rest, freeCount := b.pool.freeCount - 1 } } :
        Records).setBody sl body).lowAfterAllocation := by
  have h0 := h
  unfold Records.allocate at h
  split at h
  · rename_i hr
    have hr := (Pool.isReady_iff _).mp hr
    split at h
    · cases h
    · rename_i hc
      split at h
      · cases h
      · rename_i hf
        have hf : b.pool.floor < b.pool.freeCount ∨ privileged = true := by
          by_cases hp : privileged = true
          · exact .inr hp
          · exact .inl (by by_contra hle; exact hf ⟨by omega, by simpa using hp⟩)
        split at h
        · cases h
        · rename_i sl' rest hl
          have hb : sl = sl' := by cases h; rfl
          subst hb
          obtain ⟨b'', hall, hcl⟩ := Records.allocate_claimed hr hc hf hl body
          obtain rfl : b'' = b' := by rw [hall] at h0; cases h0; rfl
          refine ⟨hr, hc, rest, hl, hcl, ?_⟩
          cases h; rfl
  · cases h

/-- Judging the low notice after a claim leaves the pool but its armed flag. -/
theorem Records.lowAfterAllocation_pool (b : Records) :
    b.lowAfterAllocation.pool = { b.pool with
      lowArmed := b.pool.lowArmed && decide (b.pool.freeCount ≠ b.pool.floor) } := by
  rw [Records.lowAfterAllocation_eq]
  split
  · rename_i h
    simp [h.2]
  · rename_i h
    have harmed : (b.pool.lowArmed && decide (b.pool.freeCount ≠ b.pool.floor)) = b.pool.lowArmed := by
      rw [not_and] at h
      simpa using h
    rw [harmed]

/-- A claim keeps the pool but its slots, free list, count and armed flag (R15, R20). -/
theorem Records.allocate_pool {b b' : Records} {privileged : Bool} {body : SlotBody} {sl : SlotNo}
    (h : b.allocate privileged body = .ok (sl, b')) :
    b'.pool = { b.pool with
      slots := b'.pool.slots, freeList := b.pool.freeList.tail, freeCount := b.pool.freeCount - 1
      lowArmed := b.pool.lowArmed && decide (b.pool.freeCount - 1 ≠ b.pool.floor) } := by
  obtain ⟨-, -, rest, hl, -, rfl⟩ := Records.allocate_inv h
  rw [Records.lowAfterAllocation_pool, hl]; rfl

/-- A claim keeps the count (R15, R20). -/
theorem Records.allocate_lawful {b b' : Records} {privileged : Bool} {body : SlotBody} {sl : SlotNo}
    (h : b.allocate privileged body = .ok (sl, b')) (hb : b.pool.Lawful) : b'.pool.Lawful := by
  obtain ⟨hr, hc, rest, hl, -, -⟩ := Records.allocate_inv h
  obtain ⟨hfloor, hlo, hhi, hcount, harmed⟩ := hb
  rw [Records.allocate_pool h]
  refine ⟨hfloor, hlo, hhi, fun hs => ?_, fun hs ha => ?_⟩
  · change b.pool.freeCount - 1 = b.pool.freeList.tail.length
    rw [hcount hs, List.length_tail]
  · obtain ⟨ha, hne⟩ := Bool.and_eq_true_iff.mp ha
    have hne := of_decide_eq_true hne
    have := harmed hs ha
    change b.pool.floor < b.pool.freeCount - 1
    omega

/-! ## Records in place -/

/-- No slot behind the visits of CLEAR_ALL gets a booking or a VOIDING order by a change of `sl` alone. -/
theorem Records.ClearedBehind.change {b b' : Records} (h : b.ClearedBehind) (sl : SlotNo)
    (hstate : b'.pool.state = b.pool.state)
    (hrooms : ∀ r, (b'.room r).service = (b.room r).service) (hothers : ∀ z, z ≠ sl → b'.slot z = b.slot z)
    (hsl : b.Clearing → (b.slot sl).body.Passed → (b'.slot sl).body.Passed) : b'.ClearedBehind := by
  intro n x y hc
  rw [hstate] at hc
  obtain ⟨hclosing, hpassed⟩ := h n x y hc
  refine ⟨fun r => by rw [hrooms]; exact hclosing r, fun z hz => ?_⟩
  by_cases e : z = sl
  · subst e; exact hsl ⟨n, x, y, hc⟩ (hpassed z hz)
  · rw [hothers z e]; exact hpassed z hz

section Sound

variable {b : Records} {out : Option SlotNo} {sl : SlotNo}

/-- A booking changed in place keeps the laws when it keeps its class, unless it is HELD, and its orders. -/
theorem Records.Sound.setBooking (h : b.Sound out) {k k' : Booking} (hk : (b.slot sl).body = .booking k)
    (hannex : ∀ z, some z ≠ out → z ∈ k.annex → z ∈ k'.annex) (hcls : k.state ≠ .held → k'.cls = k.cls)
    (hheld : k'.state = .held → k'.annex = []) : (b.setBody sl (.booking k')).Sound out := by
  refine ⟨Records.setBody_freeLawful h.free (by simp [hk]) nofun, h.orders.transport (fun _ => rfl) ?_ ?_ ?_,
    h.behind.change sl rfl (fun _ => rfl) (fun z hz => Records.setBody_slot_other _ _ hz)
      (fun _ hp => by rw [hk] at hp; exact hp.elim)⟩
  · intro z _
    by_cases e : z = sl
    · subst e; simp [hk, SlotBody.SameOrder]
    · rw [Records.setBody_slot_other _ _ e]; exact .refl _
  · intro z owner o k₁ hz _ _ hk₁ hm
    by_cases e : owner = sl
    · subst e
      rw [hk] at hk₁; cases hk₁
      refine ⟨k', by simp, hannex z hz hm, hcls fun hs => ?_⟩
      rw [h.orders.held owner k hk hs] at hm; cases hm
    · exact ⟨k₁, by rw [Records.setBody_slot_other _ _ e, hk₁], hm, rfl⟩
  · intro z k₁ hk₁ hs
    by_cases e : z = sl
    · subst e
      rw [Records.setBody_slot_same] at hk₁; cases hk₁; exact hheld hs
    · rw [Records.setBody_slot_other _ _ e] at hk₁; exact h.orders.held z k₁ hk₁ hs

/-- What an order's contents changed in place leave of the laws, slots other than `out` seen. -/
theorem Records.Sound.setOrder_of (h : b.Sound out) {o o' : Order} (ho : (b.slot sl).body = .order o)
    (hsame : some sl ≠ out → (SlotBody.order o).SameOrder (.order o'))
    (hvoid : b.Clearing → o'.state = .voiding → o.state = .voiding) : (b.setBody sl (.order o')).Sound out := by
  refine ⟨Records.setBody_freeLawful h.free (by simp [ho]) nofun, h.orders.transport (fun _ => rfl) ?_ ?_ ?_,
    h.behind.change sl rfl (fun _ => rfl) (fun z hz => Records.setBody_slot_other _ _ hz) fun hc hp => ?_⟩
  · intro z hz
    by_cases e : z = sl
    · subst e; rw [ho, Records.setBody_slot_same]; exact hsame hz
    · rw [Records.setBody_slot_other _ _ e]; exact .refl _
  · intro z owner o k₁ hz _ _ hk₁ hm
    have e : owner ≠ sl := by rintro rfl; rw [ho] at hk₁; cases hk₁
    exact ⟨k₁, by rw [Records.setBody_slot_other _ _ e, hk₁], hm, rfl⟩
  · intro z k₁ hk₁ hs
    have e : z ≠ sl := by rintro rfl; rw [Records.setBody_slot_same] at hk₁; cases hk₁
    rw [Records.setBody_slot_other _ _ e] at hk₁; exact h.orders.held z k₁ hk₁ hs
  · rw [ho] at hp
    rw [Records.setBody_slot_same]
    exact fun hv => hp (hvoid hc hv)

/-- An order whose owner, state, kitchen and wait stamp stay keeps its place in the laws. -/
theorem Records.Sound.setOrder_same (h : b.Sound out) {o o' : Order} (ho : (b.slot sl).body = .order o)
    (howner : o'.owner = o.owner) (hstate : o'.state = o.state) (hkitchen : o'.kitchen = o.kitchen)
    (hwait : o'.wait = o.wait) : (b.setBody sl (.order o')).Sound out :=
  h.setOrder_of ho (fun _ => ⟨howner, hstate, hkitchen, hwait⟩) fun _ hv => hstate ▸ hv

/-- An order left out may be changed. -/
theorem Records.Sound.setOut (h : b.Sound (some sl)) {o o' : Order} (ho : (b.slot sl).body = .order o)
    (hvoid : b.Clearing → o'.state = .voiding → o.state = .voiding) :
    (b.setBody sl (.order o')).Sound (some sl) :=
  h.setOrder_of ho (fun hne => absurd rfl hne) hvoid

/-- An owned order is owned whatever its slot is given. -/
theorem Records.Owned.setBody {o o' : Order} {x : SlotBody} (h : b.Owned sl o) (ho : (b.slot sl).body = .order o') :
    (b.setBody sl x).Owned sl o := by
  obtain ⟨g, owner, k, hg, hs, hk, hm⟩ := h
  have e : owner ≠ sl := by rintro rfl; rw [ho] at hk; cases hk
  exact ⟨g, owner, k, hg, hs, by rw [Records.setBody_slot_other _ _ e, hk], hm⟩

/-- The order left out comes under the laws again, changed to one that does not wait. -/
theorem Records.Sound.settle (h : b.Sound (some sl)) {o o' : Order} (ho : (b.slot sl).body = .order o)
    (hst : o'.state ≠ .waitlisted) (howned : o'.state ≠ .voiding → b.Owned sl o')
    (hvoid : b.Clearing → o'.state = .voiding → o.state = .voiding) : (b.setBody sl (.order o')).Sound none := by
  obtain ⟨hfree, horders, hbehind⟩ := h.setOut ho hvoid
  refine ⟨hfree, horders.close fun o₁ ho₁ => ?_, hbehind⟩
  rw [Records.setBody_slot_same] at ho₁
  cases ho₁
  exact ⟨hst, fun hv => (howned hv).setBody ho⟩

/-- An order of no waitlist changed to another: only to VOIDING it may lose its owner. -/
theorem Records.Sound.setOrder (h : b.Sound none) {o o' : Order} (ho : (b.slot sl).body = .order o)
    (hst : o.state ≠ .waitlisted) (hst' : o'.state ≠ .waitlisted)
    (howner : o'.state ≠ .voiding → o'.owner = o.owner ∧ o.state ≠ .voiding)
    (hvoid : b.Clearing → o'.state = .voiding → o.state = .voiding) : (b.setBody sl (.order o')).Sound none := by
  have hout : b.Sound (some sl) := ⟨h.free, h.orders.omit fun o₁ ho₁ => by rw [ho] at ho₁; cases ho₁; exact hst,
    h.behind⟩
  refine hout.settle ho hst' (fun hv => ?_) hvoid
  obtain ⟨how, hv'⟩ := howner hv
  obtain ⟨g, owner, k, hg, hrest⟩ := h.orders.owned sl o nofun ho hv'
  exact ⟨g, owner, k, how.trans hg, hrest⟩

/-- An order left out, returned (R16). -/
theorem Records.Sound.returnOut (h : b.Sound (some sl)) {o : Order} (ho : (b.slot sl).body = .order o) :
    (b.returnSlot sl).Sound none := by
  have horders : (b.returnSlot sl).OrdersBut (some sl) := by
    refine h.orders.transport (fun _ => rfl) ?_ ?_ ?_
    · intro z hz
      rw [Records.returnSlot_slot_other _ (by simpa using hz)]; exact .refl _
    · intro z owner o k₁ hz _ _ hk₁ hm
      have e : owner ≠ sl := by rintro rfl; rw [ho] at hk₁; cases hk₁
      exact ⟨k₁, by rw [Records.returnSlot_slot_other _ e, hk₁], hm, rfl⟩
    · intro z k₁ hk₁ hs
      have e : z ≠ sl := by rintro rfl; rw [Records.returnSlot_slot_same] at hk₁; cases hk₁
      rw [Records.returnSlot_slot_other _ e] at hk₁; exact h.orders.held z k₁ hk₁ hs
  refine ⟨Records.returnSlot_freeLawful h.free (by simp [ho]), horders.close fun o₁ ho₁ => ?_,
    h.behind.change sl rfl (fun _ => rfl) (fun z hz => Records.returnSlot_slot_other _ hz) fun _ _ => ?_⟩
  · rw [Records.returnSlot_slot_same] at ho₁; cases ho₁
  · rw [Records.returnSlot_slot_same]; trivial

/-- A booking without living orders, returned (R16). -/
theorem Records.Sound.returnBooking (h : b.Sound none) {k : Booking} (hk : (b.slot sl).body = .booking k)
    (hsettled : ∀ z ∈ k.annex, ∀ o, (b.slot z).body = .order o → o.state = .voiding) :
    (b.returnSlot sl).Sound none := by
  refine ⟨Records.returnSlot_freeLawful h.free (by simp [hk]), h.orders.transport (fun _ => rfl) ?_ ?_ ?_,
    h.behind.change sl rfl (fun _ => rfl) (fun z hz => Records.returnSlot_slot_other _ hz)
      (fun _ hp => by rw [hk] at hp; exact hp.elim)⟩
  · intro z _
    by_cases e : z = sl
    · subst e; simp [hk, SlotBody.SameOrder]
    · rw [Records.returnSlot_slot_other _ e]; exact .refl _
  · intro z owner o k₁ _ ho hv hk₁ hm
    by_cases e : owner = sl
    · subst e
      rw [hk] at hk₁; cases hk₁
      exact absurd (hsettled z hm o ho) hv
    · exact ⟨k₁, by rw [Records.returnSlot_slot_other _ e, hk₁], hm, rfl⟩
  · intro z k₁ hk₁ hs
    have e : z ≠ sl := by rintro rfl; rw [Records.returnSlot_slot_same] at hk₁; cases hk₁
    rw [Records.returnSlot_slot_other _ e] at hk₁; exact h.orders.held z k₁ hk₁ hs

/-- A claim for a booking without orders, or for an order that is then left out. -/
theorem Records.Sound.allocate (h : b.Sound none) {b' : Records} {privileged : Bool} {body : SlotBody}
    (ha : b.allocate privileged body = .ok (sl, b'))
    (hbody : (∃ k, body = .booking k ∧ k.annex = [] ∧ out = none) ∨ ∃ o, body = .order o ∧ out = some sl) :
    b'.Sound out := by
  obtain ⟨hr, -, rest, hl, hcl, -⟩ := Records.allocate_inv ha
  have hready : b.pool.state ≠ .initializing := by rw [hr]; nofun
  have hstate : b'.pool.state = b.pool.state := by rw [Records.allocate_pool ha]
  obtain ⟨hnodup, hmem⟩ := h.free.2 hready
  have hfree : (b.slot sl).body = .free := (hmem sl).mp (by simp [hl])
  have hne : body ≠ .free := by rcases hbody with ⟨k, rfl, -⟩ | ⟨o, rfl, -⟩ <;> nofun
  have hout : b.OrdersBut out := by
    rcases hbody with ⟨_, _, _, rfl⟩ | ⟨_, _, rfl⟩
    · exact h.orders
    · exact h.orders.omit fun o ho => by rw [hfree] at ho; cases ho
  refine ⟨⟨fun hi => absurd (hstate.symm.trans hi) hready, fun _ => ?_⟩, hout.transport ?_ ?_ ?_ ?_, ?_⟩
  · rw [hl] at hnodup hmem
    rw [hcl.freeList]
    refine ⟨(List.nodup_cons.mp hnodup).2, fun y => ?_⟩
    change _ ↔ (b'.slot y).body = .free
    by_cases e : y = sl
    · subst e
      rw [hcl.slot]
      exact ⟨fun hy => absurd hy (List.nodup_cons.mp hnodup).1, fun hy => absurd hy hne⟩
    · rw [hcl.others y e, show (b.slot y).body = .free ↔ _ from (hmem y).symm, List.mem_cons]
      exact ⟨.inr, fun hy => hy.resolve_left e⟩
  · intro q; rw [hcl.kitchen]
  · intro z hz
    by_cases e : z = sl
    · subst e
      rw [hfree, hcl.slot]
      rcases hbody with ⟨_, rfl, _, rfl⟩ | ⟨_, rfl, rfl⟩
      · trivial
      · exact absurd rfl hz
    · rw [hcl.others z e]; exact .refl _
  · intro z owner o k _ _ _ hk hm
    have e : owner ≠ sl := by rintro rfl; rw [hfree] at hk; cases hk
    exact ⟨k, by rw [hcl.others owner e, hk], hm, rfl⟩
  · intro z k hk hs
    by_cases e : z = sl
    · subst e
      rw [hcl.slot] at hk
      rcases hbody with ⟨k', rfl, hnil, -⟩ | ⟨_, rfl, -⟩
      · cases hk; exact hnil
      · cases hk
    · rw [hcl.others z e] at hk; exact h.orders.held z k hk hs
  · intro n x y hc
    rw [hstate, hr] at hc; cases hc

end Sound

/-! ## Operations that touch neither the pool nor a waitlist -/

/-- From `b` to `b'` the pool, the waitlists and, while the pool is CLEARING, the service states of the rooms stand. -/
structure Records.Framed (b b' : Records) : Prop where
  pool : b'.pool = b.pool
  waitlist : ∀ q : KitchenNo, (b'.kitchen q).waitlist = (b.kitchen q).waitlist
  service : b.Clearing → ∀ r : RoomNo, (b'.room r).service = (b.room r).service

namespace Records.Framed

variable {b b' b'' : Records}

theorem refl (b : Records) : b.Framed b := ⟨rfl, fun _ => rfl, fun _ _ => rfl⟩

theorem clearing (h : b.Framed b') : b'.Clearing ↔ b.Clearing := by unfold Records.Clearing; rw [h.pool]

theorem trans (h : b.Framed b') (h' : b'.Framed b'') : b.Framed b'' :=
  ⟨h'.pool.trans h.pool, fun q => (h'.waitlist q).trans (h.waitlist q),
    fun hc r => (h'.service (h.clearing.mpr hc) r).trans (h.service hc r)⟩

theorem foldl {α : Type} {f : Records → α → Records} (hf : ∀ (b : Records) (x : α), b.Framed (f b x)) (l : List α)
    (b : Records) : b.Framed (l.foldl f b) := by
  induction l generalizing b with
  | nil => exact refl b
  | cons x xs ih => exact (hf b x).trans (ih _)

theorem slot (h : b.Framed b') (sl : SlotNo) : b'.slot sl = b.slot sl := by simp only [Records.slot, h.pool]

/-- Records whose pool and kitchens stand, and whose rooms keep their service states. -/
theorem of_kitchens (hp : b'.pool = b.pool) (hk : b'.kitchens = b.kitchens)
    (hs : ∀ r : RoomNo, (b'.room r).service = (b.room r).service) : b.Framed b' :=
  ⟨hp, fun q => by simp only [Records.kitchen, hk], fun _ => hs⟩

theorem sound (h : b.Framed b') {out : Option SlotNo} (hb : b.Sound out) : b'.Sound out := by
  refine ⟨h.pool ▸ hb.free, hb.orders.transport h.waitlist (fun z _ => ?_) (fun z owner o k _ _ _ hk hm => ?_)
    (fun sl k => ?_), fun n x y hc => ?_⟩
  · rw [h.slot]; exact .refl _
  · exact ⟨k, by rw [h.slot, hk], hm, rfl⟩
  · rw [h.slot]; exact hb.orders.held sl k
  · rw [h.pool] at hc
    obtain ⟨hclosing, hpassed⟩ := hb.behind n x y hc
    exact ⟨fun r => by rw [h.service ⟨n, x, y, hc⟩]; exact hclosing r,
      fun sl hsl => by rw [h.slot]; exact hpassed sl hsl⟩

end Records.Framed

section Framed

variable (b : Records)

theorem Records.setRoom_framed {r : RoomNo} {x : Room} (hs : x.service = (b.room r).service) :
    b.Framed (b.setRoom r x) :=
  .of_kitchens rfl rfl fun q => by
    by_cases hq : q = r
    · subst hq; simp [hs]
    · rw [b.setRoom_room_other _ hq]

theorem Records.setKitchen_framed {k : KitchenNo} {x : Kitchen} (hx : x.waitlist = (b.kitchen k).waitlist) :
    b.Framed (b.setKitchen k x) :=
  ⟨rfl, fun q => by
    by_cases hq : q = k
    · subst hq; simp [hx]
    · rw [b.setKitchen_kitchen_other _ hq], fun _ _ => rfl⟩

theorem Records.setQueue_framed (k : KitchenNo) (x : TicketQueue) : b.Framed (b.setQueue k x) :=
  .of_kitchens rfl rfl fun _ => rfl

theorem Records.setLine_framed (l : LineNo) (x : Line) : b.Framed (b.setLine l x) :=
  .of_kitchens rfl rfl fun _ => rfl

theorem Records.raise_framed (x : RaisedNotice) : b.Framed (b.raise x) := .of_kitchens rfl rfl fun _ => rfl

theorem Records.raiseRoom?_framed (r : RoomNo) (n : Option RoomNotice) : b.Framed (b.raiseRoom? r n) := by
  unfold Records.raiseRoom?; split
  · exact b.raise_framed _
  · exact .refl b

theorem Records.markRooms_framed (rs : List RoomNo) : b.Framed (b.markRooms rs) := .of_kitchens rfl rfl fun _ => rfl

theorem Records.markShowing_framed (r : RoomNo) : b.Framed (b.markShowing r) := b.markRooms_framed _

theorem Records.markAllPanels_framed : b.Framed b.markAllPanels := .of_kitchens rfl rfl fun _ => rfl

theorem Records.link_framed (r : RoomNo) (sl : SlotNo) (start : Nat) : b.Framed (b.link r sl start) :=
  .trans (b.setRoom_framed (by rfl)) (Records.markShowing_framed _ _)

theorem Records.unlink_framed (r : RoomNo) (sl : SlotNo) : b.Framed (b.unlink r sl) :=
  .trans (b.setRoom_framed (by rfl)) (Records.markShowing_framed _ _)

theorem Records.clearTurnaround_framed (now : Nat) (r : RoomNo) : b.Framed (b.clearTurnaround now r) := by
  unfold Records.clearTurnaround
  split
  · split
    · exact b.setRoom_framed rfl
    · exact .refl b
  · exact .refl b

theorem Records.clearTurnarounds_framed (now : Nat) (rs : List RoomNo) : b.Framed (b.clearTurnarounds now rs) :=
  .foldl (fun b r => b.clearTurnaround_framed now r) _ _

theorem Records.readTurnarounds_framed (now : Nat) (r : RoomNo) : b.Framed (b.readTurnarounds now r) :=
  b.clearTurnarounds_framed _ _

theorem Kitchen.promote_waitlist (k : Kitchen) : k.promote.waitlist = k.waitlist := by
  unfold Kitchen.promote; split <;> rfl

theorem Kitchen.capacityTrigger_waitlist (k : Kitchen) (w0 : Nat) : (k.capacityTrigger w0).waitlist = k.waitlist := by
  unfold Kitchen.capacityTrigger; split <;> rfl

theorem Kitchen.subShares_waitlist (k : Kitchen) (w0 : Nat) (l : List (Nat × Nat)) :
    (k.subShares w0 l).waitlist = k.waitlist := by rw [(k.subShares_frame w0 l).1]

theorem Kitchen.addShares_waitlist (k : Kitchen) (l : List (Nat × Nat)) : (k.addShares l).waitlist = k.waitlist := by
  rw [(k.addShares_frame l).1]

theorem Kitchen.touchTested_waitlist (k : Kitchen) (l : List (Nat × Nat)) :
    (k.touchTested l).waitlist = k.waitlist := by rw [(k.touchTested_frame l).1]

theorem Records.promotionTrigger_framed (c : Clock) (k : KitchenNo) : b.Framed (b.promotionTrigger c k) := by
  unfold Records.promotionTrigger
  split
  · exact b.setKitchen_framed (Kitchen.promote_waitlist _)
  · exact .refl b

theorem Records.changeKitchen_framed (c : Clock) {k : KitchenNo} {x : Kitchen}
    (hx : x.waitlist = (b.kitchen k).waitlist) : b.Framed (b.changeKitchen c k x) := by
  unfold Records.changeKitchen
  split
  · exact b.setKitchen_framed ((Kitchen.capacityTrigger_waitlist _ _).trans hx)
  · exact b.setKitchen_framed hx

theorem Records.reformLevel_framed (c : Clock) {k : KitchenNo} {x : Kitchen}
    (hx : x.waitlist = (b.kitchen k).waitlist) : b.Framed (b.reformLevel c k x) := by
  have hchange : b.Framed (b.changeKitchen c k { x with active := x.formLevel }) := b.changeKitchen_framed c hx
  unfold Records.reformLevel
  dsimp only
  split
  · exact hchange
  · exact hchange.trans (Records.raise_framed _ _)

theorem Records.terminalReported_framed (c : Clock) (k : KitchenNo) (level : Fin 8) :
    b.Framed (b.terminalReported c k level) := b.reformLevel_framed c rfl

theorem Records.terminalLost_framed (c : Clock) (k : KitchenNo) : b.Framed (b.terminalLost c k) :=
  b.reformLevel_framed c rfl

theorem Records.releaseShares_framed (c : Clock) (o : Order) : b.Framed (b.releaseShares c o) :=
  b.setKitchen_framed (Kitchen.subShares_waitlist ..)

theorem Records.joinVoid_framed (k : KitchenNo) (sl : SlotNo) : b.Framed (b.joinVoid k sl) := by
  unfold Records.joinVoid
  dsimp only
  split
  · exact b.setQueue_framed _ _
  · split <;> exact b.setQueue_framed _ _

theorem Records.joinTicket_framed (k : KitchenNo) (sl : SlotNo) : b.Framed (b.joinTicket k sl) :=
  b.setQueue_framed _ _

theorem Records.leaveQueue_framed (k : KitchenNo) (sl : SlotNo) : b.Framed (b.leaveQueue k sl) :=
  b.setQueue_framed _ _

theorem Records.setInFlight_framed (k : KitchenNo) (f : Option (Handle × Bool)) : b.Framed (b.setInFlight k f) :=
  b.setQueue_framed _ _

theorem Records.setPass_framed (k : KitchenNo) (p : PassState) : b.Framed (b.setPass k p) := b.setKitchen_framed rfl

end Framed

/-! ## What an event keeps -/

/-- From `b` to `b'` the pool state stands, and the laws of the pool are kept. -/
structure Records.Keeps (b b' : Records) : Prop where
  state : b'.pool.state = b.pool.state
  count : b.pool.Lawful → b'.pool.Lawful
  sound : b.Sound none → b'.Sound none

namespace Records.Keeps

variable {b b' b'' : Records}

theorem refl (b : Records) : b.Keeps b := ⟨rfl, id, id⟩

theorem trans (h : b.Keeps b') (h' : b'.Keeps b'') : b.Keeps b'' :=
  ⟨h'.state.trans h.state, h'.count ∘ h.count, h'.sound ∘ h.sound⟩

theorem foldl {α : Type} {f : Records → α → Records} (hf : ∀ (b : Records) (x : α), b.Keeps (f b x)) (l : List α)
    (b : Records) : b.Keeps (l.foldl f b) := by
  induction l generalizing b with
  | nil => exact refl b
  | cons x xs ih => exact (hf b x).trans (ih _)

end Records.Keeps

/-- From `b` to `b'` the pool state stands, and the laws of the pool are kept outside CLEARING, where a booking day may
leave VOIDING orders anywhere. -/
structure Records.KeepsOutside (b b' : Records) : Prop where
  state : b'.pool.state = b.pool.state
  count : b.pool.Lawful → b'.pool.Lawful
  sound : ¬ b.Clearing → b.Sound none → b'.Sound none

theorem Records.Keeps.outside {b b' : Records} (h : b.Keeps b') : b.KeepsOutside b' :=
  ⟨h.state, h.count, fun _ => h.sound⟩

namespace Records.KeepsOutside

variable {b b' b'' : Records}

theorem refl (b : Records) : b.KeepsOutside b := (Keeps.refl b).outside

theorem clearing (h : b.KeepsOutside b') : b'.Clearing ↔ b.Clearing := by unfold Records.Clearing; rw [h.state]

theorem trans (h : b.KeepsOutside b') (h' : b'.KeepsOutside b'') : b.KeepsOutside b'' :=
  ⟨h'.state.trans h.state, h'.count ∘ h.count, fun hc => h'.sound (mt h.clearing.mp hc) ∘ h.sound hc⟩

theorem foldl {α : Type} {f : Records → α → Records} (hf : ∀ (b : Records) (x : α), b.KeepsOutside (f b x))
    (l : List α) (b : Records) : b.KeepsOutside (l.foldl f b) := by
  induction l generalizing b with
  | nil => exact refl b
  | cons x xs ih => exact (hf b x).trans (ih _)

theorem keeps (h : b.KeepsOutside b') (hc : ¬ b.Clearing) : b.Keeps b' := ⟨h.state, h.count, h.sound hc⟩

end Records.KeepsOutside

theorem Records.Framed.keeps {b b' : Records} (h : b.Framed b') : b.Keeps b' :=
  ⟨by rw [h.pool], fun hl => h.pool ▸ hl, h.sound⟩

theorem Records.Framed.outside {b b' : Records} (h : b.Framed b') : b.KeepsOutside b' := h.keeps.outside

/-- Outside CLEARING the service states of the rooms do not matter to the laws of the pool. -/
theorem Records.keepsOutside_of_pool {b b' : Records} (hp : b'.pool = b.pool) (hk : b'.kitchens = b.kitchens) :
    b.KeepsOutside b' :=
  ⟨by rw [hp], fun hl => hp ▸ hl, fun hc hs =>
    Records.Framed.sound ⟨hp, fun q => by simp only [Records.kitchen, hk], fun h => absurd h hc⟩ hs⟩

end Sys2Proof.Machine

/-! The settlement of orders, retirement and the booking day keep the laws of the pool (R68 to R75). -/

namespace Sys2Proof.Machine

open Sys2Proof

/-! ## Pools that differ in their slots -/

/-- From `b` to `b'` the pool kept everything but what its slots hold. -/
def Records.SlotsOnly (b b' : Records) : Prop := b'.pool = { b.pool with slots := b'.pool.slots }

namespace Records.SlotsOnly

variable {b b' b'' : Records}

theorem refl (b : Records) : b.SlotsOnly b := rfl

theorem trans (h : b.SlotsOnly b') (h' : b'.SlotsOnly b'') : b.SlotsOnly b'' := by
  unfold SlotsOnly at *; rw [h', h]

theorem foldl {α : Type} {f : Records → α → Records} (hf : ∀ (b : Records) (x : α), b.SlotsOnly (f b x)) (l : List α)
    (b : Records) : b.SlotsOnly (l.foldl f b) := by
  induction l generalizing b with
  | nil => exact refl b
  | cons x xs ih => exact (hf b x).trans (ih _)

theorem of_pool (h : b'.pool = b.pool) : b.SlotsOnly b' := by unfold SlotsOnly; rw [h]

theorem setBody (h : b.SlotsOnly b') (sl : SlotNo) (x : SlotBody) : b.SlotsOnly (b'.setBody sl x) :=
  h.trans rfl

theorem lawful (h : b.SlotsOnly b') (hl : b.pool.Lawful) : b'.pool.Lawful := by rw [h]; exact hl

theorem keeps (h : b.SlotsOnly b') (hs : b.Sound none → b'.Sound none) : b.Keeps b' :=
  ⟨by rw [h], h.lawful, hs⟩

end Records.SlotsOnly

theorem Records.Framed.slotsOnly {b b' : Records} (h : b.Framed b') : b.SlotsOnly b' := .of_pool h.pool

/-- A booking changed in place keeps the laws when it keeps its orders and, unless it was HELD, its class. -/
theorem Records.setBooking_keeps {b : Records} {sl : SlotNo} {k k' : Booking} (hk : (b.slot sl).body = .booking k)
    (hannex : k'.annex = k.annex) (hcls : k.state ≠ .held → k'.cls = k.cls)
    (hheld : k'.state = .held → k.state = .held) : b.Keeps (b.setBody sl (.booking k')) :=
  ((Records.SlotsOnly.refl b).setBody _ _).keeps fun h =>
    h.setBooking hk (fun _ _ hz => by rwa [hannex]) hcls fun hs => by
    rw [hannex]; exact h.orders.held sl k hk (hheld hs)

/-! ## The settlement of an order (R69) -/

/-- Order `o` of slot `sl` off its waitlist, when it waits on one. -/
def Records.lifted (b : Records) (sl : SlotNo) (o : Order) : Records :=
  if o.state = .waitlisted then b.leaveWaitlist o.kitchen sl else b

theorem Records.lifted_waitlisted {b : Records} {sl : SlotNo} {o : Order} (h : o.state = .waitlisted) :
    b.lifted sl o = b.leaveWaitlist o.kitchen sl := if_pos h

theorem Records.lifted_other {b : Records} {sl : SlotNo} {o : Order} (h : o.state ≠ .waitlisted) :
    b.lifted sl o = b := if_neg h

/-- An order taken off its waitlist may be left out. -/
theorem Records.Sound.leave {b : Records} (h : b.Sound none) {sl : SlotNo} {o : Order}
    (ho : (b.slot sl).body = .order o) : (b.leaveWaitlist o.kitchen sl).Sound (some sl) :=
  ⟨h.free, h.orders.leave ho, h.behind⟩

/-- A slot with no place on a waitlist may be left out. -/
theorem Records.Sound.omit {b : Records} (h : b.Sound none) {sl : SlotNo}
    (hsl : ∀ o, (b.slot sl).body = .order o → o.state ≠ .waitlisted) : b.Sound (some sl) :=
  ⟨h.free, h.orders.omit hsl, h.behind⟩

theorem Records.Sound.lift {b : Records} (h : b.Sound none) {sl : SlotNo} {o : Order}
    (ho : (b.slot sl).body = .order o) : (b.lifted sl o).Sound (some sl) := by
  by_cases hst : o.state = .waitlisted
  · rw [Records.lifted_waitlisted hst]; exact h.leave ho
  · rw [Records.lifted_other hst]
    exact h.omit fun o' ho' => by rw [ho] at ho'; cases ho'; exact hst

/-- The settlement of an order brings it under the laws again: returned, or VOIDING without an owner. -/
theorem Records.settleOrder_sound {b : Records} {sl : SlotNo} {o : Order} (h : (b.lifted sl o).Sound (some sl))
    (ho : (b.slot sl).body = .order o) (hc : ¬ b.Clearing) (c : Clock) : (b.settleOrder c sl).1.Sound none := by
  have voided : ∀ o' : Order, o'.state = .voiding → b.Sound (some sl) → (b.setBody sl (.order o')).Sound none :=
    fun o' hv hs => hs.settle ho (by rw [hv]; nofun) (fun hn => absurd hv hn) fun hcl => absurd hcl hc
  unfold Records.settleOrder
  rw [Records.order?_eq_some.mpr ho]
  dsimp only
  split <;> rename_i hst
  · rw [Records.lifted_waitlisted hst] at h
    exact h.returnOut ho
  all_goals rw [Records.lifted_other (by rw [hst]; nofun)] at h
  · exact (Records.promotionTrigger_framed _ _ _).sound (((b.releaseShares_framed c o).sound h).returnOut ho)
  · split
    · exact voided _ rfl h
    · exact ((b.leaveQueue_framed _ _).sound h).returnOut ho
  · exact (Records.joinVoid_framed _ _ _).sound (voided _ rfl h)
  · exact (Records.joinVoid_framed _ _ _).sound (voided _ rfl h)
  · exact h.returnOut ho
  · exact h.returnOut ho
  · refine ⟨h.free, h.orders.close fun o' ho' => ?_, h.behind⟩
    rw [ho] at ho'; cases ho'
    exact ⟨by rw [hst]; nofun, fun hv => absurd hst hv⟩

/-- The pool after the settlement of slot `sl`: as it was, the slot returned, or the slot given other contents. -/
theorem Records.settleOrder_pool (b : Records) (c : Clock) (sl : SlotNo) :
    (b.settleOrder c sl).1.pool = b.pool ∨ (b.settleOrder c sl).1.pool = (b.returnSlot sl).pool ∨
      ∃ x, (b.settleOrder c sl).1.pool = (b.setBody sl x).pool := by
  unfold Records.settleOrder
  split
  · exact .inl rfl
  · split
    · exact .inr (.inl rfl)
    · exact .inr (.inl (Records.promotionTrigger_framed _ _ _).pool)
    · split
      · exact .inr (.inr ⟨_, rfl⟩)
      · exact .inr (.inl rfl)
    · exact .inr (.inr ⟨_, (Records.joinVoid_framed _ _ _).pool⟩)
    · exact .inr (.inr ⟨_, (Records.joinVoid_framed _ _ _).pool⟩)
    · exact .inr (.inl rfl)
    · exact .inr (.inl rfl)
    · exact .inl rfl

/-- The settlement of slot `sl` touches no other slot. -/
theorem Records.settleOrder_slot_other (b : Records) (c : Clock) {sl y : SlotNo} (h : y ≠ sl) :
    (b.settleOrder c sl).1.slot y = b.slot y := by
  have slot_of_pool : ∀ b' : Records, (b.settleOrder c sl).1.pool = b'.pool →
      (b.settleOrder c sl).1.slot y = b'.slot y := fun b' e => by simp only [Records.slot, e]
  rcases b.settleOrder_pool c sl with e | e | ⟨x, e⟩
  · exact slot_of_pool _ e
  · rw [slot_of_pool _ e, Records.returnSlot_slot_other _ h]
  · rw [slot_of_pool _ e, Records.setBody_slot_other _ _ h]

/-- A slot without an order has nothing to settle. -/
theorem Records.settleOrder_of_none {b : Records} {sl : SlotNo} (h : b.order? sl = none) (c : Clock) :
    b.settleOrder c sl = (b, .freed) := by
  unfold Records.settleOrder; rw [h]

theorem Records.settleOrder_slot_booking {b : Records} {y : SlotNo} {k : Booking} (h : (b.slot y).body = .booking k)
    (c : Clock) (sl : SlotNo) : (b.settleOrder c sl).1.slot y = b.slot y := by
  by_cases e : y = sl
  · subst e
    rw [Records.settleOrder_of_none (by unfold Records.order?; rw [h])]
  · exact b.settleOrder_slot_other c e

/-- After its settlement a slot holds no order that is not VOIDING. -/
theorem Records.settleOrder_settled (b : Records) (c : Clock) (sl : SlotNo) (o : Order)
    (h : ((b.settleOrder c sl).1.slot sl).body = .order o) : o.state = .voiding := by
  have returned : ∀ b' : Records, ((b'.returnSlot sl).slot sl).body ≠ .order o := fun b' => by simp
  have voided : ∀ o' : Order, ((b.makeVoiding sl o').slot sl).body = .order o → o.state = .voiding := fun o' e => by
    rw [Records.makeVoiding, Records.setBody_slot_same] at e; cases e; rfl
  unfold Records.settleOrder at h
  split at h
  · rename_i hn
    rw [← Records.order?_eq_some, hn] at h; cases h
  · rename_i o' ho'
    split at h <;> rename_i hst
    · exact absurd h (returned _)
    · rw [(Records.promotionTrigger_framed _ _ _).slot] at h; exact absurd h (returned _)
    · split at h
      · exact voided _ h
      · exact absurd h (returned _)
    · rw [(Records.joinVoid_framed _ _ _).slot] at h; exact voided _ h
    · rw [(Records.joinVoid_framed _ _ _).slot] at h; exact voided _ h
    · exact absurd h (returned _)
    · exact absurd h (returned _)
    · rw [← Records.order?_eq_some, ho'] at h; cases h; exact hst

theorem Records.settleOrder_keeps (b : Records) (c : Clock) (sl : SlotNo) :
    b.KeepsOutside (b.settleOrder c sl).1 := by
  refine ⟨(b.settleOrder_sameSetup c sl).state, fun hl => ?_, fun hc hs => ?_⟩
  · rcases b.settleOrder_pool c sl with e | e | ⟨x, e⟩
    · rwa [e]
    · rw [e]; exact Records.returnSlot_lawful hl sl
    · rw [e]; exact hl
  · cases ho : b.order? sl with
    | none => rwa [Records.settleOrder_of_none ho]
    | some o =>
      have ho := Records.order?_eq_some.mp ho
      exact Records.settleOrder_sound (hs.lift ho) ho hc c

/-! ## The settlement of an annex chain -/

/-- The records after the head of an annex chain are those of the rest after the head's settlement. -/
theorem Records.settleAll_cons (b : Records) (c : Clock) (sl : SlotNo) (rest : List SlotNo) :
    (b.settleAll c (sl :: rest)).1 = ((b.settleOrder c sl).1.settleAll c rest).1 := by
  rcases hs : b.settleOrder c sl with ⟨b', st⟩
  cases st <;> simp only [Records.settleAll, hs]

theorem Records.settleAll_slot_booking {b : Records} {y : SlotNo} {k : Booking} (h : (b.slot y).body = .booking k)
    (c : Clock) (l : List SlotNo) : (b.settleAll c l).1.slot y = b.slot y := by
  induction l generalizing b with
  | nil => rfl
  | cons sl rest ih =>
    have step := Records.settleOrder_slot_booking h c sl
    rw [Records.settleAll_cons, ih (by rw [step, h]), step]

/-- After the settlement of an annex chain, no slot that was settled holds an order that is not VOIDING. -/
theorem Records.settleAll_settled (b : Records) (c : Clock) (l : List SlotNo) {z : SlotNo}
    (h : z ∈ l ∨ ∀ o, (b.slot z).body = .order o → o.state = .voiding) :
    ∀ o, ((b.settleAll c l).1.slot z).body = .order o → o.state = .voiding := by
  induction l generalizing b with
  | nil => exact h.resolve_left nofun
  | cons sl rest ih =>
    rw [Records.settleAll_cons]
    refine ih _ ?_
    by_cases e : z = sl
    · subst e; exact .inr (b.settleOrder_settled c z)
    · rw [b.settleOrder_slot_other c e]
      exact h.imp_left fun hz => (List.mem_cons.mp hz).resolve_left e

theorem Records.settleAll_keeps (b : Records) (c : Clock) (l : List SlotNo) :
    b.KeepsOutside (b.settleAll c l).1 := by
  induction l generalizing b with
  | nil => exact .refl b
  | cons sl rest ih =>
    rw [Records.settleAll_cons]
    exact (b.settleOrder_keeps c sl).trans (ih _)

/-! ## Retirement (R68) -/

theorem Records.retire_keeps {b : Records} {sl : SlotNo} {k₀ k : Booking}
    (hk : (b.slot sl).body = .booking k₀) (hannex : k.annex = k₀.annex) (c : Clock) (why : Reason) :
    b.KeepsOutside (b.retire c sl k why).1 := by
  have hunlink := b.unlink_framed k.room sl
  have hsettle := (b.unlink k.room sl).settleAll_keeps c k.annex
  have hkept : ((((b.unlink k.room sl).settleAll c k.annex).1.slot sl).body = .booking k₀) := by
    rw [Records.settleAll_slot_booking (k := k₀) (by rw [hunlink.slot, hk]), hunlink.slot, hk]
  have hreturn : ((b.unlink k.room sl).settleAll c k.annex).1.Keeps
      (((b.unlink k.room sl).settleAll c k.annex).1.returnSlot sl) :=
    ⟨rfl, fun hl => Records.returnSlot_lawful hl sl, fun hs => hs.returnBooking hkept fun z hz =>
      Records.settleAll_settled _ c _ (.inl (by rwa [hannex]))⟩
  refine hunlink.outside.trans (hsettle.trans (hreturn.outside.trans (Records.Framed.outside ?_)))
  exact .trans (Records.setRoom_framed _ (by rfl)) (.trans (Records.markShowing_framed _ _)
    (Records.raiseRoom?_framed _ _ _))

/-! ## Bringing up to date (R70) -/

/-- The booking that steps 1 to 6 retire or keep. -/
def DayStep.booking : DayStep → Booking
  | .retired k _ => k
  | .kept k => k

/-- The reported state is HELD for a HELD booking alone. -/
theorem reportedState_held {c : Clock} {a : RoomAttrs} {k : Booking} (h : reportedState c a k = .held) :
    k.state = .held := by
  by_contra hk
  have hst :
      (if k.state = .booked ∧ k.start ≤ c.minute + a.lead then .arriving else k.state : BookingState) ≠ .held := by
    split
    · nofun
    · exact hk
  have inUse : ∀ st : BookingState, st ≠ .held →
      (if st = .arriving ∧ k.checkedIn = true ∧ k.start ≤ c.minute then .inUse else st : BookingState) ≠ .held := by
    intro st hst
    split
    · nofun
    · exact hst
  exact inUse _ hst h

theorem Records.dayVacate_booking (b : Records) (c : Clock) (k : Booking) : (b.dayVacate c k).booking = k := by
  unfold Records.dayVacate; split <;> rfl

/-- Steps 5 and 6 change no class and no order of a booking, and make none HELD (R74, R75). -/
theorem Records.dayGrace_booking (b : Records) (c : Clock) (k : Booking) :
    (b.dayGrace c k).booking.annex = k.annex ∧ (b.dayGrace c k).booking.cls = k.cls ∧
      ((b.dayGrace c k).booking.state = .held → k.state = .held) := by
  unfold Records.dayGrace
  dsimp only
  split
  · split
    · exact ⟨rfl, rfl, id⟩
    · rw [Records.dayVacate_booking]; exact ⟨rfl, rfl, nofun⟩
  · rw [Records.dayVacate_booking]; exact ⟨rfl, rfl, id⟩

/-- The booking day changes no class and no order of a booking, and makes none HELD (R70). -/
theorem Records.dayOf_booking (b : Records) (c : Clock) (k : Booking) :
    (b.dayOf c k).booking.annex = k.annex ∧ (b.dayOf c k).booking.cls = k.cls ∧
      ((b.dayOf c k).booking.state = .held → k.state = .held) := by
  obtain ⟨hannex, hcls, hheld⟩ := b.dayGrace_booking c { k with state := reportedState c (b.room k.room).attrs k }
  have day : ∀ (expired : Bool) (d : DayStep), d = (if expired then .retired k .holdExpired
      else if k.stop ≤ c.minute then .retired k (c.endReason k)
      else b.dayGrace c { k with state := reportedState c (b.room k.room).attrs k }) →
      d.booking.annex = k.annex ∧ d.booking.cls = k.cls ∧ (d.booking.state = .held → k.state = .held) := by
    rintro expired d rfl
    split
    · exact ⟨rfl, rfl, id⟩
    · split
      · exact ⟨rfl, rfl, id⟩
      · exact ⟨hannex, hcls, fun h => reportedState_held (hheld h)⟩
  exact day _ _ rfl

theorem Records.updateBooking_keeps (b : Records) (c : Clock) (sl : SlotNo) :
    b.KeepsOutside (b.updateBooking c sl) := by
  unfold Records.updateBooking
  split
  · exact .refl b
  · rename_i k hk
    have hk := Records.booking?_eq_some.mp hk
    have hday := b.dayOf_booking c k
    split <;> rename_i hd <;> rw [hd] at hday <;> obtain ⟨hannex, hcls, hheld⟩ := hday
    · exact Records.retire_keeps hk hannex c _
    · split
      · exact .refl b
      · exact ((Records.setBooking_keeps hk hannex (fun _ => hcls) hheld).trans
          (Records.markShowing_framed _ _).keeps).outside

theorem Records.bringUp_keeps (b : Records) (c : Clock) (r : RoomNo) : b.KeepsOutside (b.bringUp c r) :=
  (b.clearTurnaround_framed c.minute r).outside.trans (.foldl (fun b sl => b.updateBooking_keeps c sl) _ _)

theorem Records.bringUpAll_keeps (b : Records) (c : Clock) (rs : List RoomNo) : b.KeepsOutside (b.bringUpAll c rs) :=
  .foldl (fun b r => b.bringUp_keeps c r) _ _

theorem Records.bringUpSet_keeps (b : Records) (c : Clock) (r : RoomNo) : b.KeepsOutside (b.bringUpSet c r) :=
  b.bringUpAll_keeps c _

/-! ## Naming a record (R53, R133, R135) -/

theorem Records.nameBooking_keeps {b b' : Records} {c : Clock} {h : Handle}
    {x : Except Status (SlotNo × Booking)} (hn : b.nameBooking c h = (b', x)) : b.KeepsOutside b' := by
  unfold Records.nameBooking at hn
  split at hn
  · cases hn; exact .refl b
  · split at hn
    · cases hn; exact .refl b
    · rename_i k _
      have hup := b.bringUpSet_keeps c k.room
      split at hn
      · cases hn; exact .refl b
      · dsimp only at hn
        split at hn
        · split at hn <;> cases hn <;> exact hup
        · cases hn; exact hup

theorem Records.nameOrder_keeps {b b' : Records} {c : Clock} {h : Handle} {closes : Bool}
    {x : Except Status (SlotNo × Order)} (hn : b.nameOrder c h closes = (b', x)) : b.KeepsOutside b' := by
  unfold Records.nameOrder at hn
  split at hn
  · cases hn; exact .refl b
  · split at hn
    · cases hn; exact .refl b
    · rename_i o _
      have hup := b.bringUp_keeps c o.room
      split at hn
      · cases hn; exact .refl b
      · dsimp only at hn
        split at hn <;> cases hn <;> exact hup

/-! ## The commands on a booking (R60, R62, R65) -/

theorem Records.addBooking_keeps {b b' : Records} {privileged : Bool} {k : Booking} {sl : SlotNo}
    (h : b.addBooking privileged k = .ok (sl, b')) (hk : k.annex = []) : b.Keeps b' := by
  unfold Records.addBooking at h
  split at h
  · cases h
  · rename_i ha
    cases h
    refine .trans ⟨by rw [Records.allocate_pool ha], Records.allocate_lawful ha, fun hs => ?_⟩
      (Records.link_framed _ _ _ _).keeps
    exact hs.allocate ha (.inl ⟨k, rfl, hk, rfl⟩)

theorem Records.confirm_keeps {b : Records} {sl : SlotNo} {k : Booking}
    (hk : (b.slot sl).body = .booking k) (hheld : k.state = .held) (c : Clock) (p : Option Prio) :
    b.KeepsOutside (b.confirm c sl (k.confirmed p)) := by
  have hset : b.Keeps (b.setBody sl (.booking (k.confirmed p))) :=
    Records.setBooking_keeps hk rfl (fun hn => absurd hheld hn) nofun
  exact (hset.trans (Records.markShowing_framed _ k.room).keeps).outside.trans (Records.updateBooking_keeps _ c sl)

theorem Records.applyAmend_keeps {b : Records} {sl : SlotNo} {k k' : Booking}
    (hk : (b.slot sl).body = .booking k) (hannex : k'.annex = k.annex) (hcls : k'.cls = k.cls)
    (hstate : k'.state = k.state) (c : Clock) : b.KeepsOutside (b.applyAmend c sl k k') := by
  have hset : ∀ b₁ : Records, b.Framed b₁ → b.Keeps (b₁.setBody sl (.booking k')) := fun b₁ h₁ =>
    h₁.keeps.trans (Records.setBooking_keeps (by rw [h₁.slot, hk]) hannex (fun _ => hcls) fun hs => hstate ▸ hs)
  have hmoved : b.Keeps (if k'.start ≠ k.start then
      ((b.unlink k.room sl).setBody sl (.booking k')).link k.room sl k'.start else b.setBody sl (.booking k')) := by
    split
    · exact (hset _ (b.unlink_framed _ _)).trans (Records.link_framed _ _ _ _).keeps
    · exact hset b (.refl b)
  unfold Records.applyAmend
  dsimp only
  generalize (if k'.start ≠ k.start then _ else _ : Records) = b₁ at hmoved ⊢
  have hmark : b.Keeps (if k' = k then b₁ else b₁.markShowing k.room) := by
    split
    · exact hmoved
    · exact hmoved.trans (Records.markShowing_framed _ _).keeps
  split
  · exact hmark.outside.trans (Records.updateBooking_keeps _ c sl)
  · exact hmark.outside

end Sys2Proof.Machine

/-! Orders, kitchens, tickets, lines and CLEAR_ALL keep the laws of the pool (chapters 7 to 9, R25). -/

namespace Sys2Proof.Machine

open Sys2Proof

/-! ## Orders (R109, R115, R131, R134, R135) -/

/-- An order as it stands on a waitlist, with its stamp and the reason (R115). -/
def Order.waiting (o : Order) (stamp : Nat) (why : WaitReason) : Order :=
  { o with state := .waitlisted, shares := [], admission := none, wait := some (stamp, why) }

/-- The order left out, put on its kitchen's waitlist (R115). -/
theorem Records.joinWaitlist_sound {b : Records} {sl : SlotNo} (h : b.Sound (some sl)) {o₀ o : Order}
    (ho : (b.slot sl).body = .order o₀) (howned : b.Owned sl o) (why : WaitReason) :
    (b.joinWaitlist sl o why).Sound none := by
  have hset := h.setOut (o' := o.waiting (nextStamp (b.kitchen o.kitchen).waits) why) ho (fun _ => nofun)
  exact ⟨hset.free, hset.orders.join (o := o.waiting (nextStamp (b.kitchen o.kitchen).waits) why)
    (by rw [Records.setBody_slot_same]) rfl (howned.setBody ho) rfl, hset.behind⟩

/-- The order left out, admitted (R109). -/
theorem Records.admitOrder_sound {b : Records} {sl : SlotNo} (h : b.Sound (some sl)) {o₀ o : Order}
    (ho : (b.slot sl).body = .order o₀) (howned : b.Owned sl o) (x : Load) : (b.admitOrder sl o x).Sound none := by
  have hframe : b.Framed (b.setKitchen o.kitchen { (b.kitchen o.kitchen).addShares x.shares with
      admissions := nextStamp (b.kitchen o.kitchen).admissions }) :=
    b.setKitchen_framed (Kitchen.addShares_waitlist ..)
  exact (hframe.sound h).settle ho nofun (fun _ => howned) fun _ => nofun

theorem Records.admitOrWait_sound {b : Records} {sl : SlotNo} (h : b.Sound (some sl)) {o₀ o : Order}
    (ho : (b.slot sl).body = .order o₀) (howned : b.Owned sl o) (x : Load) : (b.admitOrWait sl o x).Sound none := by
  have htest : b.Framed (b.setKitchen o.kitchen ((b.kitchen o.kitchen).touchTested x.shares)) :=
    b.setKitchen_framed (Kitchen.touchTested_waitlist ..)
  unfold Records.admitOrWait
  dsimp only
  split
  · split
    · exact Records.admitOrder_sound (htest.sound h) ho howned x
    · exact Records.joinWaitlist_sound (htest.sound h) ho howned _
  · exact Records.joinWaitlist_sound ((b.setKitchen_framed (by rfl)).sound h) ho howned _

theorem Records.admitOrWait_slotsOnly (b : Records) (sl : SlotNo) (o : Order) (x : Load) :
    b.SlotsOnly (b.admitOrWait sl o x) := by
  unfold Records.admitOrWait
  dsimp only
  split
  · split <;> rfl
  · rfl

theorem Records.createOrder_keeps {b b' : Records} {owner sl : SlotNo} {k : Booking} {o : Order} {x : Load} {g : Handle}
    (h : b.createOrder owner k o x = .ok (sl, b')) (hk : (b.slot owner).body = .booking k) (hheld : k.state ≠ .held)
    (hg : o.owner = some g) (hs : g.slot = owner.val) : b.Keeps b' := by
  unfold Records.createOrder at h
  split at h
  · cases h
  · rename_i sl' b₁ ha
    cases h
    have hslots : b₁.SlotsOnly ((b₁.setBody owner (.booking { k with annex := k.annex ++ [sl] })).admitOrWait sl o x) :=
      ((Records.SlotsOnly.refl b₁).setBody _ _).trans (Records.admitOrWait_slotsOnly ..)
    refine ⟨by rw [hslots, Records.allocate_pool ha], fun hl => hslots.lawful (Records.allocate_lawful ha hl), ?_⟩
    intro hsound
    obtain ⟨-, -, rest, hl, hcl, -⟩ := Records.allocate_inv ha
    have hout : b₁.Sound (some sl) := hsound.allocate ha (.inr ⟨o, rfl, rfl⟩)
    have hne : owner ≠ sl := by
      rintro rfl
      obtain ⟨hr, -⟩ := Records.allocate_inv ha
      have hfree := ((hsound.free.2 (by rw [hr]; nofun)).2 owner).mp (by simp [hl])
      rw [show (b.slot owner).body = .free from hfree] at hk
      cases hk
    have howner := hout.setBooking (k' := { k with annex := k.annex ++ [sl] })
      (by rw [hcl.others owner hne, hk]) (fun z _ hz => List.mem_append_left _ hz) (fun _ => rfl)
      fun hh => absurd hh hheld
    refine Records.admitOrWait_sound howner (o₀ := o) ?_ ⟨g, owner, _, hg, hs, by rw [Records.setBody_slot_same], ?_⟩ x
    · rw [Records.setBody_slot_other _ _ hne.symm, hcl.slot]
    · simp

/-- What the judgement of an AMEND_ORDER leaves of the order (R133). -/
theorem State.judgeAmendOrder_frame {s : State} {b : Records} {a : AmendOrderArgs} {o o' : Order} {k : Booking}
    {x : Load} {clamped : Bool} (h : s.judgeAmendOrder b a o k = .ok (o', x, clamped)) :
    o'.owner = o.owner ∧ o'.state = o.state ∧ o'.kitchen = o.kitchen ∧ o'.wait = o.wait := by
  unfold State.judgeAmendOrder at h
  split at h
  · cases h
  · split at h
    · cases h
    · split at h
      · cases h
      · dsimp only at h
        split at h
        · cases h
        · cases h; exact ⟨rfl, rfl, rfl, rfl⟩

theorem Records.amendOrderTo_keeps {b b' : Records} {c : Clock} {sl : SlotNo} {o o' : Order} {x : Load}
    (h : b.amendOrderTo c sl o o' x = some b') (ho : (b.slot sl).body = .order o) (howner : o'.owner = o.owner)
    (hstate : o'.state = o.state) (hkitchen : o'.kitchen = o.kitchen) (hwait : o'.wait = o.wait) : b.Keeps b' := by
  have hset : ∀ (b₁ : Records) (shares : List (Nat × Nat)), b.Framed b₁ →
      b.Keeps (b₁.setBody sl (.order { o' with shares := shares })) := fun b₁ shares h₁ =>
    h₁.keeps.trans (((Records.SlotsOnly.refl b₁).setBody _ _).keeps fun hs =>
      hs.setOrder_same (by rw [h₁.slot, ho]) howner hstate hkitchen hwait)
  unfold Records.amendOrderTo at h
  split at h
  · cases h
    exact (hset b o'.shares (.refl b)).trans (Records.promotionTrigger_framed _ _ _).keeps
  · unfold Records.replaceLoad at h
    dsimp only at h
    split at h
    · cases h
      have hnew := hset _ x.shares (b.setKitchen_framed (k := o.kitchen)
        (x := ((b.kitchen o.kitchen).subShares c.w0 o.shares).addShares x.shares)
        (by rw [Kitchen.addShares_waitlist, Kitchen.subShares_waitlist]))
      split
      · exact hnew.trans (Records.promotionTrigger_framed _ _ _).keeps
      · exact hnew
    · cases h

/-- An order left out may leave its owner's annex chain. -/
theorem Records.Sound.leaveAnnex {b : Records} {sl : SlotNo} (h : b.Sound (some sl)) (o : Order) :
    (b.leaveAnnex sl o).Sound (some sl) := by
  unfold Records.leaveAnnex
  split
  · rename_i owner k howner
    have hk : (b.slot owner).body = .booking k := by
      simp only [Records.ownerOf, Option.bind_eq_some_iff, Option.map_eq_some_iff, Prod.mk.injEq] at howner
      obtain ⟨g, -, sl', -, k', hk', rfl, rfl⟩ := howner
      exact Records.booking?_eq_some.mp hk'
    refine h.setBooking hk (fun z hz hm => List.mem_filter.mpr ⟨hm, by simpa using hz⟩) (fun _ => rfl) fun hheld => ?_
    rw [show k.annex = [] from h.orders.held owner k hk hheld]
    rfl
  · exact h

theorem Records.leaveAnnex_slotsOnly (b : Records) (sl : SlotNo) (o : Order) : b.SlotsOnly (b.leaveAnnex sl o) := by
  unfold Records.leaveAnnex; split <;> rfl

/-- Leaving an annex chain and leaving a waitlist commute. -/
theorem Records.leaveAnnex_lifted (b : Records) (sl : SlotNo) (o : Order) :
    (b.leaveAnnex sl o).lifted sl o = (b.lifted sl o).leaveAnnex sl o := by
  have howner : (b.leaveWaitlist o.kitchen sl).ownerOf o = b.ownerOf o := rfl
  by_cases hst : o.state = .waitlisted
  · simp only [Records.lifted_waitlisted hst, Records.leaveAnnex, howner]
    cases b.ownerOf o <;> rfl
  · simp only [Records.lifted_other hst]

theorem Records.leaveAnnex_slot_order {b : Records} {sl : SlotNo} {o : Order} (ho : (b.slot sl).body = .order o) :
    ((b.leaveAnnex sl o).slot sl).body = .order o := by
  unfold Records.leaveAnnex
  split
  · rename_i owner k howner
    have hne : sl ≠ owner := by
      simp only [Records.ownerOf, Option.bind_eq_some_iff, Option.map_eq_some_iff, Prod.mk.injEq] at howner
      obtain ⟨g, -, sl', -, k', hk', rfl, rfl⟩ := howner
      rintro rfl
      rw [Records.booking?_eq_some, ho] at hk'; cases hk'
    rw [Records.setBody_slot_other _ _ hne, ho]
  · exact ho

/-- A cancelled order leaves its owner's annex chain and is settled (R135). -/
theorem Records.cancelled_keeps {b : Records} {sl : SlotNo} {o : Order} (ho : (b.slot sl).body = .order o)
    (c : Clock) : b.KeepsOutside ((b.leaveAnnex sl o).settleOrder c sl).1 := by
  have hslots := b.leaveAnnex_slotsOnly sl o
  have hstate : (b.leaveAnnex sl o).pool.state = b.pool.state := by rw [hslots]
  have hsettle := (b.leaveAnnex sl o).settleOrder_keeps c sl
  refine ⟨hsettle.state.trans hstate, fun hl => hsettle.count (hslots.lawful hl), fun hc hs => ?_⟩
  refine Records.settleOrder_sound ?_ (Records.leaveAnnex_slot_order ho) (by unfold Records.Clearing; rwa [hstate]) c
  rw [Records.leaveAnnex_lifted]
  exact (hs.lift ho).leaveAnnex o

/-! ## Lapses and the dispatch of a roll (R112, R113) -/

theorem Records.lapse_slotsOnly (b : Records) (sl : SlotNo) (o : Order) : b.SlotsOnly (b.lapse sl o) := rfl

theorem Records.lapse_sound {b : Records} (h : b.Sound none) {sl : SlotNo} {o : Order}
    (ho : (b.slot sl).body = .order o) (hv : o.state ≠ .voiding) : (b.lapse sl o).Sound none := by
  obtain ⟨g, owner, k, hown⟩ := h.orders.owned sl o nofun ho hv
  exact (Records.raise_framed _ _).sound ((h.leave ho).settle ho nofun (fun _ => ⟨g, owner, k, hown⟩) fun _ => nofun)

/-- One order of the lapses of a roll, as `Records.lapseAll` takes it. -/
def Records.lapseOverdue (b : Records) (w0 : Nat) (sl : SlotNo) : Records :=
  match b.order? sl with
  | some o => if o.overdue w0 then b.lapse sl o else b
  | none => b

theorem Records.lapseAll_eq (b : Records) (w0 : Nat) (l : List SlotNo) :
    b.lapseAll w0 l = l.foldl (fun x sl => x.lapseOverdue w0 sl) b := rfl

theorem Records.lapseOverdue_slotsOnly (b : Records) (w0 : Nat) (sl : SlotNo) : b.SlotsOnly (b.lapseOverdue w0 sl) := by
  unfold Records.lapseOverdue
  split
  · split
    · exact b.lapse_slotsOnly _ _
    · exact .refl b
  · exact .refl b

/-- A lapse keeps the laws, and leaves no VOIDING order where there was none. -/
theorem Records.lapseOverdue_sound {b : Records} (h : b.Sound none) (w0 : Nat) {sl : SlotNo}
    (hv : ∀ o, (b.slot sl).body = .order o → o.state ≠ .voiding) :
    (b.lapseOverdue w0 sl).Sound none ∧ ∀ z : SlotNo, (∀ o, (b.slot z).body = .order o → o.state ≠ .voiding) →
      ∀ o, ((b.lapseOverdue w0 sl).slot z).body = .order o → o.state ≠ .voiding := by
  unfold Records.lapseOverdue
  split
  · rename_i o ho
    have ho := Records.order?_eq_some.mp ho
    split
    · refine ⟨Records.lapse_sound h ho (hv o ho), fun z hz o' ho' => ?_⟩
      rw [Records.lapse, Records.raise_slot] at ho'
      by_cases e : z = sl
      · subst e
        rw [Records.setBody_slot_same] at ho'
        cases ho'; nofun
      · rw [Records.setBody_slot_other _ _ e] at ho'; exact hz o' ho'
    · exact ⟨h, fun z hz => hz⟩
  · exact ⟨h, fun z hz => hz⟩

theorem Records.lapseAll_sound {b : Records} (h : b.Sound none) (w0 : Nat) {l : List SlotNo}
    (hv : ∀ sl ∈ l, ∀ o, (b.slot sl).body = .order o → o.state ≠ .voiding) : (b.lapseAll w0 l).Sound none := by
  induction l generalizing b with
  | nil => exact h
  | cons sl rest ih =>
    obtain ⟨hs, hz⟩ := Records.lapseOverdue_sound h w0 (hv sl (List.mem_cons_self ..))
    exact ih hs fun z hm => hz z (hv z (List.mem_cons_of_mem _ hm))

/-- The lapses of a roll along a kitchen's waitlist. -/
theorem Records.lapseAll_keeps (b : Records) (w0 : Nat) (q : KitchenNo) :
    b.Keeps (b.lapseAll w0 (b.kitchen q).waitlist) := by
  refine Records.SlotsOnly.keeps (.foldl (fun b sl => b.lapseOverdue_slotsOnly w0 sl) _ _) fun hs => ?_
  refine Records.lapseAll_sound hs w0 fun sl hm o ho => ?_
  obtain ⟨-, o', ho', hst, -⟩ := (hs.orders.waiting q sl).mp hm
  rw [ho] at ho'
  cases ho'
  rw [hst]; nofun

/-- What a scan of a list finds, each with its place. -/
theorem mem_scanFrom {α β : Type} {f : Nat → α → Option β} {i : Nat} {l : List α} {x : β} :
    x ∈ scanFrom f i l ↔ ∃ j, ∃ h : j < l.length, f (i + j) l[j] = some x := by
  induction l generalizing i with
  | nil => simp [scanFrom]
  | cons a rest ih =>
    have step : (∃ j, ∃ h : j < (a :: rest).length, f (i + j) (a :: rest)[j] = some x) ↔
        f i a = some x ∨ ∃ j, ∃ h : j < rest.length, f (i + 1 + j) rest[j] = some x := by
      constructor
      · rintro ⟨j, hj, e⟩
        cases j with
        | zero => exact .inl e
        | succ j => exact .inr ⟨j, by simpa using hj, by rwa [show i + 1 + j = i + (j + 1) by omega]⟩
      · rintro (e | ⟨j, hj, e⟩)
        · exact ⟨0, by simp, e⟩
        · exact ⟨j + 1, by simpa using hj, by rwa [show i + (j + 1) = i + 1 + j by omega]⟩
    rw [step, ← ih, scanFrom]
    cases f i a with
    | none => simp
    | some y => simp [eq_comm]

/-- The orders found by a scan of the pool stand in their slots and satisfy the test. -/
theorem Records.ordersWhere_slot {b : Records} {p : Order → Bool} {x : SlotNo × Order} (h : x ∈ b.ordersWhere p) :
    (b.slot x.1).body = .order x.2 ∧ p x.2 = true := by
  obtain ⟨j, hj, e⟩ := mem_scanFrom.mp h
  have hj : j < 32768 := by simpa using hj
  split at e
  · rename_i o ho
    split at e
    · rename_i hp
      cases e
      have hval : Fin.ofNat 32768 (0 + j) = (⟨j, hj⟩ : SlotNo) := Fin.ext (by simp; omega)
      rw [hval]
      exact ⟨by simpa [Records.slot] using ho, hp⟩
    · cases e
  · cases e
  · cases e

theorem mem_insertDispatch (x y : SlotNo × Order) (l : List (SlotNo × Order)) :
    y ∈ insertDispatch x l ↔ y = x ∨ y ∈ l := by
  induction l with
  | nil => simp [insertDispatch]
  | cons z zs ih =>
    unfold insertDispatch
    split
    · simp
    · simp only [List.mem_cons, ih]; exact or_left_comm

/-- The orders to be dispatched are CONFIRMED orders in their slots (R112). -/
theorem Records.dispatchable_slot {b : Records} {k : KitchenNo} {w0 : Nat} {x : SlotNo × Order}
    (h : x ∈ b.dispatchable k w0) : (b.slot x.1).body = .order x.2 ∧ x.2.state = .confirmed := by
  have mem : ∀ l : List (SlotNo × Order), x ∈ l.foldr insertDispatch [] → x ∈ l := by
    intro l
    induction l with
    | nil => exact id
    | cons y ys ih =>
      rw [List.foldr_cons, mem_insertDispatch]
      rintro (rfl | hm)
      · exact List.mem_cons_self ..
      · exact List.mem_cons_of_mem _ (ih hm)
  obtain ⟨hbody, hp⟩ := Records.ordersWhere_slot (mem _ h)
  obtain ⟨-, hst, -⟩ := of_decide_eq_true hp
  exact ⟨hbody, hst⟩

/-- The order that was found in a slot is still there, CONFIRMED or already dispatched. -/
def Records.StillThere (b : Records) (x : SlotNo × Order) : Prop :=
  ∃ o, (b.slot x.1).body = .order o ∧ o.owner = x.2.owner ∧ o.state ≠ .waitlisted ∧ o.state ≠ .voiding

theorem Records.dispatchOne_slotsOnly (b : Records) (c : Clock) (x : SlotNo × Order) :
    b.SlotsOnly (b.dispatchOne c x) := rfl

theorem Records.dispatchOne_sound {b : Records} (h : b.Sound none) (c : Clock) {x : SlotNo × Order}
    (hx : b.StillThere x) : (b.dispatchOne c x).Sound none := by
  obtain ⟨o, ho, howner, hst, hv⟩ := hx
  exact (Records.joinTicket_framed _ _ _).sound (((b.releaseShares_framed c x.2).sound h).setOrder ho hst nofun
    (fun _ => ⟨howner.symm, hv⟩) fun _ => nofun)

theorem Records.dispatchOne_stillThere {b : Records} (c : Clock) {x y : SlotNo × Order} (hx : b.StillThere x)
    (hy : b.StillThere y) : (b.dispatchOne c x).StillThere y := by
  obtain ⟨ox, hox, hownx, -, -⟩ := hx
  obtain ⟨oy, hoy, howny, hst, hv⟩ := hy
  unfold Records.StillThere
  rw [Records.dispatchOne, (Records.joinTicket_framed _ _ _).slot]
  by_cases e : y.1 = x.1
  · rw [e, hox] at hoy
    cases hoy
    rw [e, Records.setBody_slot_same]
    exact ⟨_, rfl, hownx.symm.trans howny, nofun, nofun⟩
  · rw [Records.setBody_slot_other _ _ e]
    exact ⟨oy, hoy, howny, hst, hv⟩

theorem Records.dispatchAll_keeps {b : Records} (c : Clock) {l : List (SlotNo × Order)}
    (hl : ∀ x ∈ l, b.StillThere x) : b.Keeps (b.dispatchAll c l).1 := by
  induction l generalizing b with
  | nil => exact .refl b
  | cons x rest ih =>
    have hx := hl x (List.mem_cons_self ..)
    exact ((b.dispatchOne_slotsOnly c x).keeps fun hs => Records.dispatchOne_sound hs c hx).trans
      (ih fun y hy => Records.dispatchOne_stillThere c hx (hl y (List.mem_cons_of_mem _ hy)))

theorem Records.dispatch_keeps (b : Records) (c : Clock) (k : KitchenNo) : b.Keeps (b.dispatch c k) := by
  have hall := Records.dispatchAll_keeps (b := b) c (l := b.dispatchable k c.w0) fun x hx => by
    obtain ⟨hbody, hst⟩ := Records.dispatchable_slot hx
    exact ⟨x.2, hbody, rfl, by rw [hst]; nofun, by rw [hst]; nofun⟩
  unfold Records.dispatch
  split <;> rename_i hd <;> rw [hd] at hall
  · exact hall.trans (Records.promotionTrigger_framed _ _ _).keeps
  · exact hall

theorem Records.roll_keeps (b : Records) (c : Clock) (k : KitchenNo) (o n : Nat) : b.Keeps (b.roll c k o n) := by
  have hring : b.Framed (b.setKitchen k ((b.kitchen k).rolled c.w0)) := b.setKitchen_framed rfl
  unfold Records.roll
  split
  · exact .refl b
  · dsimp only
    split
    · exact hring.keeps
    · exact hring.keeps.trans ((Records.dispatch_keeps _ c k).trans (Records.lapseAll_keeps _ _ _))

/-! ## The pass engine (R117 to R120) -/

/-- The order chosen to be shed is one of those that may be. -/
theorem Records.chooseShed_mem {b : Records} {l : List (SlotNo × Order)} {x : SlotNo × Order}
    (h : b.chooseShed l = some x) : x ∈ l := by
  have mem : ∀ (l : List (SlotNo × Order)) (a : Option (SlotNo × Order)), l.foldl (fun a x =>
      match a with
      | none => some x
      | some y => if b.shedBefore x y then some x else some y) a = some x → x ∈ l ∨ a = some x := by
    intro l
    induction l with
    | nil => exact fun a h => .inr h
    | cons y ys ih =>
      intro a h
      rcases ih _ h with hm | he
      · exact .inl (List.mem_cons_of_mem _ hm)
      · cases a with
        | none => cases he; exact .inl (List.mem_cons_self ..)
        | some z =>
          dsimp only at he
          split at he
          · cases he; exact .inl (List.mem_cons_self ..)
          · exact .inr he
  exact (mem l none h).resolve_right nofun

theorem Records.shed_keeps {b : Records} {x : SlotNo × Order} (hbody : (b.slot x.1).body = .order x.2)
    (hst : x.2.state = .confirmed) (c : Clock) : b.Keeps (b.shed c x) := by
  refine Records.SlotsOnly.keeps rfl fun hs => ?_
  have hframe := b.releaseShares_framed c x.2
  have hs := hframe.sound hs
  refine (Records.raise_framed _ _).sound (Records.joinWaitlist_sound (hs.omit fun o ho => ?_) hbody ?_ _)
  · rw [hframe.slot, hbody] at ho
    cases ho; rw [hst]; nofun
  · exact hs.orders.owned x.1 x.2 nofun hbody (by rw [hst]; nofun)

theorem Records.shedWindow_keeps (b : Records) (c : Clock) (k : KitchenNo) (w : Nat) :
    b.Keeps (b.shedWindow c k w) := by
  have htouch : b.Framed (b.setKitchen k { (b.kitchen k).touch w with pass := .shedding w }) := b.setKitchen_framed rfl
  unfold Records.shedWindow
  dsimp only
  split
  · exact (htouch.trans (Records.setPass_framed _ _ _)).keeps
  · split
    · exact (htouch.trans (Records.setPass_framed _ _ _)).keeps
    · rename_i x hx
      obtain ⟨hbody, hp⟩ := Records.ordersWhere_slot (Records.chooseShed_mem hx)
      obtain ⟨-, hst, -⟩ := of_decide_eq_true hp
      exact htouch.keeps.trans (Records.shed_keeps hbody hst c)

theorem Records.sheddingStep_keeps (b : Records) (c : Clock) (k : KitchenNo) (cursor : Nat) :
    b.Keeps (b.sheddingStep c k cursor) := by
  have hmark : b.Framed (b.setKitchen k { b.kitchen k with restart := false }) := b.setKitchen_framed rfl
  unfold Records.sheddingStep
  dsimp only
  generalize (if _ ≤ c.w0 then c.w0 + 1 else _) = w
  split
  · exact (hmark.trans (Records.setKitchen_framed _ (by rfl))).keeps
  · exact hmark.keeps.trans (Records.shedWindow_keeps _ c k w)

theorem Records.promote_sound {b : Records} (h : b.Sound none) {sl : SlotNo} {o : Order}
    (ho : (b.slot sl).body = .order o) (hv : o.state ≠ .voiding) (x : Load) : (b.promote sl o x).Sound none :=
  (Records.raise_framed _ _).sound (Records.admitOrder_sound (h.leave ho) ho (h.orders.owned sl o nofun ho hv) x)

theorem Records.examine_slotsOnly (b : Records) (c : Clock) (menu : Vector MenuClass 16) (sl : SlotNo) (o : Order) :
    b.SlotsOnly (b.examine c menu sl o) := by
  unfold Records.examine
  split
  · rfl
  · dsimp only
    split <;> rfl

theorem Records.examine_sound {b : Records} (h : b.Sound none) {sl : SlotNo} {o : Order}
    (ho : (b.slot sl).body = .order o) (hv : o.state ≠ .voiding) (c : Clock) (menu : Vector MenuClass 16) :
    (b.examine c menu sl o).Sound none := by
  unfold Records.examine
  split
  · exact Records.lapse_sound h ho hv
  · rename_i x _
    have htest := (b.setKitchen_framed (k := o.kitchen) (Kitchen.touchTested_waitlist _ x.shares)).sound h
    dsimp only
    split
    · exact Records.promote_sound htest ho hv x
    · exact htest.setOrder_same ho rfl rfl rfl rfl

/-- The order that a PROMOTING walk examines next waits on the kitchen's waitlist. -/
theorem Records.nextWaiting_some {b : Records} {k : KitchenNo} {cursor : Option WaitPlace} {sl : SlotNo} {o : Order}
    (h : b.nextWaiting k cursor = some (sl, o)) : sl ∈ (b.kitchen k).waitlist ∧ (b.slot sl).body = .order o := by
  unfold Records.nextWaiting at h
  obtain ⟨sl', hfind, hmap⟩ := Option.bind_eq_some_iff.mp h
  obtain ⟨o', ho', e⟩ := Option.map_eq_some_iff.mp hmap
  cases e
  exact ⟨List.mem_of_find?_eq_some hfind, Records.order?_eq_some.mp ho'⟩

theorem Records.promotingStep_keeps (b : Records) (c : Clock) (menu : Vector MenuClass 16) (k : KitchenNo)
    (cursor : Option WaitPlace) : b.Keeps (b.promotingStep c menu k cursor) := by
  unfold Records.promotingStep
  dsimp only
  split
  · exact (b.setKitchen_framed (by rfl)).keeps
  · split
    · refine (b.setKitchen_framed ?_).keeps
      unfold Kitchen.walkEnded; split <;> rfl
    · rename_i sl o hnext
      obtain ⟨hmem, ho⟩ := Records.nextWaiting_some hnext
      have hpass := b.setPass_framed k (.promoting (some (b.placeOf sl)))
      refine (hpass.slotsOnly.trans (Records.examine_slotsOnly ..)).keeps fun hs => ?_
      refine Records.examine_sound (hpass.sound hs) ho (fun hv => ?_) c menu
      obtain ⟨-, o', ho', hst, -⟩ := (hs.orders.waiting k sl).mp hmem
      rw [ho] at ho'
      cases ho'
      rw [hst] at hv; cases hv

/-! ## Tickets and order reports (R141 to R143) -/

theorem Records.headInFlight_some {b : Records} {k : KitchenNo} {sl : SlotNo} {o : Order} {sent : Bool}
    (h : b.headInFlight k = some (sl, o, sent)) : (b.slot sl).body = .order o := by
  unfold Records.headInFlight at h
  split at h
  · split at h
    · obtain ⟨o', ho', e⟩ := Option.map_eq_some_iff.mp h
      cases e
      exact Records.order?_eq_some.mp ho'
    · cases h
  · cases h
  · cases h

/-- A VOIDING order returned (R141, R142). -/
theorem Records.returnVoiding_keeps {b : Records} {sl : SlotNo} {o : Order} (ho : (b.slot sl).body = .order o)
    (hv : o.state = .voiding) : b.Keeps (b.returnSlot sl) :=
  ⟨rfl, fun hl => Records.returnSlot_lawful hl sl, fun hs => (hs.omit fun o' ho' => by
    rw [ho] at ho'; cases ho'; rw [hv]; nofun).returnOut ho⟩

theorem Records.settleAnswer_keeps (b : Records) (k : KitchenNo) : b.Keeps (b.settleAnswer k) := by
  have hclear := b.setInFlight_framed k none
  unfold Records.settleAnswer
  dsimp only
  split
  · exact hclear.keeps
  · rename_i sl o hhead
    split
    · rename_i hv
      exact (hclear.trans (Records.leaveQueue_framed _ _ _)).keeps.trans
        (Records.returnVoiding_keeps (o := o) (Records.headInFlight_some (b := b) hhead) hv)
    · exact hclear.keeps
  · rename_i sl o hhead
    have ho := Records.headInFlight_some hhead
    have hleave := hclear.trans (Records.leaveQueue_framed _ k sl)
    split
    · rename_i hq
      refine hleave.keeps.trans (Records.SlotsOnly.keeps rfl fun hs => ?_)
      exact hs.setOrder ho (by rw [hq]; nofun) nofun (fun _ => ⟨rfl, by rw [hq]; nofun⟩) fun _ => nofun
    · split
      · exact (hleave.trans (Records.joinVoid_framed _ _ _)).keeps
      · exact hclear.keeps

theorem Records.settleLoss_keeps (b : Records) (k : KitchenNo) : b.Keeps (b.settleLoss k) := by
  have hclear := b.setInFlight_framed k none
  unfold Records.settleLoss
  dsimp only
  split
  · exact hclear.keeps
  · exact hclear.keeps
  · rename_i sl o hhead
    split
    · rename_i hv
      exact (hclear.trans (Records.leaveQueue_framed _ _ _)).keeps.trans
        (Records.returnVoiding_keeps (o := o) (Records.headInFlight_some (b := b) hhead) hv)
    · exact hclear.keeps

/-- A report acts on a TICKETED or ACCEPTED order alone, and makes it ACCEPTED or DONE (R143). -/
theorem Report.acts_some {x : Report} {st st' : OrderState} (h : x.acts st = some st') :
    (st = .ticketed ∨ st = .accepted) ∧ (st' = .accepted ∨ st' = .done) := by
  unfold Report.acts at h
  split at h
  · split at h
    · rename_i hst; cases h; exact ⟨.inl hst, .inl rfl⟩
    · cases h
  · split at h
    · split at h
      · rename_i hst; cases h; exact ⟨hst, .inr rfl⟩
      · cases h
    · cases h

/-- The states between which a report moves an order have no waitlist and an owner (R127). -/
theorem OrderState.with_kitchen {st : OrderState} (h : st = .ticketed ∨ st = .accepted ∨ st = .done) :
    st ≠ .waitlisted ∧ st ≠ .voiding := by
  rcases h with rfl | rfl | rfl <;> exact ⟨nofun, nofun⟩

theorem Records.takeReport_keeps (b : Records) (k : KitchenNo) (x : Report) : b.Keeps (b.takeReport k x) := by
  unfold Records.takeReport
  split
  · exact .refl b
  · split
    · exact .refl b
    · rename_i sl _ _ o ho
      split
      · split
        · exact .refl b
        · rename_i st hacts
          obtain ⟨hfrom, hto⟩ := Report.acts_some hacts
          obtain ⟨hw, hv⟩ := OrderState.with_kitchen (hfrom.imp_right .inl)
          obtain ⟨hw', hv'⟩ := OrderState.with_kitchen (.inr hto)
          have hset : b.Keeps (b.setBody sl (.order { o with state := st })) :=
            Records.SlotsOnly.keeps rfl fun hs =>
              hs.setOrder (Records.order?_eq_some.mp ho) hw hw' (fun _ => ⟨rfl, hv⟩) fun _ h => absurd h hv'
          dsimp only
          split
          · exact hset.trans (Records.raise_framed _ _).keeps
          · exact hset
      · exact .refl b

theorem Records.terminalAnswered_keeps (b : Records) (k : KitchenNo) (payload : List Byte) :
    b.Keeps (b.terminalAnswered k payload) :=
  (b.settleAnswer_keeps k).trans (.foldl (fun b r => b.takeReport_keeps k r) _ _)

/-! ## Lines (chapter 9) -/

theorem Records.settleFrame_keeps (b : Records) (l : LineNo) (v : Visit) : b.Keeps (b.settleFrame l v) := by
  unfold Records.settleFrame
  dsimp only
  split
  · exact .refl b
  · split
    · exact (b.setLine_framed _ _).keeps
    · exact .refl b
  · exact b.settleLoss_keeps _

theorem Records.raiseBack_framed (b : Records) (x : Node) : b.Framed (b.raiseBack x) := by
  unfold Records.raiseBack
  split
  · split
    · exact .refl b
    · exact b.raise_framed _
    · exact b.raise_framed _
  · exact .refl b

theorem Records.raiseSilent_framed (b : Records) (x : Node) : b.Framed (b.raiseSilent x) := by
  unfold Records.raiseSilent
  split
  · split
    · exact .refl b
    · exact b.raise_framed _
    · exact b.raise_framed _
  · exact .refl b

theorem Records.lossOf_framed (b : Records) (c : Clock) (x : Node) : b.Framed (b.lossOf c x) := by
  unfold Records.lossOf
  split
  · split
    · exact b.terminalLost_framed _ _
    · exact .refl b
  · exact .refl b

theorem Records.goodAnswer_keeps (b : Records) (c : Clock) (l : LineNo) (v : Visit) (payload : List Byte) :
    b.Keeps (b.goodAnswer c l v payload) := by
  unfold Records.goodAnswer
  dsimp only
  generalize (if v.frame = .page then _ else _ : Node) = y
  have hback := (b.setLine_framed l ((b.line l).setNode v.node y)).trans
    (Records.raiseBack_framed _ ((b.line l).node v.node))
  refine .trans ?_ (Records.setLine_framed _ _ _).keeps
  split
  · exact hback.keeps
  · exact hback.keeps
  · exact hback.keeps.trans
      ((Records.terminalAnswered_keeps _ _ _).trans (Records.terminalReported_framed _ _ _ _).keeps)

theorem Records.loss_keeps (b : Records) (c : Clock) (l : LineNo) (v : Visit) : b.Keeps (b.loss c l v) :=
  (b.settleFrame_keeps l v).trans (.trans (.trans (.trans (Records.setLine_framed _ _ _).keeps
    (Records.raiseSilent_framed _ _).keeps) (Records.lossOf_framed _ _ _).keeps) (Records.setLine_framed _ _ _).keeps)

theorem Records.clearLine_keeps (b : Records) (c : Clock) (l : LineNo) : b.Keeps (b.clearLine c l) := by
  have losses : ∀ (b₁ : Records) (lost : List KitchenNo), b₁.Framed
      (lost.foldl (fun x k => x.terminalLost c k) (b₁.setLine l (b₁.line l).cleared)) := fun b₁ lost =>
    (b₁.setLine_framed _ _).trans (.foldl (fun b k => b.terminalLost_framed c k) _ _)
  unfold Records.clearLine
  dsimp only
  split
  · exact (b.settleFrame_keeps l _).trans (losses _ _).keeps
  · exact (losses b _).keeps

theorem Records.startVisit_framed (b : Records) (c : Clock) (l : LineNo) (ln : Line) (n : NodeNo) :
    b.Framed (b.startVisit c l ln n) := by
  unfold Records.startVisit
  split
  · exact .refl b
  · split
    · exact (b.clearTurnarounds_framed _ _).trans (Records.setLine_framed _ _ _)
    · exact b.setLine_framed _ _
  · exact (b.setInFlight_framed _ _).trans (Records.setLine_framed _ _ _)

theorem Records.nameTerminal_framed (b : Records) (c : Clock) (kind : NodeKind) (t : Option (LineNo × NodeNo)) :
    b.Framed (b.nameTerminal c kind t) := by
  unfold Records.nameTerminal
  split
  · exact .refl b
  · exact .refl b
  · exact b.reformLevel_framed c rfl

theorem Records.writeNode_framed (b : Records) (c : Clock) (l : LineNo) (n : NodeNo) (kind : NodeKind) :
    b.Framed (b.writeNode c l n kind) := by
  unfold Records.writeNode
  dsimp only
  refine .trans ?_ (Records.nameTerminal_framed _ _ _ _)
  split
  · exact b.setLine_framed _ _
  · exact (b.setLine_framed _ _).trans (Records.nameTerminal_framed _ _ _ _)

/-! ## The visits of CLEAR_ALL (R25) -/

theorem Records.clearOrder_of_none {b : Records} {sl : SlotNo} (h : b.order? sl = none) (c : Clock) :
    b.clearOrder c sl = b := by
  unfold Records.clearOrder; rw [h]

theorem Records.clearOrder_of_some {b : Records} {sl : SlotNo} {o : Order} (h : b.order? sl = some o) (c : Clock) :
    b.clearOrder c sl =
      (((b.leaveWaitlist o.kitchen sl).leaveQueue o.kitchen sl).releaseShares c o).returnSlot sl := by
  unfold Records.clearOrder; rw [h]

theorem Records.clearOrder_keeps (b : Records) (c : Clock) (sl : SlotNo) : b.Keeps (b.clearOrder c sl) := by
  cases ho : b.order? sl with
  | none => rw [Records.clearOrder_of_none ho]; exact .refl b
  | some o =>
    rw [Records.clearOrder_of_some ho]
    have ho := Records.order?_eq_some.mp ho
    refine ⟨rfl, fun hl => Records.returnSlot_lawful hl sl, fun hs => ?_⟩
    have hframed := (Records.leaveQueue_framed (b.leaveWaitlist o.kitchen sl) o.kitchen sl).trans
      (Records.releaseShares_framed _ c o)
    exact (hframed.sound (hs.leave ho)).returnOut ho

theorem Records.clearOrder_slot_other (b : Records) (c : Clock) {sl y : SlotNo} (h : y ≠ sl) :
    (b.clearOrder c sl).slot y = b.slot y := by
  cases ho : b.order? sl with
  | none => rw [Records.clearOrder_of_none ho]
  | some o => rw [Records.clearOrder_of_some ho, Records.returnSlot_slot_other _ h]; rfl

theorem Records.clearOrder_slot_booking {b : Records} {y : SlotNo} {k : Booking} (h : (b.slot y).body = .booking k)
    (c : Clock) (sl : SlotNo) : (b.clearOrder c sl).slot y = b.slot y := by
  by_cases e : y = sl
  · subst e
    rw [Records.clearOrder_of_none (by unfold Records.order?; rw [h])]
  · exact b.clearOrder_slot_other c e

theorem Records.clearOrder_order? (b : Records) (c : Clock) (sl : SlotNo) : (b.clearOrder c sl).order? sl = none := by
  cases ho : b.order? sl with
  | none => rw [Records.clearOrder_of_none ho, ho]
  | some o => rw [Records.clearOrder_of_some ho]; simp [Records.order?]

/-- The orders of an annex chain returned one after another. -/
theorem Records.clearOrders_slot_booking {b : Records} {y : SlotNo} {k : Booking} (h : (b.slot y).body = .booking k)
    (c : Clock) (l : List SlotNo) : (l.foldl (fun x o => x.clearOrder c o) b).slot y = b.slot y := by
  induction l generalizing b with
  | nil => rfl
  | cons sl rest ih =>
    have step := Records.clearOrder_slot_booking h c sl
    rw [List.foldl_cons, ih (by rw [step, h]), step]

theorem Records.clearOrders_order? (b : Records) (c : Clock) (l : List SlotNo) {z : SlotNo}
    (h : z ∈ l ∨ b.order? z = none) : (l.foldl (fun x o => x.clearOrder c o) b).order? z = none := by
  induction l generalizing b with
  | nil => exact h.resolve_left nofun
  | cons sl rest ih =>
    refine ih _ ?_
    by_cases e : z = sl
    · subst e; exact .inr (b.clearOrder_order? c z)
    · refine h.imp (fun hz => (List.mem_cons.mp hz).resolve_left e) fun hn => ?_
      unfold Records.order? at hn ⊢
      rwa [b.clearOrder_slot_other c e]

theorem Records.clearBooking_keeps {b : Records} {sl : SlotNo} {k : Booking} (hk : (b.slot sl).body = .booking k)
    (c : Clock) : b.Keeps (b.clearBooking c sl k) := by
  have horders : b.Keeps (k.annex.foldl (fun x o => x.clearOrder c o) b) :=
    .foldl (fun b o => b.clearOrder_keeps c o) _ _
  have hunlink := Records.unlink_framed (k.annex.foldl (fun x o => x.clearOrder c o) b) k.room sl
  refine horders.trans (hunlink.keeps.trans ⟨rfl, fun hl => Records.returnSlot_lawful hl sl, fun hs => ?_⟩)
  refine hs.returnBooking (k := k) ?_ fun z hz o ho => ?_
  · rw [hunlink.slot, Records.clearOrders_slot_booking hk, hk]
  · rw [hunlink.slot, ← Records.order?_eq_some, b.clearOrders_order? c _ (.inl hz)] at ho
    cases ho

theorem Records.clearSlot_keeps (b : Records) (c : Clock) (sl : SlotNo) : b.Keeps (b.clearSlot c sl).1 := by
  unfold Records.clearSlot
  split
  · exact .refl b
  · rename_i k hk
    exact Records.clearBooking_keeps hk c
  · rename_i o ho
    split
    · rename_i hv
      exact (b.leaveQueue_framed _ _).keeps.trans (Records.returnVoiding_keeps ho hv)
    · exact .refl b

/-- A slot visited by CLEAR_ALL holds no booking and no VOIDING order any more (R25). -/
theorem Records.clearSlot_passed (b : Records) (c : Clock) (sl : SlotNo) :
    ((b.clearSlot c sl).1.slot sl).body.Passed := by
  unfold Records.clearSlot
  split
  · rename_i hf; rw [hf]; trivial
  · rw [Records.clearBooking, Records.returnSlot_slot_same]; trivial
  · rename_i o ho
    split
    · rw [Records.returnSlot_slot_same]; trivial
    · rename_i hv; rw [ho]; exact hv

end Sys2Proof.Machine

/-! The commands and events on records, each with what it keeps of the pool's laws. -/

namespace Sys2Proof.Machine

open Sys2Proof

/-! ## Chains and views (R39, R50) -/

theorem Records.mem_chainOf {b : Records} {q : RoomNo} {x : Seen} :
    x ∈ b.chainOf q ↔ x.chainRoom = q ∧ x.slot ∈ (b.room q).chain ∧ (b.slot x.slot).body = .booking x.booking := by
  unfold Records.chainOf
  rw [List.mem_filterMap]
  constructor
  · rintro ⟨sl, hm, e⟩
    obtain ⟨k, hk, rfl⟩ := Option.map_eq_some_iff.mp e
    exact ⟨rfl, hm, Records.booking?_eq_some.mp hk⟩
  · rintro ⟨rfl, hm, hk⟩
    exact ⟨x.slot, hm, by rw [Records.booking?_eq_some.mpr hk]; rfl⟩

theorem mem_insertSeen {x y : Seen} {l : List Seen} : y ∈ insertSeen x l ↔ y = x ∨ y ∈ l := by
  induction l with
  | nil => simp [insertSeen]
  | cons z zs ih =>
    unfold insertSeen
    split
    · simp
    · simp only [List.mem_cons, ih]; exact or_left_comm

theorem Records.mem_view {b : Records} {r : RoomNo} {x : Seen} :
    x ∈ b.view r ↔ ∃ q ∈ b.viewRooms r, x ∈ b.chainOf q := by
  have merged : ∀ (l acc : List Seen), x ∈ l.foldl (fun l x => insertSeen x l) acc ↔ x ∈ l ∨ x ∈ acc := by
    intro l
    induction l with
    | nil => simp
    | cons y ys ih =>
      intro acc
      rw [List.foldl_cons, ih, mem_insertSeen, List.mem_cons, or_left_comm, or_assoc]
  unfold Records.view
  rw [merged, List.mem_flatMap]
  simp

/-- A booking of a living view is the record that its slot holds. -/
theorem Records.livingView_slot {b : Records} {now : Nat} {r : RoomNo} {x : Seen} (h : x ∈ b.livingView now r) :
    (b.slot x.slot).body = .booking x.booking := by
  obtain ⟨q, -, hx⟩ := Records.mem_view.mp (List.mem_filter.mp h).1
  exact (Records.mem_chainOf.mp hx).2.2

theorem Records.arrivingIn_some {b : Records} {now : Nat} {r : RoomNo} {x : Seen} (h : b.arrivingIn now r = some x) :
    (b.slot x.slot).body = .booking x.booking := Records.livingView_slot (List.mem_of_find?_eq_some h)

theorem Records.inUseIn_some {b : Records} {now : Nat} {r : RoomNo} {x : Seen} (h : b.inUseIn now r = some x) :
    (b.slot x.slot).body = .booking x.booking := Records.livingView_slot (List.mem_of_find?_eq_some h)

theorem Records.releasableIn_some {b : Records} {now : Nat} {r : RoomNo} {x : Seen}
    (h : b.releasableIn now r = some x) : (b.slot x.slot).body = .booking x.booking := by
  unfold Records.releasableIn at h
  split at h
  · rename_i y hy; cases h; exact Records.inUseIn_some hy
  · exact Records.livingView_slot (List.mem_of_find?_eq_some h)

/-! ## The panel requests (R80 to R86) -/

theorem Records.checkInAt_keeps {b : Records} {x : Seen} (hx : (b.slot x.slot).body = .booking x.booking) (now : Nat) :
    b.Keeps (b.checkInAt now x) := by
  refine (Records.setBooking_keeps (k' := x.booking.checkIn now) hx rfl (fun _ => rfl) fun hs => ?_).trans
    (Records.markShowing_framed _ _).keeps
  unfold Booking.checkIn at hs
  dsimp only at hs
  split at hs
  · cases hs
  · exact hs

theorem Records.panelCheckIn_keeps (b : Records) (c : Clock) (r : RoomNo) : b.KeepsOutside (b.panelCheckIn c r).1 := by
  unfold Records.panelCheckIn
  split
  · rename_i x hx
    split
    · exact .refl b
    · exact (Records.checkInAt_keeps (Records.arrivingIn_some hx) _).outside
  · split <;> exact .refl b

theorem Records.motionCheckIn_keeps (b : Records) (now : Nat) (r : RoomNo) : b.Keeps (b.motionCheckIn now r) := by
  unfold Records.motionCheckIn
  split
  · rename_i x hx
    split
    · exact Records.checkInAt_keeps (Records.arrivingIn_some hx) _
    · exact .refl b
  · exact .refl b

theorem Records.extendBooking_keeps {b : Records} {sl : SlotNo} {k : Booking} (hk : (b.slot sl).body = .booking k)
    (c : Clock) (q : RoomNo) : b.Keeps (b.extendBooking c q sl k).1 := by
  unfold Records.extendBooking
  split
  · split
    · exact .refl b
    · split
      · exact .refl b
      · refine (Records.setBooking_keeps hk ?_ ?_ ?_).trans
          ((Records.markShowing_framed _ _).trans (Records.raise_framed _ _)).keeps
        · rfl
        · exact fun _ => rfl
        · exact id
  · exact .refl b

theorem Records.panelExtend_keeps (b : Records) (c : Clock) (r : RoomNo) : b.KeepsOutside (b.panelExtend c r).1 := by
  unfold Records.panelExtend
  split
  · exact .refl b
  · rename_i x _
    split
    · exact .refl b
    · have hup := b.bringUpAll_keeps c (b.restOfSet x.chainRoom r)
      dsimp only
      split
      · rename_i k hk
        split
        · exact hup.trans (Records.extendBooking_keeps (Records.booking?_eq_some.mp hk) c _).outside
        · exact hup
      · exact hup

theorem Records.panelRelease_keeps (b : Records) (c : Clock) (r : RoomNo) : b.KeepsOutside (b.panelRelease c r).1 := by
  unfold Records.panelRelease
  split
  · exact .refl b
  · rename_i x hx
    split
    · exact .refl b
    · exact Records.retire_keeps (Records.releasableIn_some hx) rfl c .doorRelease

theorem Records.panelWalkUp_keeps (b : Records) (c : Clock) (r : RoomNo) : b.KeepsOutside (b.panelWalkUp c r).1 := by
  have hread := b.readTurnarounds_framed c.minute r
  unfold Records.panelWalkUp
  split
  · exact .refl b
  · dsimp only
    split
    · exact .refl b
    · split
      · exact hread.outside
      · split
        · exact hread.outside
        · rename_i hadd
          exact (hread.keeps.trans ((Records.addBooking_keeps hadd rfl).trans (Records.raise_framed _ _).keeps)).outside

theorem Records.panelRequest_keeps {b : Records} {act : Records → Records × PanelResult}
    (hact : ∀ b : Records, b.KeepsOutside (act b).1) (c : Clock) (r : RoomNo) : b.Keeps (b.panelRequest c r act).1 := by
  unfold Records.panelRequest
  split
  · rename_i hready
    have hc : ¬ b.Clearing := by
      rintro ⟨n, x, y, e⟩
      rw [(Pool.isReady_iff _).mp hready] at e; cases e
    split
    · exact .refl b
    · split
      · exact ((b.bringUpSet_keeps c r).trans (hact _)).keeps hc
      · exact .refl b
  · exact .refl b

theorem Records.closeStep_keeps (b : Records) (c : Clock) (r : RoomNo) : b.KeepsOutside (b.closeStep c r) := by
  have hup := b.bringUp_keeps c r
  unfold Records.closeStep
  dsimp only
  split
  · exact hup.trans (Records.keepsOutside_of_pool rfl rfl)
  · split
    · rename_i k hk
      exact hup.trans (Records.retire_keeps (Records.booking?_eq_some.mp hk) rfl c _)
    · exact hup

/-! ## The pool's settings (R22, R27, R29, R30) -/

/-- Floor, horizon, count and armed flag are no part of the laws of the free list and of the orders. -/
theorem Records.Sound.withPool {b : Records} {out : Option SlotNo} (h : b.Sound out) {p : Pool}
    (hstate : p.state = b.pool.state) (hslots : p.slots = b.pool.slots) (hlist : p.freeList = b.pool.freeList) :
    ({ b with pool := p } : Records).Sound out := by
  obtain ⟨state, slots, freeList, freeCount, floor, lowArmed, horizon⟩ := p
  cases hstate; cases hslots; cases hlist
  exact ⟨h.free, h.orders.transport (fun _ => rfl) (fun _ _ => .refl _)
    (fun _ _ _ k _ _ _ hk hm => ⟨k, hk, hm, rfl⟩) h.orders.held, h.behind⟩

theorem Records.judgeFloor_sound {b : Records} {out : Option SlotNo} (h : b.Sound out) : b.judgeFloor.Sound out := by
  unfold Records.judgeFloor
  dsimp only
  split
  · exact (Records.raise_framed _ _).sound (h.withPool rfl rfl rfl)
  · split
    · exact h.withPool rfl rfl rfl
    · exact h

/-- The low notice judged against a floor of 0 to 4,095 is lawful, whatever it was against the floor before (R20,
R30). -/
theorem Records.judgeFloor_lawful {b : Records} (hfloor : b.pool.floor ≤ 4095) (hlo : 1 ≤ b.pool.horizon)
    (hhi : b.pool.horizon ≤ 120) (hcount : b.pool.state ≠ .initializing → b.pool.freeCount = b.pool.freeList.length) :
    b.judgeFloor.pool.Lawful := by
  unfold Records.judgeFloor
  dsimp only
  split
  · exact ⟨hfloor, hlo, hhi, hcount, nofun⟩
  · rename_i hraise
    split
    · rename_i harm
      refine ⟨hfloor, hlo, hhi, hcount, fun _ _ => ?_⟩
      have := of_decide_eq_true (Bool.and_eq_true_iff.mp harm).2
      change b.pool.floor < b.pool.freeCount
      omega
    · refine ⟨hfloor, hlo, hhi, hcount, fun hs ha => ?_⟩
      by_contra hle
      exact hraise (by simp [hs, ha]; omega)

theorem Pool.relinked_lawful {p : Pool} (h : p.Lawful) : p.relinked.Lawful := by
  obtain ⟨hfloor, hlo, hhi, -, -⟩ := h
  refine ⟨hfloor, hlo, hhi, fun _ => (slotsFrom_length _ _).symm, fun _ _ => ?_⟩
  change p.floor < 32768
  omega

/-- Records whose pool has been linked anew over FREE slots keep the laws of the orders. -/
theorem Records.Sound.relink {b : Records} (h : b.Sound none) (hfree : ∀ sl : SlotNo, (b.slot sl).body = .free)
    {b' : Records} {armed : Bool} (hp : b'.pool = { b.pool.relinked with lowArmed := armed })
    (hw : ∀ q : KitchenNo, (b'.kitchen q).waitlist = (b.kitchen q).waitlist) : b'.Sound none := by
  have hslot : ∀ sl, b'.slot sl = b.slot sl := fun sl => by simp only [Records.slot, hp]; rfl
  refine ⟨hp ▸ b.pool.relinked_freeLawful hfree, h.orders.transport hw (fun z _ => ?_)
    (fun z owner o k _ _ _ hk hm => ⟨k, by rw [hslot, hk], hm, rfl⟩) (fun sl k hk => ?_), fun n x y hc => ?_⟩
  · rw [hslot]; exact .refl _
  · rw [hslot] at hk; exact h.orders.held sl k hk
  · rw [hp] at hc; cases hc

/-! ## The commands on rooms (R33 to R37, R43, R44) -/

theorem Records.mapMemberships_pool (b : Records) (ms : List RoomNo) (f : List RoomNo → List RoomNo) :
    (b.mapMemberships ms f).pool = b.pool ∧ (b.mapMemberships ms f).kitchens = b.kitchens := by
  unfold Records.mapMemberships
  induction ms generalizing b with
  | nil => exact ⟨rfl, rfl⟩
  | cons m ms ih => exact ih _

theorem Records.withAttrs_pool (b : Records) (r : RoomNo) (a : RoomAttrs) :
    (b.withAttrs r a).pool = b.pool ∧ (b.withAttrs r a).kitchens = b.kitchens := by
  unfold Records.withAttrs
  dsimp only
  simp only [Records.setRoom_pool, Records.setRoom_kitchens, Records.mapMemberships_pool, and_self]

theorem Records.writeRoom_keeps (b : Records) (r : RoomNo) (a : RoomAttrs) : b.KeepsOutside (b.writeRoom r a) :=
  Records.keepsOutside_of_pool (b.withAttrs_pool r a).1 (b.withAttrs_pool r a).2

theorem Records.removeRoom_keeps (b : Records) (r : RoomNo) : b.KeepsOutside (b.removeRoom r) :=
  Records.keepsOutside_of_pool (b.withAttrs_pool r _).1 (b.withAttrs_pool r _).2

theorem Records.setService_keeps (b : Records) (r : RoomNo) (st : Service) : b.KeepsOutside (b.setService r st) := by
  unfold Records.setService
  split
  · exact .refl b
  · exact Records.keepsOutside_of_pool rfl rfl

/-! ## The acts of the server commands -/

theorem State.gated_keeps {s : State} {k : State × Answer} (h : s.recs.KeepsOutside k.1.recs) :
    s.recs.KeepsOutside (s.gated k).1.recs := by
  unfold State.gated
  split
  · split
    · exact .refl _
    · exact h
  · exact .refl _

/-- A table of checks passes when each of its checks does. -/
theorem firstRefusal_eq_none {l : List (Bool × Status)} : firstRefusal l = none ↔ ∀ p ∈ l, p.1 = true := by
  induction l with
  | nil => simp
  | cons p l ih =>
    obtain ⟨passes, st⟩ := p
    cases passes <;> simp [ih]

section Acts

variable (s : State)

theorem State.setReserve_keeps (floor : Nat) : s.recs.KeepsOutside (s.setReserve floor).1.recs := by
  unfold State.setReserve
  split
  · exact .refl _
  · rename_i hfloor
    refine ⟨?_, fun ⟨_, hlo, hhi, hcount, _⟩ => Records.judgeFloor_lawful (by simpa using hfloor) hlo hhi hcount,
      fun _ hs => Records.judgeFloor_sound (hs.withPool rfl rfl rfl)⟩
    simp only [State.withRecs_recs, Records.judgeFloor]
    split
    · rfl
    · split <;> rfl

theorem State.setHorizon_keeps (days : Nat) : s.recs.KeepsOutside (s.setHorizon days).1.recs := by
  unfold State.setHorizon
  split
  · rename_i hdays
    exact ⟨rfl, fun ⟨hfloor, _, _, hcount, harmed⟩ => ⟨hfloor, hdays.1, hdays.2, hcount, harmed⟩,
      fun _ hs => hs.withPool rfl rfl rfl⟩
  · exact .refl _

theorem State.writeRoom_keeps (a : WriteRoomArgs) : s.recs.KeepsOutside (s.writeRoom a).1.recs := by
  unfold State.writeRoom
  split
  · exact .refl _
  · exact s.recs.writeRoom_keeps _ _

theorem State.writeRoomRemove_keeps (room : Nat) : s.recs.KeepsOutside (s.writeRoomRemove room).1.recs := by
  unfold State.writeRoomRemove
  split
  · exact .refl _
  · dsimp only
    split
    · exact .refl _
    · split
      · exact .refl _
      · split
        · exact .refl _
        · exact s.recs.removeRoom_keeps _

theorem State.readRoom_keeps (room : Nat) : s.recs.KeepsOutside (s.readRoom room).1.recs := by
  unfold State.readRoom
  split
  · exact .refl _
  · exact (s.recs.clearTurnaround_framed _ _).outside

theorem State.setRoomService_keeps (inService : Bool) (room : Nat) :
    s.recs.KeepsOutside (s.setRoomService inService room).1.recs := by
  unfold State.setRoomService
  split
  · exact .refl _
  · exact s.recs.setService_keeps _ _

theorem State.closeAndCancel_keeps (room : Nat) : s.recs.KeepsOutside (s.closeAndCancel room).1.recs := by
  unfold State.closeAndCancel
  split
  · exact .refl _
  · split
    · exact .refl _
    · exact s.recs.setService_keeps _ _

theorem State.makeBooking_keeps {k : Booking} (hk : k.annex = []) : s.recs.KeepsOutside (s.makeBooking k).1.recs := by
  have hread := (s.recs.bringUpSet_keeps s.clk k.room).trans
    (Records.readTurnarounds_framed _ s.clk.minute k.room).outside
  unfold State.makeBooking
  dsimp only
  split
  · exact hread
  · split
    · exact hread
    · rename_i hadd
      exact hread.trans ((Records.addBooking_keeps hadd hk).outside.trans (Records.updateBooking_keeps _ _ _))

theorem State.bookOrHold_keeps (a : BookArgs) (holdTime : Option Nat) :
    s.recs.KeepsOutside (s.bookOrHold a holdTime).1.recs := by
  refine State.gated_keeps ?_
  split
  · exact .refl _
  · rename_i k hj
    refine s.makeBooking_keeps ?_
    unfold State.judgeBook at hj
    split at hj
    · cases hj
    · split at hj <;> cases hj
      rfl

theorem State.confirm_keeps (h : Handle) (cls : Option Nat) : s.recs.KeepsOutside (s.confirm h cls).1.recs := by
  refine State.gated_keeps ?_
  split
  · rename_i hn; exact Records.nameBooking_keeps hn
  · rename_i b sl k hn
    have hname := Records.nameBooking_keeps hn
    obtain ⟨-, hk, -⟩ := Records.nameBooking_ok hn
    split
    · exact hname
    · rename_i hpass
      have hheld := of_decide_eq_true (firstRefusal_eq_none.mp hpass (decide (k.state = .held), .wrongState) (by simp))
      exact hname.trans (Records.confirm_keeps hk hheld _ _)

theorem State.amendTo_keeps {b : Records} {sl : SlotNo} {k k' : Booking} (hk : (b.slot sl).body = .booking k)
    (hannex : k'.annex = k.annex) (hcls : k'.cls = k.cls) (hstate : k'.state = k.state) :
    b.KeepsOutside (s.amendTo b sl k k').1.recs := by
  have hread : b.Framed (if k'.start ≠ k.start then b.readTurnarounds s.clk.minute k.room else b) := by
    split
    · exact b.readTurnarounds_framed _ _
    · exact .refl b
  unfold State.amendTo
  dsimp only
  generalize (if k'.start ≠ k.start then _ else b : Records) = b₁ at hread ⊢
  generalize (if k'.start ≠ k.start ∨ k'.stop ≠ k.stop then _ else _ : Option Obstacle) = found
  cases found with
  | some o => exact hread.outside
  | none => exact hread.outside.trans (Records.applyAmend_keeps (by rw [hread.slot, hk]) hannex hcls hstate _)

theorem State.amend_keeps (a : AmendArgs) : s.recs.KeepsOutside (s.amend a).1.recs := by
  refine State.gated_keeps ?_
  split
  · rename_i hn; exact Records.nameBooking_keeps hn
  · rename_i b sl k hn
    have hname := Records.nameBooking_keeps hn
    obtain ⟨-, hk, -⟩ := Records.nameBooking_ok hn
    split
    · exact hname
    · exact hname.trans (s.amendTo_keeps hk rfl rfl rfl)

theorem State.cancel_keeps (h : Handle) : s.recs.KeepsOutside (s.cancel h).1.recs := by
  refine State.gated_keeps ?_
  split
  · rename_i hn; exact Records.nameBooking_keeps hn
  · rename_i b sl k hn
    obtain ⟨-, hk, -⟩ := Records.nameBooking_ok hn
    exact (Records.nameBooking_keeps hn).trans (Records.retire_keeps hk rfl s.clk .cancelled)

theorem State.readBooking_keeps (h : Handle) : s.recs.KeepsOutside (s.readBooking h).1.recs := by
  unfold State.readBooking
  split
  · split
    · exact .refl _
    · split
      · exact .refl _
      · split <;> exact .refl _
  · exact .refl _

theorem State.lookupAt_keeps (room minute : Nat) : s.recs.KeepsOutside (s.lookupAt room minute).1.recs := by
  unfold State.lookupAt
  split
  · split
    · exact .refl _
    · split <;> exact .refl _
  · exact .refl _

theorem State.listRoom_keeps (room count : Nat) (after : Option Nat) :
    s.recs.KeepsOutside (s.listRoom room count after).1.recs := by
  unfold State.listRoom
  split
  · split
    · exact .refl _
    · split <;> exact .refl _
  · exact .refl _

theorem State.writeBanks_keeps (kitchen : Nat) (banks : Vector Nat 8) :
    s.recs.KeepsOutside (s.writeBanks kitchen banks).1.recs := by
  unfold State.writeBanks
  split
  · exact .refl _
  · split
    · exact (s.recs.changeKitchen_framed _ (by rfl)).outside
    · exact .refl _

theorem State.writeKitchen_keeps (kitchen opens closes fallback : Nat) :
    s.recs.KeepsOutside (s.writeKitchen kitchen opens closes fallback).1.recs := by
  unfold State.writeKitchen
  split
  · exact .refl _
  · split
    · exact .refl _
    · split
      · exact (s.recs.reformLevel_framed _ (by rfl)).outside
      · exact .refl _

theorem State.setStaffing_keeps (kitchen : Nat) (level : Option Nat) :
    s.recs.KeepsOutside (s.setStaffing kitchen level).1.recs := by
  unfold State.setStaffing
  split
  · exact .refl _
  · split
    · exact .refl _
    · exact (s.recs.reformLevel_framed _ (by rfl)).outside

theorem State.readKitchen_keeps (kitchen : Nat) : s.recs.KeepsOutside (s.readKitchen kitchen).1.recs := by
  unfold State.readKitchen; split <;> exact .refl _

theorem State.readWindow_keeps (kitchen window : Nat) : s.recs.KeepsOutside (s.readWindow kitchen window).1.recs := by
  unfold State.readWindow
  split
  · exact .refl _
  · split
    · exact (s.recs.setKitchen_framed (by rfl)).outside
    · exact .refl _

/-- The order that passes the checks of R129 is owned by the booking named, which is not HELD. -/
theorem State.judgeOrder_ok {s : State} {b : Records} {h : Handle} {k : Booking} {menuClass heads delivery : Nat}
    {o : Order} {x : Load} (hj : s.judgeOrder b h k menuClass heads delivery = .ok (o, x)) :
    k.state ≠ .held ∧ o.owner = some h := by
  unfold State.judgeOrder at hj
  split at hj
  · cases hj
  · rename_i hheld
    split at hj
    · cases hj
    · cases hj
    · split at hj
      · cases hj
      · split at hj
        · cases hj
        · dsimp only at hj
          split at hj <;> cases hj
          exact ⟨hheld, rfl⟩

theorem State.order_keeps (h : Handle) (menuClass heads delivery : Nat) :
    s.recs.KeepsOutside (s.order h menuClass heads delivery).1.recs := by
  refine State.gated_keeps ?_
  split
  · rename_i hn; exact Records.nameBooking_keeps hn
  · rename_i b owner k hn
    have hname := Records.nameBooking_keeps hn
    obtain ⟨hslot, hk, -⟩ := Records.nameBooking_ok hn
    split
    · exact hname
    · rename_i o x hj
      obtain ⟨hheld, howner⟩ := State.judgeOrder_ok hj
      split
      · exact hname
      · rename_i hcreate
        exact hname.trans (Records.createOrder_keeps hcreate hk hheld howner hslot).outside

theorem State.amendOrder_keeps (a : AmendOrderArgs) : s.recs.KeepsOutside (s.amendOrder a).1.recs := by
  refine State.gated_keeps ?_
  split
  · rename_i hn; exact Records.nameOrder_keeps hn
  · rename_i b sl o hn
    have hname := Records.nameOrder_keeps hn
    obtain ⟨-, ho, -⟩ := Records.nameOrder_ok hn
    split
    · exact hname
    · split
      · exact hname
      · rename_i o' x clamped hj
        obtain ⟨howner, hstate, hkitchen, hwait⟩ := State.judgeAmendOrder_frame hj
        split
        · exact hname
        · rename_i hto
          exact hname.trans (Records.amendOrderTo_keeps hto ho howner hstate hkitchen hwait).outside

theorem State.cancelOrder_keeps (h : Handle) : s.recs.KeepsOutside (s.cancelOrder h).1.recs := by
  refine State.gated_keeps ?_
  split
  · rename_i hn; exact Records.nameOrder_keeps hn
  · rename_i b sl o hn
    obtain ⟨-, ho, -⟩ := Records.nameOrder_ok hn
    exact (Records.nameOrder_keeps hn).trans (Records.cancelled_keeps ho _)

theorem State.readOrder_keeps (h : Handle) : s.recs.KeepsOutside (s.readOrder h).1.recs := by
  unfold State.readOrder
  split
  · split
    · exact .refl _
    · split <;> exact .refl _
  · exact .refl _

theorem State.enterLine_keeps (l : LineNo) (run : Bool) : s.recs.Keeps (s.enterLine l run).recs := by
  unfold State.enterLine
  dsimp only
  split
  · exact .refl _
  · exact .refl _
  · exact (s.recs.setLine_framed _ _).keeps
  · exact (s.recs.clearLine_keeps s.clk l).trans (Records.setLine_framed _ _ _).keeps

theorem State.setLineTo_keeps (line state timeout refresh : Nat) :
    s.recs.KeepsOutside (s.setLineTo line state timeout refresh).1.recs := by
  unfold State.setLineTo
  split
  · exact .refl _
  · split
    · exact ((s.recs.setLine_framed _ _).keeps.trans ((s.setLine _ _).enterLine_keeps _ _)).outside
    · exact .refl _

theorem State.restartLine_keeps (line : Nat) : s.recs.KeepsOutside (s.restartLine line).1.recs := by
  unfold State.restartLine
  split
  · exact .refl _
  · exact ((s.recs.clearLine_keeps s.clk _).trans (Records.setLine_framed _ _ _).keeps).outside

theorem State.writeNode_keeps (line node kind target : Nat) :
    s.recs.KeepsOutside (s.writeNode line node kind target).1.recs := by
  unfold State.writeNode
  split
  · exact .refl _
  · split
    · exact .refl _
    · exact (s.recs.writeNode_framed _ _ _ _).outside

theorem State.readNode_keeps (line node : Nat) : s.recs.KeepsOutside (s.readNode line node).1.recs := by
  unfold State.readNode; split <;> exact .refl _

theorem State.readNotices_keeps (indicator number : Nat) :
    s.recs.KeepsOutside (s.readNotices indicator number).1.recs := by
  unfold State.readNotices
  split
  · exact .refl _
  · exact Records.keepsOutside_of_pool rfl rfl

theorem State.setNoticeMask_keeps (masks : Vector Byte 18) : s.recs.KeepsOutside (s.setNoticeMask masks).1.recs := by
  unfold State.setNoticeMask
  split
  · exact Records.keepsOutside_of_pool rfl rfl
  · exact .refl _

end Acts

end Sys2Proof.Machine

/-! The laws of the pool through every step (R14 to R17, R20, R25, R27, R115, R127). -/

namespace Sys2Proof.Machine

open Sys2Proof

/-! ## The laws of a state -/

/-- A scan, and CLEARING, hold the port EXECUTING with their command; in CLEARING no minute walk is in flight (R24,
R96, R179). -/
def State.Guarded (s : State) : Prop :=
  (s.scan ≠ none → ∃ (tag : Byte) (a : FindArgs), s.port.state = .executing (.findRooms tag a) true) ∧
  (s.recs.Clearing → (∃ tag : Byte, s.port.state = .executing (.clearAll tag) true) ∧ s.walk.next = none)

theorem State.clearingLawful_iff (s : State) : s.ClearingLawful ↔ s.Guarded ∧ s.recs.ClearedBehind := by
  constructor
  · rintro ⟨hscan, hclear⟩
    refine ⟨⟨hscan, fun ⟨n, x, y, hc⟩ => ?_⟩, fun n x y hc => ?_⟩
    · obtain ⟨hport, hwalk, -, -⟩ := hclear n x y hc
      exact ⟨hport, hwalk⟩
    · obtain ⟨-, -, hservice, hpassed⟩ := hclear n x y hc
      refine ⟨hservice, fun sl hsl => ?_⟩
      have hp := hpassed sl hsl
      unfold SlotBody.Passed
      cases hb : (s.recs.slot sl).body <;> rw [hb] at hp <;> exact hp
  · rintro ⟨⟨hscan, hguard⟩, hbehind⟩
    refine ⟨hscan, fun n x y hc => ?_⟩
    obtain ⟨hport, hwalk⟩ := hguard ⟨n, x, y, hc⟩
    obtain ⟨hservice, hpassed⟩ := hbehind n x y hc
    refine ⟨hport, hwalk, hservice, fun sl hsl => ?_⟩
    have hp := hpassed sl hsl
    unfold SlotBody.Passed at hp
    cases hb : (s.recs.slot sl).body <;> rw [hb] at hp <;> exact hp

/-- From `s` to `t` the laws of the pool are kept. -/
structure State.PoolStep (s t : State) : Prop where
  count : s.recs.pool.Lawful → t.recs.pool.Lawful
  sound : s.recs.Sound none → s.Guarded → t.recs.Sound none ∧ t.Guarded

namespace State.PoolStep

variable {s t : State}

theorem refl (s : State) : s.PoolStep s := ⟨id, fun hs hg => ⟨hs, hg⟩⟩

/-- An event that leaves port state, minute walk and scan as they are. -/
theorem of_keeps (h : s.recs.Keeps t.recs) (hport : t.port.state = s.port.state) (hwalk : t.walk = s.walk)
    (hscan : t.scan = s.scan) : s.PoolStep t := by
  refine ⟨h.count, fun hs hg => ⟨h.sound hs, ?_⟩⟩
  have hc : t.recs.Clearing ↔ s.recs.Clearing := by unfold Records.Clearing; rw [h.state]
  unfold State.Guarded
  rwa [hport, hwalk, hscan, hc]

/-- An event of the records outside CLEARING, which the guard of the state excludes it from. -/
theorem of_outside (h : s.recs.KeepsOutside t.recs) (hc : s.recs.Sound none → s.Guarded → ¬ s.recs.Clearing)
    (hport : t.port.state = s.port.state) (hscan : t.scan = s.scan) : s.PoolStep t := by
  refine ⟨h.count, fun hs hg => ?_⟩
  have hc := hc hs hg
  refine ⟨h.sound hc hs, ?_, fun hc' => absurd (h.clearing.mp hc') hc⟩
  rw [hscan, hport]; exact hg.1

end State.PoolStep

/-! ## Server commands -/

/-- What a server command can do: discarded on a port that does not take it, answered, or left EXECUTING. -/
theorem State.serve_cases {s t : State} {cmd : Instr} {act : State → State × Answer} (h : s.serve cmd act = .next t) :
    t = { s with port := { s.port with overrun := true } } ∨
    (s.port.takes cmd = true ∧
      ((∃ c tag st p, t = (act s).1.respond c tag st p) ∨
        ((act s).2 = .later ∧
          t = { (act s).1 with port := { (act s).1.port with state := .executing cmd true } }))) := by
  unfold State.serve at h
  split at h
  · rename_i htakes
    refine .inr ⟨htakes, ?_⟩
    split at h <;> rename_i ha <;> cases h <;> rw [ha]
    · exact .inl ⟨_, _, _, _, rfl⟩
    · exact .inr ⟨rfl, rfl⟩
  · cases h; exact .inl rfl

/-- A port that takes a command has neither a scan nor CLEAR_ALL in flight. -/
theorem State.Guarded.taken {s : State} (h : s.Guarded) {cmd : Instr} (ht : s.port.takes cmd = true) :
    s.scan = none ∧ ¬ s.recs.Clearing := by
  have hport : ∀ c, s.port.state ≠ .executing c true := fun c e => by
    simp [Port.takes, e] at ht
  refine ⟨by_contra fun hn => ?_, fun hc => ?_⟩
  · obtain ⟨tag, a, e⟩ := h.1 hn; exact hport _ e
  · obtain ⟨⟨tag, e⟩, -⟩ := h.2 hc; exact hport _ e

/-- A server command whose owner keeps the laws outside CLEARING and begins no scan. -/
theorem State.serve_poolStep {s t : State} {cmd : Instr} {act : State → State × Answer}
    (hk : s.recs.KeepsOutside (act s).1.recs) (hscan : (act s).1.scan = s.scan) (h : s.serve cmd act = .next t) :
    s.PoolStep t := by
  rcases State.serve_cases h with rfl | ⟨htakes, hcases⟩
  · exact .of_keeps (.refl _) rfl rfl rfl
  · obtain ⟨hrecs, hscan'⟩ : t.recs = (act s).1.recs ∧ t.scan = (act s).1.scan := by
      rcases hcases with ⟨_, _, _, _, rfl⟩ | ⟨-, rfl⟩ <;> exact ⟨rfl, rfl⟩
    refine ⟨fun hl => hrecs ▸ hk.count hl, fun hs hg => ?_⟩
    obtain ⟨hnone, hc⟩ := hg.taken htakes
    refine ⟨hrecs ▸ hk.sound hc hs, fun hn => ?_, fun hc' => ?_⟩
    · exact absurd (hscan'.trans (hscan.trans hnone)) hn
    · exact absurd (hk.clearing.mp (hrecs ▸ hc')) hc

/-- A server command whose owner changes the records alone. -/
theorem State.serve_recsOnly_poolStep {s t : State} {cmd : Instr} {act : State → State × Answer}
    (honly : s.RecsOnly (act s).1) (hk : s.recs.KeepsOutside (act s).1.recs) (h : s.serve cmd act = .next t) :
    s.PoolStep t :=
  State.serve_poolStep hk (by rw [honly]; rfl) h

theorem State.setClock_recs (s : State) (v : Nat) :
    s.recs.Framed (s.setClock v).1.recs ∧ (s.setClock v).1.scan = s.scan := by
  have hend : ∀ b : Records, b.Framed (b.clockEnd v) := fun b => by
    unfold Records.clockEnd
    split
    · exact .refl b
    · exact b.raise_framed _
  have hself : s.recs.Framed s.recs ∧ s.scan = s.scan := ⟨.refl _, rfl⟩
  unfold State.setClock
  dsimp only
  split
  · exact hself
  · split
    · exact ⟨s.recs.markAllPanels_framed.trans (hend _), rfl⟩
    · split
      · exact hself
      · split
        · exact hself
        · exact ⟨hend _, rfl⟩
    · split <;> exact hself

theorem State.findRooms_cases (s : State) (a : FindArgs) :
    (s.findRooms a).1.recs = s.recs ∧ ((s.findRooms a).1 = s ∨ (s.findRooms a).2 = .later) := by
  unfold State.findRooms State.gated
  split
  · split
    · exact ⟨rfl, .inl rfl⟩
    · split
      · exact ⟨rfl, .inl rfl⟩
      · exact ⟨rfl, .inr rfl⟩
  · exact ⟨rfl, .inl rfl⟩

theorem execFindRooms_poolStep {s t : State} {tag : Byte} {a : FindArgs} (h : execFindRooms tag a s = .next t) :
    s.PoolStep t := by
  obtain ⟨hrecs, hact⟩ := s.findRooms_cases a
  rcases hact with hself | hlater
  · exact State.serve_poolStep (act := State.findRooms a) (by rw [hself]; exact .refl _) (by rw [hself]) h
  · rcases State.serve_cases h with rfl | ⟨htakes, hcases⟩
    · exact .of_keeps (.refl _) rfl rfl rfl
    · have ht : t.recs = s.recs ∧ t.port.state = .executing (.findRooms tag a) true := by
        unfold execFindRooms State.serve at h
        rw [if_pos htakes] at h
        split at h <;> rename_i ha <;> rw [ha] at hlater hrecs <;> cases hlater
        cases h; exact ⟨hrecs, rfl⟩
      refine ⟨fun hl => ht.1 ▸ hl, fun hs hg => ⟨ht.1 ▸ hs, fun _ => ⟨tag, a, ht.2⟩, fun hc => ?_⟩⟩
      exact absurd (ht.1 ▸ hc) (hg.taken htakes).2

/-! ## CLEAR_ALL and initialization -/

/-- What CLEAR_ALL does at once keeps the laws (R24). -/
theorem Records.beginClear_sound {b : Records} (h : b.Sound none) (hr : b.pool.state = .ready) :
    b.beginClear.Sound none := by
  have hready : b.pool.state ≠ .initializing := by rw [hr]; nofun
  refine ⟨⟨nofun, fun _ => h.free.2 hready⟩, h.orders.transport (fun q => ?_) (fun _ _ => .refl _)
    (fun _ _ _ k _ _ _ hk hm => ⟨k, hk, hm, rfl⟩) h.orders.held, fun n x y hc => ⟨fun r => ?_, fun sl hsl => ?_⟩⟩
  · simp [Records.beginClear, Records.kitchen, Records.markAllPanels, Kitchen.passEnded]
  · simp only [Records.beginClear, Records.room, Records.markAllPanels_rooms, Vector.getElem_map, Room.cleared]
    split
    · nofun
    · assumption
  · cases hc; exact absurd hsl (Nat.not_lt_zero _)

theorem execClearAll_poolStep {s t : State} {tag : Byte} (h : execClearAll tag s = .next t) : s.PoolStep t := by
  by_cases hr : s.recs.pool.state = .ready
  · have hact : s.clearAll =
        ({ s with recs := s.recs.beginClear, walk := { next := none, rewalk := false } }, .later) := by
      simp [State.clearAll, hr]
    unfold execClearAll State.serve at h
    rw [hact] at h
    split at h
    · rename_i htakes
      cases h
      refine ⟨fun ⟨hfloor, hlo, hhi, hcount, _⟩ => ⟨hfloor, hlo, hhi, fun _ => hcount (by rw [hr]; nofun), nofun⟩,
        fun hs hg => ⟨Records.beginClear_sound hs hr, ?_, fun _ => ⟨⟨tag, rfl⟩, rfl⟩⟩⟩
      exact fun hn => absurd (hg.taken htakes).1 hn
    · cases h; exact .of_keeps (.refl _) rfl rfl rfl
  · have hact : s.clearAll = (s, .now .notReady []) := by simp [State.clearAll, refuse, hr]
    exact State.serve_poolStep (act := State.clearAll) (by rw [hact]; exact .refl _) (by rw [hact]) h

theorem execPoolInitComplete_poolStep {s t : State} (h : execPoolInitComplete s = .next t) : s.PoolStep t := by
  unfold execPoolInitComplete at h
  split at h <;> cases h
  · rename_i hi
    have hi := (Pool.isInitializing_iff _).mp hi
    refine ⟨fun hl => Pool.relinked_lawful hl, fun hs hg => ⟨?_, hg.1, fun ⟨n, x, y, hc⟩ => nomatch hc⟩⟩
    exact hs.relink (armed := s.recs.pool.lowArmed) (hs.free.1 hi) rfl fun _ => rfl
  · exact .refl s

/-- The place of the visits moved on by one over a slot that holds nothing they return (R25). -/
theorem Records.clearingAt_sound {b : Records} (h : b.Sound none) {sl : SlotNo} {x y : Nat}
    (hc : b.pool.state = .clearing sl.val x y) (hsl : (b.slot sl).body.Passed) (x' y' : Nat) :
    (b.clearingAt (sl.val + 1) x' y').Sound none := by
  have hready : b.pool.state ≠ .initializing := by rw [hc]; nofun
  obtain ⟨hservice, hpassed⟩ := h.behind _ _ _ hc
  refine ⟨⟨nofun, fun _ => h.free.2 hready⟩, h.orders.transport (fun _ => rfl) (fun _ _ => .refl _)
    (fun _ _ _ k _ _ _ hk hm => ⟨k, hk, hm, rfl⟩) h.orders.held, fun n x₁ y₁ hn => ⟨hservice, fun z hz => ?_⟩⟩
  cases hn
  by_cases e : z = sl
  · subst e; exact hsl
  · exact hpassed z (by have := mt Fin.ext e; omega)

theorem slotNo?_some {n : Nat} {sl : SlotNo} (h : slotNo? n = some sl) : n = sl.val := by
  unfold slotNo? at h
  split at h <;> cases h
  rfl

theorem execClearSlotVisit_poolStep {s t : State} (h : execClearSlotVisit s = .next t) : s.PoolStep t := by
  unfold execClearSlotVisit at h
  split at h
  · cases h; exact .refl s
  · cases h; exact .refl s
  · rename_i n x y hc
    split at h <;> cases h
    · exact .refl s
    · rename_i sl hn
      obtain rfl := slotNo?_some hn
      have hkeeps := s.recs.clearSlot_keeps s.clk sl
      have hc' := hkeeps.state.trans hc
      refine ⟨fun hl => ?_, fun hs hg => ⟨?_, hg.1, fun _ => hg.2 ⟨_, _, _, hc⟩⟩⟩
      · obtain ⟨hfloor, hlo, hhi, hcount, -⟩ := hkeeps.count hl
        exact ⟨hfloor, hlo, hhi, fun _ => hcount (by rw [hc']; nofun), nofun⟩
      · exact Records.clearingAt_sound (hkeeps.sound hs) hc' (s.recs.clearSlot_passed s.clk sl) _ _

/-- Once every slot has been visited every slot is FREE: a booking or a VOIDING order would have been returned, and any
other order stands on the annex chain of a booking (R25, R127). -/
theorem Records.Sound.all_free {b : Records} (h : b.Sound none) {n x y : Nat} (hc : b.pool.state = .clearing n x y)
    (hn : 32768 ≤ n) (sl : SlotNo) : (b.slot sl).body = .free := by
  have hpassed : ∀ z : SlotNo, (b.slot z).body.Passed := fun z => (h.behind n x y hc).2 z (by omega)
  cases hb : (b.slot sl).body with
  | free => rfl
  | booking k => exact absurd (hpassed sl) (by rw [hb]; exact id)
  | order o =>
    have hv : o.state ≠ .voiding := by have := hpassed sl; rwa [hb] at this
    obtain ⟨g, owner, k, -, -, hk, -⟩ := h.orders.owned sl o nofun hb hv
    exact absurd (hpassed owner) (by rw [hk]; exact id)

@[simp] theorem State.finish_recs (s : State) (st : Status) (p : List Byte) : (s.finish st p).recs = s.recs := by
  unfold State.finish; split <;> rfl

@[simp] theorem State.finish_scan (s : State) (st : Status) (p : List Byte) : (s.finish st p).scan = s.scan := by
  unfold State.finish; split <;> rfl

theorem execClearAllComplete_poolStep {s t : State} (h : execClearAllComplete s = .next t) : s.PoolStep t := by
  unfold execClearAllComplete at h
  split at h
  · cases h; exact .refl s
  · cases h; exact .refl s
  · rename_i n x y hc
    split at h <;> cases h
    · exact .refl s
    · rename_i hn
      refine ⟨fun hl => ?_, fun hs hg => ?_⟩
      · obtain ⟨hfloor, hlo, hhi, hcount, harmed⟩ := Pool.relinked_lawful hl
        rw [State.finish_recs]
        refine ⟨hfloor, hlo, hhi, hcount, fun _ _ => ?_⟩
        change s.recs.pool.floor < 32768
        have : s.recs.pool.floor ≤ 4095 := hfloor
        omega
      · have hn : 32768 ≤ n := Nat.not_lt.mp hn
        obtain ⟨⟨tag, hport⟩, -⟩ := hg.2 ⟨n, x, y, hc⟩
        refine ⟨?_, fun hscan => ?_, fun ⟨n', x', y', hc'⟩ => ?_⟩
        · rw [State.finish_recs]
          refine hs.relink (armed := true) (hs.all_free hc hn) rfl fun q => ?_
          simp [Records.completeClear, Records.kitchen, Records.markAllPanels, Kitchen.ringEmptied]
        · rw [State.finish_scan] at hscan
          obtain ⟨tag', a, hport'⟩ := hg.1 hscan
          rw [hport] at hport'; cases hport'
        · rw [State.finish_recs] at hc'; cases hc'

/-! ## The part's own steps -/

theorem State.takePanel_poolStep {s t : State} {l : LineNo} {n : NodeNo} {want : PanelItem → Bool}
    {act : State → PanelHandoff → State} (hact : ∀ (s : State) (x : PanelHandoff), s.PoolStep (act s x))
    (h : s.takePanel l n want act = .next t) : s.PoolStep t := by
  unfold State.takePanel at h
  split at h
  · cases h; exact .refl s
  · rename_i x rest _
    split at h <;> cases h
    · have hstep := hact { s with mail := { s.mail with panel := rest } } x
      exact ⟨hstep.count, hstep.sound⟩
    · exact .refl s

theorem State.takeMotion_poolStep (s : State) (x : PanelHandoff) : s.PoolStep (s.takeMotion x) := by
  unfold State.takeMotion
  split
  · split
    · exact .refl s
    · exact .of_keeps (s.recs.setRoom_framed (by rfl)).keeps rfl rfl rfl
  · exact .refl s
  · exact .refl s

theorem State.takeMotionCheckIn_poolStep (s : State) (x : PanelHandoff) : s.PoolStep (s.takeMotionCheckIn x) := by
  unfold State.takeMotionCheckIn
  split
  · rename_i hready
    have hready : s.recs.pool.state = .ready := by
      simp only [Bool.and_eq_true] at hready
      exact (Pool.isReady_iff _).mp hready.1.1
    have hc : ¬ s.recs.Clearing := by rintro ⟨n, x, y, e⟩; rw [hready] at e; cases e
    exact .of_keeps (((s.recs.bringUpSet_keeps _ _).keeps hc).trans (Records.motionCheckIn_keeps _ _ _)) rfl rfl rfl
  · exact .refl s

theorem State.takeRequest_poolStep {act : Records → Clock → RoomNo → Records × PanelResult}
    (hact : ∀ (b : Records) (c : Clock) (r : RoomNo), b.KeepsOutside (act b c r).1) (s : State) (x : PanelHandoff) :
    s.PoolStep (State.takeRequest act s x) :=
  .of_keeps (Records.panelRequest_keeps (fun b => hact b s.clk x.room) _ _) rfl rfl rfl

theorem State.commandWrite_poolStep (s : State) (bytes : List Byte) : s.PoolStep (s.commandWrite bytes) := by
  have judged : ∀ t : State, t.recs = s.recs → t.scan = s.scan → t.walk = s.walk → s.port.state = .idle →
      s.PoolStep t := by
    intro t hrecs hscan hwalk hidle
    have htakes : s.port.takes .hardReset = true := by simp [Port.takes, hidle]
    refine ⟨fun hl => hrecs ▸ hl, fun hs hg => ⟨hrecs ▸ hs, fun hn => ?_, fun hc => ?_⟩⟩
    · exact absurd (hscan.trans (hg.taken htakes).1) hn
    · exact absurd (hrecs ▸ hc) (hg.taken htakes).2
  unfold State.commandWrite
  split
  · rename_i hidle
    unfold State.judgeWrite
    split <;> exact judged _ rfl rfl rfl hidle
  · exact .of_keeps (.refl _) rfl rfl rfl
  · exact .of_keeps (.refl _) rfl rfl rfl

theorem State.readOut_poolStep (s : State) (a : ReadOutArgs) : s.PoolStep (s.readOut a) := by
  unfold State.readOut
  split
  · exact .refl s
  · dsimp only
    split
    · rename_i hready
      refine ⟨id, fun hs hg => ⟨hs, fun hn => ?_, fun hc => ?_⟩⟩
      · obtain ⟨tag, b, e⟩ := hg.1 hn; rw [hready] at e; cases e
      · obtain ⟨⟨tag, e⟩, -⟩ := hg.2 hc; rw [hready] at e; cases e
    · rename_i hidle; exact .of_keeps (.refl _) rfl rfl rfl
    · rename_i hexec; exact .of_keeps (.refl _) rfl rfl rfl

theorem State.transact_poolStep (s : State) (bytes : List Byte) : s.PoolStep (s.transact bytes) := by
  unfold State.transact
  split
  · exact .refl s
  · split
    · exact s.commandWrite_poolStep _
    · split
      · exact s.readOut_poolStep _
      · exact .refl s

theorem State.lineFrame_poolStep (s : State) (l : LineNo) (frame : List Byte) : s.PoolStep (s.lineFrame l frame) := by
  unfold State.lineFrame
  split
  · exact .refl s
  · dsimp only
    split
    · exact .of_keeps (s.recs.goodAnswer_keeps _ _ _ _) rfl rfl rfl
    · exact .of_keeps (s.recs.loss_keeps _ _ _) rfl rfl rfl

theorem execElapsedSecond_poolStep {s t : State} (h : execElapsedSecond s = .next t) : s.PoolStep t := by
  have hend : ∀ v, s.recs.Framed (s.recs.clockEnd v) := fun v => by
    unfold Records.clockEnd
    split
    · exact .refl _
    · exact s.recs.raise_framed _
  unfold execElapsedSecond at h
  split at h
  · cases h; exact .of_keeps (.refl _) rfl rfl rfl
  · cases h; exact .of_keeps (.refl _) rfl rfl rfl
  · split at h
    · cases h; exact .of_keeps (.refl _) rfl rfl rfl
    · split at h <;> cases h
      · exact .of_keeps (.refl _) rfl rfl rfl
      · exact .of_keeps (hend _).keeps rfl rfl rfl

/-- A minute advance begins no walk while the pool is CLEARING (R26, R76). -/
theorem execBkeMinuteAdvance_poolStep {s t : State} (h : execBkeMinuteAdvance s = .next t) : s.PoolStep t := by
  unfold execBkeMinuteAdvance at h
  split at h <;> cases h
  · exact .refl s
  · refine ⟨id, fun hs hg => ⟨hs, hg.1, fun hc => ?_⟩⟩
    obtain ⟨hport, hwalk⟩ := hg.2 hc
    refine ⟨hport, ?_⟩
    obtain ⟨n, x, y, e⟩ := hc
    rw [Walk.advance_eq, if_neg (by rw [show s.recs.pool.state = _ from e]; nofun)]
    exact hwalk

theorem execMinuteWalkStep_poolStep {s t : State} (h : execMinuteWalkStep s = .next t) : s.PoolStep t := by
  unfold execMinuteWalkStep at h
  split at h <;> cases h
  · exact .refl s
  · rename_i r hwalk
    refine .of_outside (s.recs.bringUp_keeps _ _) (fun _ hg hc => ?_) rfl rfl
    rw [(hg.2 hc).2] at hwalk; cases hwalk

theorem execCloseWalkStep_poolStep {s t : State} {r : RoomNo} (h : execCloseWalkStep r s = .next t) : s.PoolStep t := by
  unfold execCloseWalkStep at h
  split at h <;> cases h
  · rename_i hclosing
    refine .of_outside (s.recs.closeStep_keeps _ _) (fun hs _ ⟨n, x, y, hc⟩ => ?_) rfl rfl
    exact (hs.behind n x y hc).1 r (of_decide_eq_true hclosing)
  · exact .refl s

theorem execFindRoomsScanStep_poolStep {s t : State} (h : execFindRoomsScanStep s = .next t) : s.PoolStep t := by
  have ended : ∀ (b : Records) (st : Status) (p : List Byte), s.recs.Framed b →
      s.scan ≠ none → s.PoolStep (({ s.withRecs b with scan := none } : State).finish st p) := by
    intro b st p hb hscan
    refine ⟨fun hl => ?_, fun hs hg => ⟨?_, ?_, fun hc => ?_⟩⟩
    · rw [State.finish_recs]; exact hb.keeps.count hl
    · rw [State.finish_recs]; exact hb.sound hs
    · rw [State.finish_scan]; exact fun hn => absurd rfl hn
    · rw [State.finish_recs] at hc
      obtain ⟨tag, a, e⟩ := hg.1 hscan
      obtain ⟨⟨tag', e'⟩, -⟩ := hg.2 (hb.clearing.mp hc)
      rw [e] at e'; cases e'
  unfold execFindRoomsScanStep at h
  split at h
  · cases h; exact .refl s
  · rename_i x hscan
    have hne : s.scan ≠ none := by rw [hscan]; nofun
    have hjudge : s.recs.Framed (s.recs.judgeRoom s.clk.minute x x.next).1 := by
      unfold Records.judgeRoom
      split
      · exact s.recs.readTurnarounds_framed _ _
      · exact .refl _
    dsimp only at h
    generalize (if (s.recs.judgeRoom s.clk.minute x x.next).2 = true then _ else x : Scan) = x' at h
    cases h
    unfold State.scanOn
    split
    · split
      · refine ⟨hjudge.keeps.count, fun hs hg => ⟨hjudge.sound hs, fun _ => hg.1 hne, fun hc => ?_⟩⟩
        exact hg.2 (hjudge.clearing.mp hc)
      · exact ended _ _ _ hjudge hne
    · exact ended _ _ _ hjudge hne

theorem execVisitStart_poolStep {s t : State} {l : LineNo} (h : execVisitStart l s = .next t) : s.PoolStep t := by
  unfold execVisitStart at h
  dsimp only at h
  split at h
  · split at h <;> cases h
    · exact .of_keeps (s.recs.startVisit_framed _ _ _ _).keeps rfl rfl rfl
    · exact .refl s
  · cases h; exact .refl s

/-! ## Every command -/

theorem exec_poolStep {i : Instr} {s t : State} (h : exec i s = .next t) : s.PoolStep t := by
  cases i with
  | hardReset =>
    cases h
    refine ⟨fun _ => Pool.reset_lawful, fun _ _ => ⟨⟨Pool.reset_freeLawful, ?_, fun _ _ _ hc => nomatch hc⟩, ?_⟩⟩
    · exact (Records.ordersLawful_iff _).mp Records.reset_ordersLawful
    · exact ⟨fun hn => absurd rfl hn, fun ⟨_, _, _, hc⟩ => nomatch hc⟩
  | poolInitComplete => exact execPoolInitComplete_poolStep h
  | elapsedSecond => exact execElapsedSecond_poolStep h
  | secondPulse l =>
    simp only [exec, execSecondPulse] at h
    split at h <;> cases h
    · exact .refl s
    · exact .of_keeps (s.recs.setLine_framed _ _).keeps rfl rfl rfl
  | bkeMinuteAdvance => exact execBkeMinuteAdvance_poolStep h
  | minuteWalkStep => exact execMinuteWalkStep_poolStep h
  | windowRoll k =>
    simp only [exec, execWindowRoll] at h
    split at h <;> cases h
    · exact .refl s
    · exact .of_keeps (s.recs.roll_keeps _ _ _ _) rfl rfl rfl
  | sheddingStep k =>
    simp only [exec, execSheddingStep] at h
    split at h <;> cases h
    · exact .of_keeps (s.recs.sheddingStep_keeps _ _ _) rfl rfl rfl
    · exact .refl s
    · exact .refl s
  | promotingStep k =>
    simp only [exec, execPromotingStep] at h
    split at h <;> cases h
    · exact .of_keeps (s.recs.promotingStep_keeps _ _ _ _) rfl rfl rfl
    · exact .refl s
    · exact .refl s
  | closeWalkStep r => exact execCloseWalkStep_poolStep h
  | clearSlotVisit => exact execClearSlotVisit_poolStep h
  | clearAllComplete => exact execClearAllComplete_poolStep h
  | findRoomsScanStep => exact execFindRoomsScanStep_poolStep h
  | visitStart l => exact execVisitStart_poolStep h
  | panelAnswer l frame => cases h; exact s.lineFrame_poolStep ..
  | terminalAnswer l frame => cases h; exact s.lineFrame_poolStep ..
  | badAnswer l frame => cases h; exact s.lineFrame_poolStep ..
  | frameDiscarded l frame => cases h; exact s.lineFrame_poolStep ..
  | visitTimeout l =>
    simp only [exec, execVisitTimeout] at h
    split at h <;> cases h
    · exact .refl s
    · exact .of_keeps (s.recs.loss_keeps _ _ _) rfl rfl rfl
  | motionReport l n => exact State.takePanel_poolStep State.takeMotion_poolStep h
  | motionCheckIn l n =>
    exact State.takePanel_poolStep (want := fun x => decide (x = .motionCheckIn)) State.takeMotionCheckIn_poolStep h
  | checkIn l n => exact State.takePanel_poolStep (State.takeRequest_poolStep Records.panelCheckIn_keeps) h
  | extend l n => exact State.takePanel_poolStep (State.takeRequest_poolStep Records.panelExtend_keeps) h
  | release l n => exact State.takePanel_poolStep (State.takeRequest_poolStep Records.panelRelease_keeps) h
  | walkUp l n => exact State.takePanel_poolStep (State.takeRequest_poolStep Records.panelWalkUp_keeps) h
  | requestResult l n =>
    simp only [exec, execRequestResult] at h
    split at h <;> cases h
    · exact .refl s
    · exact .of_keeps (s.recs.setLine_framed _ _).keeps rfl rfl rfl
  | terminalReport a =>
    cases h
    split
    · exact .of_keeps (s.recs.terminalReported_framed _ _ _).keeps rfl rfl rfl
    · exact .refl s
  | terminalLoss k => cases h; exact .of_keeps (s.recs.terminalLost_framed _ _).keeps rfl rfl rfl
  | noticeRaise n => cases h; exact .of_keeps (s.recs.raise_framed _).keeps rfl rfl rfl
  | commandWrite bytes => cases h; exact s.transact_poolStep _
  | overrun bytes => cases h; exact s.transact_poolStep _
  | readOut a => cases h; exact s.readOut_poolStep _
  | ignoredTransaction bytes => cases h; exact s.transact_poolStep _
  | setClock tag v =>
    exact State.serve_poolStep (act := State.setClock v) (s.setClock_recs v).1.outside (s.setClock_recs v).2 h
  | readClock tag =>
    exact State.serve_poolStep (act := fun s => (s, .now .ok s.clk.readPayload)) (.refl _) rfl h
  | poolStatus tag =>
    exact State.serve_poolStep (act := fun s => (s, .now .ok s.recs.poolPayload)) (.refl _) rfl h
  | noticeSummary tag =>
    exact State.serve_poolStep (act := fun s => (s, .now .ok s.recs.notices.summary)) (.refl _) rfl h
  | clearAll tag => exact execClearAll_poolStep h
  | writeMenuClass tag cls weight setup lead =>
    have hact : (s.writeMenuClass cls weight setup lead).1.recs = s.recs ∧
        (s.writeMenuClass cls weight setup lead).1.scan = s.scan := by
      unfold State.writeMenuClass
      split
      · exact ⟨rfl, rfl⟩
      · split <;> exact ⟨rfl, rfl⟩
    obtain ⟨hrecs, hscan⟩ := hact
    exact State.serve_poolStep (act := State.writeMenuClass cls weight setup lead) (by rw [hrecs]; exact .refl _)
      hscan h
  | findRooms tag a => exact execFindRooms_poolStep h
  | setReserve tag floor => exact State.serve_recsOnly_poolStep (s.setReserve_recsOnly _) (s.setReserve_keeps _) h
  | setHorizon tag days => exact State.serve_recsOnly_poolStep (s.setHorizon_recsOnly _) (s.setHorizon_keeps _) h
  | writeRoom tag a => exact State.serve_recsOnly_poolStep (s.writeRoom_recsOnly _) (s.writeRoom_keeps _) h
  | writeRoomRemove tag room =>
    exact State.serve_recsOnly_poolStep (s.writeRoomRemove_recsOnly _) (s.writeRoomRemove_keeps _) h
  | readRoom tag room => exact State.serve_recsOnly_poolStep (s.readRoom_recsOnly _) (s.readRoom_keeps _) h
  | setRoomService tag inService room =>
    exact State.serve_recsOnly_poolStep (s.setRoomService_recsOnly _ _) (s.setRoomService_keeps _ _) h
  | closeAndCancel tag room =>
    exact State.serve_recsOnly_poolStep (s.closeAndCancel_recsOnly _) (s.closeAndCancel_keeps _) h
  | hold tag a holdTime => exact State.serve_recsOnly_poolStep (s.bookOrHold_recsOnly _ _) (s.bookOrHold_keeps _ _) h
  | book tag a => exact State.serve_recsOnly_poolStep (s.bookOrHold_recsOnly _ _) (s.bookOrHold_keeps _ _) h
  | confirm tag g cls => exact State.serve_recsOnly_poolStep (s.confirm_recsOnly _ _) (s.confirm_keeps _ _) h
  | amend tag a => exact State.serve_recsOnly_poolStep (s.amend_recsOnly _) (s.amend_keeps _) h
  | cancel tag g => exact State.serve_recsOnly_poolStep (s.cancel_recsOnly _) (s.cancel_keeps _) h
  | readBooking tag g => exact State.serve_recsOnly_poolStep (s.readBooking_recsOnly _) (s.readBooking_keeps _) h
  | lookupAt tag room minute => exact State.serve_recsOnly_poolStep (s.lookupAt_recsOnly _ _) (s.lookupAt_keeps _ _) h
  | listRoom tag room count after =>
    exact State.serve_recsOnly_poolStep (s.listRoom_recsOnly _ _ _) (s.listRoom_keeps _ _ _) h
  | writeBanks tag kitchen banks =>
    exact State.serve_recsOnly_poolStep (s.writeBanks_recsOnly _ _) (s.writeBanks_keeps _ _) h
  | writeKitchen tag kitchen opens closes fallback =>
    exact State.serve_recsOnly_poolStep (s.writeKitchen_recsOnly ..) (s.writeKitchen_keeps ..) h
  | setStaffing tag kitchen level =>
    exact State.serve_recsOnly_poolStep (s.setStaffing_recsOnly _ _) (s.setStaffing_keeps _ _) h
  | readKitchen tag kitchen => exact State.serve_recsOnly_poolStep (s.readKitchen_recsOnly _) (s.readKitchen_keeps _) h
  | readWindow tag kitchen window =>
    exact State.serve_recsOnly_poolStep (s.readWindow_recsOnly _ _) (s.readWindow_keeps _ _) h
  | order tag g menuClass headcount delivery =>
    exact State.serve_recsOnly_poolStep (s.order_recsOnly ..) (s.order_keeps ..) h
  | amendOrder tag a => exact State.serve_recsOnly_poolStep (s.amendOrder_recsOnly _) (s.amendOrder_keeps _) h
  | cancelOrder tag g => exact State.serve_recsOnly_poolStep (s.cancelOrder_recsOnly _) (s.cancelOrder_keeps _) h
  | readOrder tag g => exact State.serve_recsOnly_poolStep (s.readOrder_recsOnly _) (s.readOrder_keeps _) h
  | setLine tag line state timeout refresh =>
    exact State.serve_recsOnly_poolStep (s.setLineTo_recsOnly ..) (s.setLineTo_keeps ..) h
  | restartLine tag line => exact State.serve_recsOnly_poolStep (s.restartLine_recsOnly _) (s.restartLine_keeps _) h
  | writeNode tag line node kind target =>
    exact State.serve_recsOnly_poolStep (s.writeNode_recsOnly ..) (s.writeNode_keeps ..) h
  | readNode tag line node => exact State.serve_recsOnly_poolStep (s.readNode_recsOnly _ _) (s.readNode_keeps _ _) h
  | readNotices tag indicator number =>
    exact State.serve_recsOnly_poolStep (s.readNotices_recsOnly _ _) (s.readNotices_keeps _ _) h
  | setNoticeMask tag masks =>
    exact State.serve_recsOnly_poolStep (s.setNoticeMask_recsOnly _) (s.setNoticeMask_keeps _) h

theorem step_poolStep {s t : State} (h : step s = .next t) : s.PoolStep t := by
  unfold step at h
  split at h
  · cases h; exact .refl s
  · have hstep := exec_poolStep h
    exact ⟨hstep.count, hstep.sound⟩

/-! ## The counts (R17) -/

/-- A list that holds once each place of `v` whose entry satisfies `p` is as long as those entries are many. -/
theorem length_eq_countP {α : Type} {n : Nat} (v : Vector α n) (p : α → Bool) {l : List (Fin n)} (h : l.Nodup)
    (hm : ∀ i : Fin n, i ∈ l ↔ p v[i.val] = true) : l.length = v.toList.countP p := by
  have entries : v.toList = (List.finRange n).map fun i => v[i.val] := List.ext_getElem (by simp) (by simp)
  have perm : l.Perm ((List.finRange n).filter fun i => p v[i.val]) :=
    (List.perm_ext_iff_of_nodup h ((List.nodup_finRange _).filter _)).mpr fun i => by simp [hm]
  rw [perm.length_eq, entries, List.countP_map, List.countP_eq_length_filter]
  rfl

/-- Every slot is FREE, BOOKING or ORDER. -/
theorem countP_kinds (l : List Slot) :
    (l.countP fun x => decide (x.body = .free)) + (l.countP fun x => decide (x.body.kind? = some 1)) +
      (l.countP fun x => decide (x.body.kind? = some 2)) = l.length := by
  induction l with
  | nil => rfl
  | cons x l ih =>
    rw [List.length_cons, ← ih]
    obtain ⟨gen, body⟩ := x
    cases body with
    | free => simp only [List.countP_cons, show SlotBody.free.kind? = none from rfl]; simp; omega
    | booking k => simp only [List.countP_cons, show (SlotBody.booking k).kind? = some 1 from rfl]; simp; omega
    | order o => simp only [List.countP_cons, show (SlotBody.order o).kind? = some 2 from rfl]; simp; omega

/-- Settles O8: `exec_poolStep` for the steps, and the count of the free list for the numbers of R17. -/
theorem stepKeepsPoolLawful : Obligations.StepKeepsPoolLawful := by
  refine ⟨fun s t h => ?_, fun p hp hf => ?_⟩
  · have hstep := step_poolStep h
    refine ⟨hstep.count, fun hfree horders hclear => ?_⟩
    obtain ⟨hguard, hbehind⟩ := s.clearingLawful_iff.mp hclear
    obtain ⟨hsound, hguard'⟩ := hstep.sound ⟨hfree, s.recs.ordersLawful_iff.mp horders, hbehind⟩ hguard
    exact ⟨hsound.free, t.recs.ordersLawful_iff.mpr hsound.orders, t.clearingLawful_iff.mpr ⟨hguard', hsound.behind⟩⟩
  · obtain ⟨-, -, -, hcount, -⟩ := hp
    refine ⟨fun hs => ?_, fun hs => ?_⟩
    · obtain ⟨hnodup, hmem⟩ := hf.2 hs
      have hfree := (hcount hs).trans
        (length_eq_countP p.slots (fun x => decide (x.body = .free)) hnodup fun sl => by simp [hmem])
      refine ⟨hfree, ?_⟩
      rw [hfree, countP_kinds, Vector.length_toList]
    · have none_of : ∀ kind : Byte, (p.slots.toList.countP fun x => decide (x.body.kind? = some kind)) = 0 := by
        intro kind
        rw [List.countP_eq_zero]
        intro x hx
        obtain ⟨i, hi, rfl⟩ := List.getElem_of_mem hx
        have hbody := hf.1 hs ⟨i, by simpa using hi⟩
        simp only [Vector.getElem_toList] at hbody ⊢
        simp [hbody, SlotBody.kind?]
      exact ⟨none_of 1, none_of 2⟩

end Sys2Proof.Machine

/-! Hard reset, the pool's configuration and the two rules of its slots (R15 to R22, R29, R30). -/

namespace Sys2Proof.Machine

open Sys2Proof

/-! ## Reset and initialization (R22) -/

/-- The free list of a pool linked again names the slots in ascending order. -/
theorem allSlots_val : allSlots.map Fin.val = List.range 32768 :=
  (slotsFrom_val 32768 0 (by decide)).trans List.range_eq_range'.symm

/-- Settles O18: the tables of `State.reset` are read entry by entry, and `allSlots_val` gives the links. -/
theorem resetAndInitialization : Obligations.ResetAndInitialization := by
  intro s
  refine ⟨fun h => ⟨allSlots, allSlots_val, ?_⟩, fun h => ?_, _, rfl, rfl, rfl, rfl,
    fun k => Vector.getElem_replicate .., fun l => Vector.getElem_replicate .., rfl, rfl, rfl, rfl, rfl, rfl, rfl, rfl,
    Records.reset_slot, Records.reset_room, fun c => Vector.getElem_replicate ..,
    fun k => ⟨Records.reset_kitchen k, Vector.getElem_replicate .., Notices.reset_kitchens k⟩, fun l => ?_,
    Notices.reset_rooms, rfl, fun x => Vector.getElem_replicate .., rfl, rfl, rfl, rfl, rfl, rfl, rfl, rfl⟩
  · exact if_pos ((Pool.isInitializing_iff _).mpr h)
  · exact if_neg (mt (Pool.isInitializing_iff _).mp h)
  · rw [State.reset_recs, Records.reset_line]
    exact ⟨rfl, rfl, rfl, rfl, rfl, rfl, Line.reset_node⟩

/-! ## The low notice (R20, R30) -/

theorem Records.judgeFloor_raises {b : Records} (hr : b.pool.state = .ready) (ha : b.pool.lowArmed = true)
    (hc : b.pool.freeCount ≤ b.pool.floor) :
    b.judgeFloor = ({ b with pool := { b.pool with lowArmed := false } } : Records).raise (.part .poolLow) := by
  have h : b.pool.isReady = true := (Pool.isReady_iff _).mpr hr
  simp only [Records.judgeFloor, h, ha, hc, decide_true, Bool.and_self, if_true]

theorem Records.judgeFloor_rearms {b : Records} (hr : b.pool.state = .ready) (ha : b.pool.lowArmed = false)
    (hc : b.pool.floor + 64 < b.pool.freeCount) :
    b.judgeFloor = { b with pool := { b.pool with lowArmed := true } } := by
  have h : b.pool.isReady = true := (Pool.isReady_iff _).mpr hr
  simp [Records.judgeFloor, h, ha, hc]

theorem Records.judgeFloor_stands {b : Records}
    (hraise : ¬ (b.pool.state = .ready ∧ b.pool.lowArmed = true ∧ b.pool.freeCount ≤ b.pool.floor))
    (harm : ¬ (b.pool.state = .ready ∧ b.pool.lowArmed = false ∧ b.pool.floor + 64 < b.pool.freeCount)) :
    b.judgeFloor = b := by
  unfold Records.judgeFloor
  rw [if_neg, if_neg]
  · simpa [and_assoc] using harm
  · simpa [and_assoc] using hraise

/-! ## SET_HORIZON and SET_RESERVE (R29, R30) -/

theorem State.setReserve_accepted {s : State} {v : Nat} {b : Records} (hv : v ≤ 4095)
    (hb : ({ s.recs with pool := { s.recs.pool with floor := v } } : Records).judgeFloor = b) :
    State.setReserve v s = (s.withRecs b, .now .ok (be 2 v ++ be 2 b.pool.freeCount ++ yesNo b.pool.lowArmed)) := by
  rw [State.setReserve, if_neg (by omega), hb]

/-- Settles O23: each command by the range of its value, SET_RESERVE then by the three outcomes of `judgeFloor`. -/
theorem setReserveAndHorizon : Obligations.SetReserveAndHorizon := by
  intro tag v s hidle p
  refine ⟨fun h1 h2 => ?_, fun h => ?_, fun h => ?_, fun h => ?_⟩
  · exact State.serve_idle_now hidle (if_pos ⟨h1, h2⟩)
  · exact State.serve_idle_now hidle (if_neg (by omega))
  · exact State.serve_idle_now hidle (if_pos h)
  · intro raised rearmed
    refine ⟨fun ⟨hr, ha, hc⟩ => ?_, fun ⟨hr, ha, hc⟩ => ?_, fun hraise harm => ?_⟩
    · exact State.serve_idle_now hidle (State.setReserve_accepted h (Records.judgeFloor_raises hr ha hc))
    · exact State.serve_idle_now hidle (State.setReserve_accepted h (Records.judgeFloor_rearms hr ha hc))
    · exact State.serve_idle_now hidle (State.setReserve_accepted h (Records.judgeFloor_stands hraise harm))

/-! ## Allocation and return (R15, R16, R19, R20) -/

theorem Records.allocate_notReady {b : Records} (h : b.pool.state ≠ .ready) (privileged : Bool) (body : SlotBody) :
    b.allocate privileged body = .error .notReady :=
  if_neg (mt (Pool.isReady_iff _).mp h)

/-- Settles O26: the reserve rule case by case, and the records after a claim and after a return. -/
theorem slotsAreTakenAndReturned : Obligations.SlotsAreTakenAndReturned := by
  intro b privileged body sl rest p count
  refine ⟨fun h => Records.allocate_notReady h _ _, fun hr h0 => Records.allocate_empty hr h0 .., fun hr h0 hf hp => ?_,
    fun hr h0 hf hl => ?_, b.returnSlot_slot_same sl, fun x hx => b.returnSlot_slot_other hx, rfl⟩
  · subst hp
    exact Records.allocate_low hr h0.ne' hf ..
  · obtain ⟨b', hall, hcl⟩ := Records.allocate_claimed hr h0.ne' hf hl body
    have hpool := Records.allocate_pool hall
    refine ⟨b', hall, hcl.freeList, hcl.freeCount, ?_, ?_, ?_, hcl.slot, hcl.others, ?_, hcl.notices, hcl.rooms,
      hcl.kitchens, hcl.queues, hcl.lines⟩
    all_goals rw [hpool]

/-! ## CLEAR_ALL begins (R24) -/

/-- A command on an IDLE port that is answered later holds the port EXECUTING. -/
theorem State.serve_idle_later {s s' : State} {cmd : Instr} {act : State → State × Answer}
    (h : s.port.state = .idle) (ha : act s = (s', .later)) :
    s.serve cmd act = .next { s' with port := { s'.port with state := .executing cmd true } } := by
  rw [State.serve_idle h, ha]

theorem any_of_replicate {α : Type} {n : Nat} {x : α} {f : α → Bool} (h : f x = false) :
    (Vector.replicate n x).toList.any f = false := by
  rw [List.any_eq_false]
  intro y hy
  rw [Vector.toList_replicate] at hy
  rw [(List.mem_replicate.mp hy).2, h]
  nofun

theorem Notices.form_line (n : Notices) : n.form.line = n.level := rfl

theorem Notices.level_of_empty {n : Notices} (hp : n.part = []) (hk : n.kitchens = Vector.replicate 8 [])
    (hr : n.rooms = Vector.replicate 384 []) : n.level = false := by
  unfold Notices.level
  rw [hp, hk, hr, any_of_replicate rfl, any_of_replicate rfl]
  rfl

/-- Notice sets emptied pull the indicator down. -/
theorem Notices.emptied_line (n : Notices) : n.emptied.line = false := by
  rw [Notices.emptied, Notices.form_line]
  exact Notices.level_of_empty rfl rfl rfl

/-- Settles O24: the gate, and the tables of `beginClear`. -/
theorem clearAllBegins : Obligations.ClearAllBegins := by
  intro tag s hidle
  refine ⟨fun h => ?_, fun h => ?_⟩
  · have hready : ¬ s.recs.pool.isReady = true := by rw [Pool.isReady_iff, h]; nofun
    exact State.serve_idle_now hidle (if_neg hready)
  · have hact : s.clearAll =
        ({ s with recs := s.recs.beginClear, walk := { next := none, rewalk := false } }, .later) :=
      if_pos ((Pool.isReady_iff _).mpr h)
    refine ⟨_, State.serve_idle_later hidle hact, rfl, rfl, rfl, rfl, rfl, rfl, rfl, rfl,
      fun r => Vector.getElem_map .., fun k => ⟨Vector.getElem_map .., Vector.getElem_replicate ..⟩,
      fun r => Vector.getElem_replicate .., rfl, rfl, s.recs.notices.emptied_line, ?_⟩
    exact Records.markAllPanels_marks _

end Sys2Proof.Machine

/-! The visits of CLEAR_ALL and its completion (R25, R27). -/

namespace Sys2Proof.Machine

open Sys2Proof

/-- Marking panels concerns the four lines alone. -/
theorem Records.Marks.of_lines {b b' d d' : Records} {p q : RoomNo → Prop} (h : b.Marks b' p) (hd : d.lines = b.lines)
    (hd' : d'.lines = b'.lines) (hpq : ∀ r, q r ↔ p r) : d.Marks d' q := by
  have hq : q = p := funext fun r => propext (hpq r)
  intro l
  simp only [Records.line, hd, hd', hq]
  exact h l

/-- Taking a booking off its chain marks the panels that show its room (R39). -/
theorem Records.unlink_marks (b : Records) (r : RoomNo) (sl : SlotNo) :
    b.Marks (b.unlink r sl) (fun q => q = r ∨ q ∈ (b.room r).attrs.members.getD []) := by
  refine (Records.markRooms_marks _ _).of_lines rfl rfl fun q => ?_
  simp [Records.shownOn]

theorem Records.unlink_room_same (b : Records) (r : RoomNo) (sl : SlotNo) :
    (b.unlink r sl).room r = { b.room r with chain := (b.room r).chain.filter fun x => decide (x ≠ sl) } :=
  b.setRoom_room_same _ _

theorem Records.unlink_room_other (b : Records) {r q : RoomNo} (sl : SlotNo) (h : q ≠ r) :
    (b.unlink r sl).room q = b.room q :=
  b.setRoom_room_other _ h

/-- Taking a booking off its chain changes that chain alone among the rooms. -/
theorem Records.unlink_room_frame (b : Records) (r : RoomNo) (sl : SlotNo) (q : RoomNo) :
    { (b.unlink r sl).room q with chain := (b.room q).chain } = b.room q := by
  by_cases h : q = r
  · subst h; rw [b.unlink_room_same]
  · rw [b.unlink_room_other sl h]

/-! ## The orders of an annex chain returned -/

/-- Orders returned leave rooms, lines and notices (R25). -/
structure Records.OrdersOnly (b b' : Records) : Prop where
  rooms : b'.rooms = b.rooms
  lines : b'.lines = b.lines
  notices : b'.notices = b.notices

theorem Records.clearOrder_ordersOnly (b : Records) (c : Clock) (sl : SlotNo) : b.OrdersOnly (b.clearOrder c sl) := by
  cases ho : b.order? sl with
  | none => rw [Records.clearOrder_of_none ho]; exact ⟨rfl, rfl, rfl⟩
  | some o => rw [Records.clearOrder_of_some ho]; exact ⟨rfl, rfl, rfl⟩

/-- The orders of an annex chain returned one after another. -/
def Records.clearOrders (b : Records) (c : Clock) (l : List SlotNo) : Records := l.foldl (fun x o => x.clearOrder c o) b

theorem Records.clearBooking_eq (b : Records) (c : Clock) (sl : SlotNo) (k : Booking) :
    b.clearBooking c sl k = ((b.clearOrders c k.annex).unlink k.room sl).returnSlot sl := rfl

theorem Records.clearOrders_ordersOnly (b : Records) (c : Clock) (l : List SlotNo) :
    b.OrdersOnly (b.clearOrders c l) := by
  induction l generalizing b with
  | nil => exact ⟨rfl, rfl, rfl⟩
  | cons sl rest ih =>
    have h1 := b.clearOrder_ordersOnly c sl
    have h2 := ih (b.clearOrder c sl)
    exact ⟨h2.rooms.trans h1.rooms, h2.lines.trans h1.lines, h2.notices.trans h1.notices⟩

/-- A returned booking leaves its orders, its chain and its slot behind, and the panels of its room are marked (R25). -/
theorem Records.clearBooking_frame (b : Records) (c : Clock) {sl : SlotNo} {k : Booking}
    (h : (b.slot sl).body = .booking k) :
    (b.clearBooking c sl k).notices = b.notices ∧
    b.Marks (b.clearBooking c sl k) (fun q => q = k.room ∨ q ∈ (b.room k.room).attrs.members.getD []) ∧
    (b.clearBooking c sl k).slot sl = { gen := (b.slot sl).gen + 1, body := .free } ∧
    ((b.clearBooking c sl k).room k.room).chain = (b.room k.room).chain.filter (fun x => decide (x ≠ sl)) ∧
    (∀ r : RoomNo, r ≠ k.room → (b.clearBooking c sl k).room r = b.room r) ∧
    ∀ r : RoomNo, { (b.clearBooking c sl k).room r with chain := (b.room r).chain } = b.room r := by
  have hslot : (b.clearOrders c k.annex).slot sl = b.slot sl := Records.clearOrders_slot_booking h c k.annex
  obtain ⟨hrooms, hlines, hnotices⟩ := b.clearOrders_ordersOnly c k.annex
  have hroom : ∀ r, (b.clearOrders c k.annex).room r = b.room r := fun r => by simp only [Records.room, hrooms]
  rw [Records.clearBooking_eq]
  refine ⟨hnotices, ?_, ?_, ?_, fun r hr => ?_, fun r => ?_⟩
  · refine (Records.unlink_marks _ _ _).of_lines hlines.symm rfl fun q => ?_
    rw [hroom]
  · rw [Records.returnSlot_slot_same]
    exact congrArg (fun x : Slot => ({ gen := x.gen + 1, body := .free } : Slot)) hslot
  · rw [Records.returnSlot_room, Records.unlink_room_same, hroom]
  · rw [Records.returnSlot_room, Records.unlink_room_other _ _ hr, hroom]
  · rw [Records.returnSlot_room, ← hroom r]
    exact Records.unlink_room_frame _ _ _ _

/-- What one order returned leaves in its slot, its kitchen and its queue (R25). -/
theorem Records.clearOrder_places (b : Records) (c : Clock) {sl : SlotNo} {x : Order}
    (h : (b.slot sl).body = .order x) :
    (b.clearOrder c sl).slot sl = { gen := (b.slot sl).gen + 1, body := .free } ∧
    (b.clearOrder c sl).kitchen x.kitchen =
      ({ b.kitchen x.kitchen with
        waitlist := (b.kitchen x.kitchen).waitlist.filter fun y => decide (y ≠ sl) } : Kitchen).subShares
          (c.minute / 30) x.shares ∧
    ((b.clearOrder c sl).queue x.kitchen).entries =
      (b.queue x.kitchen).entries.filter fun e => decide (e.slot ≠ sl) := by
  rw [Records.clearOrder_of_some (Records.order?_eq_some.mpr h)]
  refine ⟨by rw [Records.returnSlot_slot_same]; rfl, ?_, ?_⟩
  · rw [Records.returnSlot_kitchen, Records.releaseShares, Records.setKitchen_kitchen_same]
    congr 1
    exact b.setKitchen_kitchen_same _ _
  · rw [Records.returnSlot_queue, Records.releaseShares, Records.setKitchen_queue, Records.leaveQueue,
      Records.setQueue_queue_same]
    rfl

/-! ## One visit and the completion -/

theorem execClearSlotVisit_at {s : State} {sl : SlotNo} {bookings orders : Nat}
    (h : s.recs.pool.state = .clearing sl.val bookings orders) :
    exec .clearSlotVisit s = .next (s.withRecs ((s.recs.clearSlot s.clk sl).1.clearingAt (sl.val + 1)
      (bookings + (s.recs.clearSlot s.clk sl).2.1) (orders + (s.recs.clearSlot s.clk sl).2.2))) := by
  change execClearSlotVisit s = _
  simp only [execClearSlotVisit, h, slotNo?_val]

theorem Records.clearSlot_free {b : Records} {sl : SlotNo} (h : (b.slot sl).body = .free) (c : Clock) :
    b.clearSlot c sl = (b, 0, 0) := by
  unfold Records.clearSlot; rw [h]

theorem Records.clearSlot_booking {b : Records} {sl : SlotNo} {k : Booking} (h : (b.slot sl).body = .booking k)
    (c : Clock) : b.clearSlot c sl = (b.clearBooking c sl k, 1, k.annex.length) := by
  unfold Records.clearSlot; rw [h]

theorem Records.clearSlot_order {b : Records} {sl : SlotNo} {o : Order} (h : (b.slot sl).body = .order o) (c : Clock) :
    b.clearSlot c sl =
      if o.state = .voiding then ((b.leaveQueue o.kitchen sl).returnSlot sl, 0, 1) else (b, 0, 0) := by
  unfold Records.clearSlot; rw [h]

theorem State.finish_executing {s : State} {cmd : Instr} {x : Bool} (h : s.port.state = .executing cmd x) (st : Status)
    (p : List Byte) : s.finish st p = s.respond (codeTag cmd).1 (codeTag cmd).2 st p := by
  unfold State.finish; rw [h]

/-- A visit leaves notices, and of the rooms all but their chains. -/
theorem Records.clearSlot_frame (b : Records) (c : Clock) (sl : SlotNo) :
    (b.clearSlot c sl).1.notices = b.notices ∧
    ∀ r : RoomNo, { (b.clearSlot c sl).1.room r with chain := (b.room r).chain } = b.room r := by
  cases h : (b.slot sl).body with
  | free => rw [Records.clearSlot_free h]; exact ⟨rfl, fun _ => rfl⟩
  | booking k =>
    rw [Records.clearSlot_booking h]
    obtain ⟨hnotices, -, -, -, -, hrooms⟩ := b.clearBooking_frame c h
    exact ⟨hnotices, hrooms⟩
  | order o =>
    rw [Records.clearSlot_order h]
    split <;> exact ⟨rfl, fun _ => rfl⟩

/-- Settles O25: a visit by what its slot holds, and the completion. -/
theorem clearingVisitsAndCompletes : Obligations.ClearingVisitsAndCompletes := by
  intro s bookings orders
  refine ⟨fun sl hstate => ?_, fun tag n hstate hn hport => ?_⟩
  · obtain ⟨hnotices, hrooms⟩ := s.recs.clearSlot_frame s.clk sl
    refine ⟨_, execClearSlotVisit_at hstate, rfl, rfl, rfl, rfl, rfl, rfl, hnotices, hrooms, fun h => ?_,
      fun k h => ?_, fun o h => ?_⟩
    · rw [Records.clearSlot_free h]; rfl
    · rw [Records.clearSlot_booking h]
      intro orderReturned returned
      have hfold : returned = (s.recs.clearOrders s.clk k.annex).returnSlot sl := by
        have hstep : orderReturned = fun b o => b.clearOrder s.clk o :=
          funext fun b => funext fun o => (b.clearOrder_eq s.clk o).symm
        simp only [returned, hstep, Records.clearOrders]
      obtain ⟨-, hmarks, hslot, hchain, hothers, -⟩ := s.recs.clearBooking_frame s.clk h
      refine ⟨?_, hmarks.of_lines rfl rfl fun q => .rfl, rfl, hslot, rfl, hchain, hothers, fun o x ha ho => ?_,
        fun ha => ?_⟩
      · rw [hfold]; rfl
      · have hne : o ≠ sl := by
          rintro rfl; rw [h] at ho; cases ho
        obtain ⟨hplace, hkitchen, hqueue⟩ := s.recs.clearOrder_places s.clk ho
        have hcleared : s.recs.clearOrders s.clk k.annex = s.recs.clearOrder s.clk o := by rw [ha]; rfl
        have hbook := Records.clearBooking_eq s.recs s.clk sl k
        rw [hcleared] at hbook
        rw [hbook]
        exact ⟨(Records.returnSlot_slot_other _ hne).trans hplace, hkitchen, hqueue⟩
      · have hcleared : s.recs.clearOrders s.clk k.annex = s.recs := by rw [ha]; rfl
        have hbook := Records.clearBooking_eq s.recs s.clk sl k
        rw [hcleared] at hbook
        rw [hbook]
        exact ⟨rfl, rfl, fun x hx => Records.returnSlot_slot_other _ hx, rfl⟩
    · rw [Records.clearSlot_order h]
      by_cases hv : o.state = .voiding
      · rw [if_pos hv]
        refine ⟨rfl, rfl, fun hne => absurd hv hne, fun _ => ⟨rfl, Records.returnSlot_slot_same _ _, ?_, fun x hx =>
          Records.returnSlot_slot_other _ hx⟩⟩
        exact congrArg TicketQueue.entries (Records.setQueue_queue_same _ _ _)
      · rw [if_neg hv]
        exact ⟨rfl, rfl, fun _ => rfl, fun hv' => absurd hv' hv⟩
  · have hexec : exec .clearAllComplete s =
        .next ((s.withRecs s.recs.completeClear).respond 19 tag .ok (be 2 bookings ++ be 2 orders)) := by
      change execClearAllComplete s = _
      have hn' : ¬ n < Config.poolSlots := Nat.not_lt.mpr hn
      simp only [execClearAllComplete, hstate, if_neg hn']
      exact congrArg _ (State.finish_executing (s := s.withRecs s.recs.completeClear) hport _ _)
    refine ⟨_, hexec, rfl, allSlots_val, rfl, fun k i => ?_, Records.markAllPanels_marks _, rfl, rfl, rfl, rfl, rfl,
      rfl, rfl, rfl⟩
    have hkitchen : s.recs.completeClear.kitchen k = (s.recs.kitchen k).ringEmptied := Vector.getElem_map ..
    change (s.recs.completeClear.kitchen k).ring[i.val] = _ ∧ _
    rw [show ((s.withRecs s.recs.completeClear).respond 19 tag .ok (be 2 bookings ++ be 2 orders)).recs.kitchen k =
      (s.recs.kitchen k).ringEmptied from hkitchen, hkitchen]
    exact ⟨Vector.getElem_map .., rfl⟩

end Sys2Proof.Machine

/-! Retirement (R68): the settlement of the annex chain sees neither rooms nor lines, and the room is released. -/

namespace Sys2Proof.Machine

open Sys2Proof

/-! ## The settlement of an order sees neither rooms nor lines -/

/-- The records with another room table and other lines. -/
def Records.withView (b : Records) (rooms : Vector Room 384) (lines : Vector Line 4) : Records :=
  { b with rooms := rooms, lines := lines }

section View

variable (b : Records) (rooms : Vector Room 384) (lines : Vector Line 4)

theorem Records.withView_unlink (r : RoomNo) (sl : SlotNo) :
    b.unlink r sl = b.withView (b.unlink r sl).rooms (b.unlink r sl).lines := rfl

theorem Records.promotionTrigger_withView (c : Clock) (k : KitchenNo) :
    (b.withView rooms lines).promotionTrigger c k = (b.promotionTrigger c k).withView rooms lines := by
  have hacts : (b.withView rooms lines).triggersAct c = b.triggersAct c := rfl
  unfold Records.promotionTrigger
  rw [hacts]
  split <;> rfl

theorem Records.joinVoid_withView (k : KitchenNo) (sl : SlotNo) :
    (b.withView rooms lines).joinVoid k sl = (b.joinVoid k sl).withView rooms lines := by
  have hqueue : (b.withView rooms lines).queue k = b.queue k := rfl
  have hhead : ∀ x, (b.withView rooms lines).inFlightAtHead k x = b.inFlightAtHead k x := fun _ => rfl
  simp only [Records.joinVoid, hqueue, hhead]
  split
  · rfl
  · split <;> rfl

/-- The settlement of an order reads and writes neither rooms nor lines (R69). -/
theorem Records.settleOrder_withView (c : Clock) (sl : SlotNo) :
    (b.withView rooms lines).settleOrder c sl =
      ((b.settleOrder c sl).1.withView rooms lines, (b.settleOrder c sl).2) := by
  have horder : (b.withView rooms lines).order? sl = b.order? sl := rfl
  have hflight : ∀ k, (b.withView rooms lines).ticketInFlight k sl = b.ticketInFlight k sl := fun _ => rfl
  have hvoid : ∀ o, (b.withView rooms lines).makeVoiding sl o = (b.makeVoiding sl o).withView rooms lines :=
    fun _ => rfl
  have hreturn : ∀ o, ((b.withView rooms lines).releaseShares c o).returnSlot sl =
      ((b.releaseShares c o).returnSlot sl).withView rooms lines := fun _ => rfl
  unfold Records.settleOrder
  rw [horder]
  split
  · rfl
  · split
    · rfl
    · rw [hreturn, Records.promotionTrigger_withView]
    · rw [hflight]
      split <;> rfl
    · rw [hvoid, Records.joinVoid_withView]
    · rw [hvoid, Records.joinVoid_withView]
    · rfl
    · rfl
    · rfl

end View

theorem Records.settleAll_step (b : Records) (c : Clock) (sl : SlotNo) (rest : List SlotNo) :
    b.settleAll c (sl :: rest) =
      (((b.settleOrder c sl).1.settleAll c rest).1,
        ((b.settleOrder c sl).1.settleAll c rest).2.1 + (if (b.settleOrder c sl).2 = .freed then 1 else 0),
        ((b.settleOrder c sl).1.settleAll c rest).2.2 + if (b.settleOrder c sl).2 = .voiding then 1 else 0) := by
  rcases hs : b.settleOrder c sl with ⟨b', st⟩
  cases st <;> simp [Records.settleAll, hs]

/-- The settlement of an annex chain reads and writes neither rooms nor lines. -/
theorem Records.settleAll_withView (b : Records) (rooms : Vector Room 384) (lines : Vector Line 4) (c : Clock)
    (l : List SlotNo) :
    (b.withView rooms lines).settleAll c l = ((b.settleAll c l).1.withView rooms lines, (b.settleAll c l).2) := by
  induction l generalizing b with
  | nil => rfl
  | cons sl rest ih => rw [Records.settleAll_step, Records.settleAll_step, Records.settleOrder_withView, ih]

/-- Every order settled is counted once. -/
theorem Records.settleAll_counts (b : Records) (c : Clock) (l : List SlotNo) :
    (b.settleAll c l).2.1 + (b.settleAll c l).2.2 = l.length := by
  induction l generalizing b with
  | nil => rfl
  | cons sl rest ih =>
    have hrest := ih (b.settleOrder c sl).1
    rw [Records.settleAll_step, List.length_cons, ← hrest]
    cases (b.settleOrder c sl).2 <;> simp <;> omega

/-! ## What a settlement leaves -/

/-- A settlement leaves rooms, lines, notices, and of the pool its state, floor and horizon. -/
structure Records.SettlesOnly (b b' : Records) : Prop where
  orders : b.OrdersOnly b'
  state : b'.pool.state = b.pool.state
  floor : b'.pool.floor = b.pool.floor
  horizon : b'.pool.horizon = b.pool.horizon

theorem Records.SettlesOnly.trans {b b' b'' : Records} (h : b.SettlesOnly b') (h' : b'.SettlesOnly b'') :
    b.SettlesOnly b'' :=
  ⟨⟨h'.orders.rooms.trans h.orders.rooms, h'.orders.lines.trans h.orders.lines,
    h'.orders.notices.trans h.orders.notices⟩, h'.state.trans h.state, h'.floor.trans h.floor,
    h'.horizon.trans h.horizon⟩

theorem Records.promotionTrigger_settlesOnly (b : Records) (c : Clock) (k : KitchenNo) :
    b.SettlesOnly (b.promotionTrigger c k) := by
  unfold Records.promotionTrigger
  split <;> exact ⟨⟨rfl, rfl, rfl⟩, rfl, rfl, rfl⟩

theorem Records.joinVoid_settlesOnly (b : Records) (k : KitchenNo) (sl : SlotNo) :
    b.SettlesOnly (b.joinVoid k sl) := by
  unfold Records.joinVoid
  dsimp only
  split
  · exact ⟨⟨rfl, rfl, rfl⟩, rfl, rfl, rfl⟩
  · split <;> exact ⟨⟨rfl, rfl, rfl⟩, rfl, rfl, rfl⟩

theorem Records.makeVoiding_settlesOnly (b : Records) (sl : SlotNo) (o : Order) : b.SettlesOnly (b.makeVoiding sl o) :=
  ⟨⟨rfl, rfl, rfl⟩, rfl, rfl, rfl⟩

theorem Records.settleOrder_settlesOnly (b : Records) (c : Clock) (sl : SlotNo) :
    b.SettlesOnly (b.settleOrder c sl).1 := by
  have same : ∀ b' : Records, b'.rooms = b.rooms → b'.lines = b.lines → b'.notices = b.notices →
      b'.pool.state = b.pool.state → b'.pool.floor = b.pool.floor → b'.pool.horizon = b.pool.horizon →
      b.SettlesOnly b' := fun _ h1 h2 h3 h4 h5 h6 => ⟨⟨h1, h2, h3⟩, h4, h5, h6⟩
  unfold Records.settleOrder
  split
  · exact same _ rfl rfl rfl rfl rfl rfl
  · split
    · exact same _ rfl rfl rfl rfl rfl rfl
    · exact (same ((b.releaseShares c _).returnSlot sl) rfl rfl rfl rfl rfl rfl).trans
        (Records.promotionTrigger_settlesOnly _ _ _)
    · split <;> exact same _ rfl rfl rfl rfl rfl rfl
    · exact (b.makeVoiding_settlesOnly _ _).trans (Records.joinVoid_settlesOnly _ _ _)
    · exact (b.makeVoiding_settlesOnly _ _).trans (Records.joinVoid_settlesOnly _ _ _)
    · exact same _ rfl rfl rfl rfl rfl rfl
    · exact same _ rfl rfl rfl rfl rfl rfl
    · exact same _ rfl rfl rfl rfl rfl rfl

theorem Records.settleAll_settlesOnly (b : Records) (c : Clock) (l : List SlotNo) :
    b.SettlesOnly (b.settleAll c l).1 := by
  induction l generalizing b with
  | nil => exact ⟨⟨rfl, rfl, rfl⟩, rfl, rfl, rfl⟩
  | cons sl rest ih =>
    rw [Records.settleAll_cons]
    exact (b.settleOrder_settlesOnly c sl).trans (ih _)

/-! ## The room released (R40, R41) -/

theorem laterOf_some (a : Option Nat) (m : Nat) : laterOf a (some m) = some (max (a.getD 0) m) := by
  cases a <;> simp [laterOf]

theorem Reason.setsTurnaround_iff (why : Reason) :
    why.setsTurnaround = true ↔ why = .ended ∨ why = .skipped ∨ why = .doorRelease ∨ why = .vacated := by
  cases why <;> simp [Reason.setsTurnaround]

theorem Reason.minute_eq (why : Reason) (k : Booking) (now : Nat) :
    why.minute k now = if why = .ended ∨ why = .skipped then k.stop else now := by
  cases why <;> rfl

theorem Room.released_eq (x : Room) (why : Reason) (minute : Nat) :
    x.released why minute = { x with
      lastRelease := some (why, minute)
      turnaround :=
        if why = .ended ∨ why = .skipped ∨ why = .doorRelease ∨ why = .vacated then
          some (max (x.turnaround.getD 0) (minute + x.attrs.gap))
        else x.turnaround } := by
  simp only [Room.released, Reason.setsTurnaround_iff, laterOf_some]

/-- The notice of a reason raised changes the notices alone. -/
theorem Records.raiseRoom?_eq (b : Records) (r : RoomNo) (n : Option RoomNotice) :
    b.raiseRoom? r n = { b with notices := (b.raiseRoom? r n).notices } := by
  cases n <;> rfl

/-- The records when the room of a retired booking has been released and its panels marked, before the notice. -/
def Records.releasedRoom (b : Records) (k : Booking) (why : Reason) (minute : Nat) : Records :=
  (b.setRoom k.room ((b.room k.room).released why minute)).markShowing k.room

theorem Records.releasedRoom_marks (b : Records) (k : Booking) (why : Reason) (minute : Nat) :
    b.Marks (b.releasedRoom k why minute) (fun q => q = k.room ∨ q ∈ (b.room k.room).attrs.members.getD []) := by
  refine (Records.markRooms_marks _ _).of_lines rfl rfl fun q => ?_
  simp [Records.shownOn, Room.released]

/-- A retirement is the settlement of the annex chain under the room and lines of the booking unlinked, the slot
returned, the room released and its notice raised (R68). -/
theorem Records.retire_eq (b : Records) (c : Clock) (sl : SlotNo) (k : Booking) (why : Reason) :
    b.retire c sl k why =
      ((((((b.settleAll c k.annex).1.withView (b.unlink k.room sl).rooms (b.unlink k.room sl).lines).returnSlot
        sl).releasedRoom k why (why.minute k c.minute)).raiseRoom? k.room why.notice?),
        (b.settleAll c k.annex).2) := by
  have hsettled : (b.unlink k.room sl).settleAll c k.annex =
      ((b.settleAll c k.annex).1.withView (b.unlink k.room sl).rooms (b.unlink k.room sl).lines,
        (b.settleAll c k.annex).2) := by
    rw [Records.withView_unlink, Records.settleAll_withView]; rfl
  unfold Records.retire
  rw [hsettled]; rfl

/-- Settles O38: `retire_eq` splits a retirement into its steps, and each table is read after the step that writes
it. -/
theorem retirementReleasesRoom : Obligations.RetirementReleasesRoom := by
  intro b c sl k why hk t x minute settle settled b'
  have hsettled : settled = b.settleAll c k.annex := (b.settleAll_eq_foldl c k.annex).symm
  have hb' : b' = (b.settleAll c k.annex).1 := congrArg Prod.fst hsettled
  obtain ⟨hrooms, hlines, hnotices⟩ := (b.settleAll_settlesOnly c k.annex).orders
  have hframe := b.settleAll_settlesOnly c k.annex
  have hkept : b'.slot sl = b.slot sl := hb' ▸ Records.settleAll_slot_booking hk c k.annex
  have hminute : why.minute k c.minute = minute := why.minute_eq k c.minute
  have ht : t = ((((b'.withView (b.unlink k.room sl).rooms (b.unlink k.room sl).lines).returnSlot
      sl).releasedRoom k why minute).raiseRoom? k.room why.notice?, settled.2) := by
    rw [hb', hsettled, ← hminute]
    exact b.retire_eq c sl k why
  clear_value t b' settled minute
  subst ht hb'
  have hsum := b.settleAll_counts c k.annex
  rw [Records.raiseRoom?_eq]
  refine ⟨rfl, hsettled ▸ hsum, fun ha => ?_, ?_, fun y hy => ?_, rfl, rfl, rfl, hframe.state, hframe.floor,
    hframe.horizon, ?_, fun q hq => ?_, ?_, ?_, rfl, rfl⟩
  · rw [hsettled, ha]; exact ⟨rfl, rfl⟩
  · refine (Records.returnSlot_slot_same _ _).trans ?_
    exact congrArg (fun y : Slot => ({ gen := y.gen + 1, body := .free } : Slot)) hkept
  · exact Records.returnSlot_slot_other _ hy
  · have hview : (((b.settleAll c k.annex).1.withView (b.unlink k.room sl).rooms
        (b.unlink k.room sl).lines).returnSlot sl).room k.room =
        { x with chain := x.chain.filter fun y => decide (y ≠ sl) } := b.unlink_room_same k.room sl
    refine (Records.setRoom_room_same _ _ _).trans ?_
    rw [hview, Room.released_eq]
  · exact (Records.setRoom_room_other _ _ hq).trans (b.unlink_room_other sl hq)
  · refine ((b.unlink_marks k.room sl).trans ((Records.releasedRoom_marks _ k why minute).of_lines rfl rfl
      fun q => .rfl)).of_lines rfl rfl fun q => ?_
    rw [b.unlink_room_same]
    exact or_self_iff.symm
  · cases why <;> exact hnotices ▸ rfl

end Sys2Proof.Machine

/-! The ticket frame in flight settled, and order reports taken (R141, R142, R143). -/

namespace Sys2Proof.Machine

open Sys2Proof

/-! ## The order that the frame in flight names (R141) -/

theorem Records.inFlightAtHead_iff {b : Records} {k : KitchenNo} {f : Handle × Bool} {e : QueueEntry}
    {rest : List QueueEntry} (hf : (b.queue k).inFlight = some f) (he : (b.queue k).entries = e :: rest)
    (sl : SlotNo) : b.inFlightAtHead k sl = true ↔ e.slot = sl ∧ f.1 = b.orderHandle sl := by
  unfold Records.inFlightAtHead; rw [hf, he]; simp

theorem Records.inFlightAtHead_idle {b : Records} {k : KitchenNo} (h : (b.queue k).inFlight = none) (sl : SlotNo) :
    b.inFlightAtHead k sl = false := by
  unfold Records.inFlightAtHead; rw [h]

/-- The frame in flight concerns the order at the head of the queue exactly when it carries that order's handle. -/
theorem Records.headInFlight_iff {b : Records} {k : KitchenNo} {sl : SlotNo} {o : Order} {sent : Bool} :
    b.headInFlight k = some (sl, o, sent) ↔
      (b.queue k).entries.head?.map (fun e => e.slot) = some sl ∧
      (b.queue k).inFlight = some (b.orderHandle sl, sent) ∧ (b.slot sl).body = .order o := by
  unfold Records.headInFlight
  cases hf : (b.queue k).inFlight with
  | none => cases (b.queue k).entries.head? <;> simp
  | some f =>
    cases he : (b.queue k).entries with
    | nil => simp
    | cons e rest =>
      simp only [List.head?_cons, Option.map_some, Option.some.injEq]
      by_cases hat : b.inFlightAtHead k e.slot = true
      · have hname := ((Records.inFlightAtHead_iff hf he _).mp hat).2
        rw [if_pos hat, Option.map_eq_some_iff]
        constructor
        · rintro ⟨o', ho', heq⟩
          cases heq
          exact ⟨rfl, Prod.ext hname rfl, Records.order?_eq_some.mp ho'⟩
        · rintro ⟨rfl, rfl, ho⟩
          exact ⟨o, Records.order?_eq_some.mpr ho, rfl⟩
      · rw [if_neg hat]
        refine ⟨nofun, ?_⟩
        rintro ⟨rfl, rfl, -⟩
        exact absurd ((Records.inFlightAtHead_iff hf he _).mpr ⟨rfl, rfl⟩) hat

theorem Records.headInFlight_idle {b : Records} {k : KitchenNo} (h : (b.queue k).inFlight = none) :
    b.headInFlight k = none := by
  unfold Records.headInFlight
  rw [h]
  cases (b.queue k).entries.head? <;> rfl

/-! ## The order taken off its queue -/

theorem Records.setQueue_self (b : Records) (k : KitchenNo) : b.setQueue k (b.queue k) = b := by
  have h : b.queues.set k.val (b.queue k) = b.queues := Vector.set_getElem_self ..
  simp only [Records.setQueue, h]

theorem Records.setInFlight_idle {b : Records} {k : KitchenNo} (h : (b.queue k).inFlight = none) :
    b.setInFlight k none = b := by
  have hq : ({ (b.queue k) with inFlight := none } : TicketQueue) = b.queue k := by rw [← h]
  rw [Records.setInFlight, hq, Records.setQueue_self]

/-- The queue once its frame in flight is cleared and the entries of slot `sl` have left it. -/
def Records.unsent (b : Records) (k : KitchenNo) (sl : SlotNo) : Records := (b.setInFlight k none).leaveQueue k sl

theorem Records.setInFlight_queue (b : Records) (k : KitchenNo) (f : Option (Handle × Bool)) :
    (b.setInFlight k f).queue k = { b.queue k with inFlight := f } := b.setQueue_queue_same _ _

theorem Records.unsent_queue (b : Records) (k : KitchenNo) (sl : SlotNo) :
    (b.unsent k sl).queue k =
      { entries := (b.queue k).entries.filter fun e => decide (e.slot ≠ sl), inFlight := none } := by
  rw [Records.unsent, Records.leaveQueue, Records.setQueue_queue_same, Records.setInFlight_queue]

/-- A void joins a queue without a frame in flight behind the last void that waits (R139). -/
theorem Records.joinVoid_idle {b : Records} {k : KitchenNo} (h : (b.queue k).inFlight = none) (sl : SlotNo) :
    b.joinVoid k sl = b.setQueue k { b.queue k with entries := insertVoid sl (b.queue k).entries } := by
  unfold Records.joinVoid
  dsimp only
  split
  · rename_i he; rw [he]; rfl
  · rename_i he; rw [if_neg (by rw [Records.inFlightAtHead_idle h]; nofun), he]

/-! ## What the settlement of a frame leaves -/

/-- From `b` to `b'` only slot `sl` with its pool and queue `k` may have changed. -/
structure Records.TicketOnly (b b' : Records) (k : KitchenNo) (sl : SlotNo) : Prop where
  rooms : b'.rooms = b.rooms
  kitchens : b'.kitchens = b.kitchens
  lines : b'.lines = b.lines
  notices : b'.notices = b.notices
  slots : ∀ y : SlotNo, y ≠ sl → b'.slot y = b.slot y
  queues : ∀ p : KitchenNo, p ≠ k → b'.queue p = b.queue p

section TicketOnly

variable (b : Records) (k : KitchenNo) (sl : SlotNo)

theorem Records.TicketOnly.trans {b b' b'' : Records} {k : KitchenNo} {sl : SlotNo} (h : b.TicketOnly b' k sl)
    (h' : b'.TicketOnly b'' k sl) : b.TicketOnly b'' k sl :=
  ⟨h'.rooms.trans h.rooms, h'.kitchens.trans h.kitchens, h'.lines.trans h.lines, h'.notices.trans h.notices,
    fun y hy => (h'.slots y hy).trans (h.slots y hy), fun p hp => (h'.queues p hp).trans (h.queues p hp)⟩

theorem Records.setQueue_ticketOnly (q : TicketQueue) : b.TicketOnly (b.setQueue k q) k sl :=
  ⟨rfl, rfl, rfl, rfl, fun _ _ => rfl, fun _ hp => b.setQueue_queue_other q hp⟩

theorem Records.unsent_ticketOnly : b.TicketOnly (b.unsent k sl) k sl :=
  (b.setQueue_ticketOnly k sl _).trans (Records.setQueue_ticketOnly _ k sl _)

theorem Records.returnSlot_ticketOnly : b.TicketOnly (b.returnSlot sl) k sl :=
  ⟨rfl, rfl, rfl, rfl, fun _ hy => b.returnSlot_slot_other hy, fun _ _ => rfl⟩

theorem Records.setBody_ticketOnly (x : SlotBody) : b.TicketOnly (b.setBody sl x) k sl :=
  ⟨rfl, rfl, rfl, rfl, fun _ hy => b.setBody_slot_other x hy, fun _ _ => rfl⟩

end TicketOnly

/-! ## The outcomes of an answer and of a loss -/

section Settled

variable {b : Records} {k : KitchenNo} {sl : SlotNo} {o : Order} {sent : Bool}

theorem Records.settleAnswer_none (h : b.headInFlight k = none) : b.settleAnswer k = b.setInFlight k none := by
  unfold Records.settleAnswer; rw [h]

theorem Records.settleLoss_none (h : b.headInFlight k = none) : b.settleLoss k = b.setInFlight k none := by
  unfold Records.settleLoss; rw [h]

theorem Records.settleAnswer_void (h : b.headInFlight k = some (sl, o, true)) :
    b.settleAnswer k = if o.state = .voiding then (b.unsent k sl).returnSlot sl else b.setInFlight k none := by
  unfold Records.settleAnswer; rw [h]; rfl

theorem Records.settleAnswer_ticket (h : b.headInFlight k = some (sl, o, false)) :
    b.settleAnswer k =
      if o.state = .queued then (b.unsent k sl).setBody sl (.order { o with state := .ticketed })
      else if o.state = .voiding then
        (b.unsent k sl).setQueue k { (b.unsent k sl).queue k with
          entries := insertVoid sl ((b.unsent k sl).queue k).entries }
      else b.setInFlight k none := by
  have hidle : ((b.unsent k sl).queue k).inFlight = none := by rw [Records.unsent_queue]
  rw [← Records.joinVoid_idle hidle]
  unfold Records.settleAnswer; rw [h]; rfl

theorem Records.settleLoss_void (h : b.headInFlight k = some (sl, o, true)) :
    b.settleLoss k = b.setInFlight k none := by
  unfold Records.settleLoss; rw [h]

theorem Records.settleLoss_ticket (h : b.headInFlight k = some (sl, o, false)) :
    b.settleLoss k = if o.state = .voiding then (b.unsent k sl).returnSlot sl else b.setInFlight k none := by
  unfold Records.settleLoss; rw [h]; rfl

theorem Records.setInFlight_settled :
    b.TicketOnly (b.setInFlight k none) k sl ∧ ((b.setInFlight k none).queue k).inFlight = none :=
  ⟨b.setQueue_ticketOnly k sl _, by rw [Records.setInFlight_queue]⟩

theorem Records.unsent_returned_settled :
    b.TicketOnly ((b.unsent k sl).returnSlot sl) k sl ∧ (((b.unsent k sl).returnSlot sl).queue k).inFlight = none :=
  ⟨(b.unsent_ticketOnly k sl).trans (Records.returnSlot_ticketOnly _ k sl),
    by rw [Records.returnSlot_queue, Records.unsent_queue]⟩

/-- An answer clears the frame in flight and concerns its order and its queue alone (R141). -/
theorem Records.settleAnswer_settled (h : b.headInFlight k = some (sl, o, sent)) :
    b.TicketOnly (b.settleAnswer k) k sl ∧ ((b.settleAnswer k).queue k).inFlight = none := by
  cases sent with
  | true =>
    rw [Records.settleAnswer_void h]
    split
    · exact Records.unsent_returned_settled
    · exact Records.setInFlight_settled
  | false =>
    rw [Records.settleAnswer_ticket h]
    split
    · exact ⟨(b.unsent_ticketOnly k sl).trans (Records.setBody_ticketOnly _ k sl _),
        by rw [Records.setBody_queue, Records.unsent_queue]⟩
    · split
      · exact ⟨(b.unsent_ticketOnly k sl).trans (Records.setQueue_ticketOnly _ k sl _),
          by rw [Records.setQueue_queue_same, Records.unsent_queue]⟩
      · exact Records.setInFlight_settled

/-- A loss clears the frame in flight and concerns its order and its queue alone (R142). -/
theorem Records.settleLoss_settled (h : b.headInFlight k = some (sl, o, sent)) :
    b.TicketOnly (b.settleLoss k) k sl ∧ ((b.settleLoss k).queue k).inFlight = none := by
  cases sent with
  | true =>
    rw [Records.settleLoss_void h]
    exact Records.setInFlight_settled
  | false =>
    rw [Records.settleLoss_ticket h]
    split
    · exact Records.unsent_returned_settled
    · exact Records.setInFlight_settled

/-- A VOIDING order whose void was answered, or whose ticket was lost, is returned and has left its queue. -/
theorem Records.unsent_returned (b : Records) (k : KitchenNo) (sl : SlotNo) :
    ((b.unsent k sl).returnSlot sl).slot sl = { gen := (b.slot sl).gen + 1, body := .free } ∧
    ((b.unsent k sl).returnSlot sl).pool.freeList = sl :: b.pool.freeList ∧
    (((b.unsent k sl).returnSlot sl).queue k).entries =
      (b.queue k).entries.filter fun e => decide (e.slot ≠ sl) :=
  ⟨Records.returnSlot_slot_same _ _, rfl, by rw [Records.returnSlot_queue, Records.unsent_queue]⟩

theorem Records.setInFlight_kept (b : Records) (k : KitchenNo) :
    (b.setInFlight k none).pool = b.pool ∧ ((b.setInFlight k none).queue k).entries = (b.queue k).entries :=
  ⟨rfl, by rw [Records.setInFlight_queue]⟩

end Settled

/-! ## Order reports (R143) -/

/-- A handle that passes the check for an order names the order of its slot. -/
theorem Records.checkHandle_order {b : Records} {h : Handle} {sl : SlotNo} (hc : b.checkHandle orderKind h = .ok sl) :
    h = b.orderHandle sl ∧ ∃ o, (b.slot sl).body = .order o := by
  obtain ⟨hkind, hslot, hbody, hgen⟩ := Records.checkHandle_ok hc
  refine ⟨?_, ?_⟩
  · obtain ⟨kind, gen, slot⟩ := h
    subst hkind hslot hgen
    rfl
  · cases hb : (b.slot sl).body with
    | free => rw [hb] at hbody; cases hbody
    | booking k => rw [hb] at hbody; cases hbody
    | order o => exact ⟨o, rfl⟩

theorem Records.takeReport_unnamed {b : Records} {h : Handle} (hn : ∀ sl, b.checkHandle orderKind h ≠ .ok sl)
    (k : KitchenNo) (kind : Byte) : b.takeReport k { kind := kind, handle := h } = b := by
  unfold Records.takeReport
  dsimp only
  split
  · rfl
  · rename_i hc; exact absurd hc (hn _)

/-- The records after the report of an order's move to `st` (R143). -/
def Records.reported (b : Records) (sl : SlotNo) (o : Order) (st : OrderState) : Records :=
  if st = .done then (b.setBody sl (.order { o with state := st })).raise (.room o.room .orderDone)
  else b.setBody sl (.order { o with state := st })

theorem Records.takeReport_named {b : Records} {sl : SlotNo} {o : Order} (ho : (b.slot sl).body = .order o)
    (k : KitchenNo) (kind : Byte) :
    b.takeReport k { kind := kind, handle := b.orderHandle sl } =
      if o.kitchen = k then
        (({ kind := kind, handle := b.orderHandle sl } : Report).acts o.state).elim b (b.reported sl o)
      else b := by
  have hc : b.checkHandle orderKind (b.orderHandle sl) = .ok sl :=
    Records.checkHandle_of_body (kind := orderKind) (by rw [ho]; rfl)
  unfold Records.takeReport
  dsimp only
  rw [hc]
  dsimp only
  rw [Records.order?_eq_some.mpr ho]
  dsimp only
  split
  · cases ({ kind := kind, handle := b.orderHandle sl } : Report).acts o.state <;> rfl
  · rfl

/-- Settles O54: the frame by what it names at the head of the queue, and a report by its kind and the order's
state. -/
theorem ticketFramesSettled : Obligations.TicketFramesSettled := by
  intro b k q named
  refine ⟨fun h sent hf hn => ?_, fun kind h hn => ?_, fun sl o ho => ?_⟩
  · have hnone : b.headInFlight k = none := by
      refine Option.eq_none_iff_forall_ne_some.mpr fun ⟨sl, o, sent'⟩ hsome => ?_
      obtain ⟨hhead, hflight, ho⟩ := Records.headInFlight_iff.mp hsome
      obtain ⟨e, he, rfl⟩ := Option.map_eq_some_iff.mp hhead
      obtain ⟨rfl, -⟩ : h = b.orderHandle e.slot ∧ sent = sent' := by
        have := hf.symm.trans hflight
        simpa using this
      exact hn e he ⟨rfl, o, ho⟩
    exact ⟨Records.settleAnswer_none hnone, Records.settleLoss_none hnone⟩
  · exact Records.takeReport_unnamed (fun sl hc => hn sl (Records.checkHandle_order hc)) k kind
  · intro name others gone rest
    refine ⟨fun sent hhead hf => ?_, fun hidle => ?_, fun kind h hne hslot => ?_,
      fun kind => ⟨fun hk => ?_, fun hk => ?_⟩⟩
    · have hsome : b.headInFlight k = some (sl, o, sent) := Records.headInFlight_iff.mpr ⟨hhead, hf, ho⟩
      obtain ⟨ht, htf⟩ := Records.settleAnswer_settled hsome
      obtain ⟨hu, huf⟩ := Records.settleLoss_settled hsome
      obtain ⟨hslot, hfree, hentries⟩ := b.unsent_returned k sl
      refine ⟨⟨ht.rooms, ht.kitchens, ht.lines, ht.slots, ht.queues⟩,
        ⟨hu.rooms, hu.kitchens, hu.lines, hu.slots, hu.queues⟩, ht.notices, hu.notices, htf, huf, ?_, ?_, ?_, ?_, ?_, ?_⟩
      · rintro rfl hv
        rw [Records.settleAnswer_void hsome, if_pos hv]
        exact ⟨⟨hslot, hfree⟩, hentries⟩
      · rintro rfl hq
        rw [Records.settleAnswer_ticket hsome, if_pos hq]
        exact ⟨by rw [Records.setBody_queue, Records.unsent_queue], rfl, Records.setBody_slot_same _ _ _⟩
      · rintro rfl hv
        rw [Records.settleAnswer_ticket hsome, if_neg (by rw [hv]; nofun), if_pos hv]
        obtain ⟨front, back, hsplit, hins, hback, hfront⟩ := insertVoid_eq sl rest
        refine ⟨rfl, front, back, hsplit, ?_, hback, hfront⟩
        rw [Records.setQueue_queue_same, Records.unsent_queue]
        exact hins
      · rintro rfl
        rw [Records.settleLoss_void hsome]
        exact b.setInFlight_kept k
      · rintro rfl hv
        rw [Records.settleLoss_ticket hsome, if_pos hv]
        exact ⟨⟨hslot, hfree⟩, hentries⟩
      · rintro rfl hv
        rw [Records.settleLoss_ticket hsome, if_neg hv]
        exact b.setInFlight_kept k
    · have hnone := Records.headInFlight_idle hidle
      rw [Records.settleAnswer_none hnone, Records.settleLoss_none hnone, Records.setInFlight_idle hidle]
      exact ⟨rfl, rfl⟩
    · refine Records.takeReport_unnamed (fun sl' hc => hne ?_) k kind
      obtain ⟨rfl, -⟩ := Records.checkHandle_order hc
      obtain rfl : sl' = sl := Fin.ext hslot
      rfl
    · exact (Records.takeReport_named ho k kind).trans (if_neg hk)
    · have ht : b.takeReport k { kind := kind, handle := name } =
          (({ kind := kind, handle := name } : Report).acts o.state).elim b (b.reported sl o) :=
        (Records.takeReport_named ho k kind).trans (if_pos hk)
      rw [ht]
      refine ⟨?_, ?_, fun h1 h2 => ?_⟩
      · rintro rfl hst
        rw [hst]; rfl
      · rintro rfl (hst | hst) <;> rw [hst] <;> rfl
      · have hacts : ({ kind := kind, handle := name } : Report).acts o.state = none := by
          simp only [Report.acts]
          split
          · rename_i hkind
            exact if_neg fun hst => h1 ⟨hkind, hst⟩
          · split
            · rename_i hkind
              exact if_neg fun hst => h2 ⟨hkind, hst⟩
            · rfl
        rw [hacts]; rfl

end Sys2Proof.Machine

/-! Handles checked (R18), and what naming a booking or an order answers for each outcome (R53, R133, R135). -/

namespace Sys2Proof.Machine

open Sys2Proof

/-! ## The check of a handle, outcome by outcome (R18) -/

section CheckHandle

variable {b : Records} {kind : Byte} {h : Handle} {sl : SlotNo}

theorem Records.checkHandle_kind (hk : h.kind ≠ kind) : b.checkHandle kind h = .error .wrongKind := if_pos hk

theorem Records.checkHandle_outside (hk : h.kind = kind) (hs : 32768 ≤ h.slot) :
    b.checkHandle kind h = .error .stale := by
  simp only [Records.checkHandle, hk, ne_eq, not_true_eq_false, if_false, slotNo?_none hs]

/-- A handle of the kind asked for that names a slot is judged by that slot. -/
theorem Records.checkHandle_slot (hk : h.kind = kind) (hs : h.slot = sl.val) :
    b.checkHandle kind h = (b.slot sl).body.kind?.elim (.error .stale) fun k =>
      if k ≠ kind then .error .wrongKind else if (b.slot sl).gen ≠ h.gen then .error .stale else .ok sl := by
  simp only [Records.checkHandle, hk, hs, ne_eq, not_true_eq_false, if_false, slotNo?_val]
  cases (b.slot sl).body.kind? <;> rfl

theorem Records.checkHandle_empty (hk : h.kind = kind) (hs : h.slot = sl.val) (hb : (b.slot sl).body = .free) :
    b.checkHandle kind h = .error .stale := by
  rw [Records.checkHandle_slot hk hs, hb]; rfl

theorem Records.checkHandle_other {k : Byte} (hk : h.kind = kind) (hs : h.slot = sl.val)
    (hb : (b.slot sl).body.kind? = some k) (hne : k ≠ kind) : b.checkHandle kind h = .error .wrongKind := by
  rw [Records.checkHandle_slot hk hs, hb]; exact if_pos hne

theorem Records.checkHandle_generation (hk : h.kind = kind) (hs : h.slot = sl.val)
    (hb : (b.slot sl).body.kind? = some kind) (hg : (b.slot sl).gen ≠ h.gen) :
    b.checkHandle kind h = .error .stale := by
  rw [Records.checkHandle_slot hk hs, hb]
  exact (if_neg (not_not.mpr rfl)).trans (if_pos hg)

theorem Records.checkHandle_passes (hk : h.kind = kind) (hs : h.slot = sl.val)
    (hb : (b.slot sl).body.kind? = some kind) (hg : (b.slot sl).gen = h.gen) : b.checkHandle kind h = .ok sl := by
  rw [Records.checkHandle_slot hk hs, hb]
  exact (if_neg (not_not.mpr rfl)).trans (if_neg (not_not.mpr hg))

end CheckHandle

/-! ## READ_BOOKING and READ_ORDER (R67, R136) -/

section Reading

variable {s : State} {h : Handle} {sl : SlotNo}

theorem State.readBooking_error {st : Status} (hr : s.recs.pool.state = .ready)
    (hc : s.recs.checkHandle bookingKind h = .error st) : s.readBooking h = (s, .now st []) := by
  simp only [State.readBooking, (Pool.isReady_iff _).mpr hr, if_true, hc, refuse]

theorem State.readBooking_named {k : Booking} (hr : s.recs.pool.state = .ready)
    (hc : s.recs.checkHandle bookingKind h = .ok sl) (hk : (s.recs.slot sl).body = .booking k) :
    s.readBooking h =
      if k.countsRetired s.clk.minute then (s, .now .stale []) else (s, .now .ok (s.recs.bookingPayload k)) := by
  simp only [State.readBooking, (Pool.isReady_iff _).mpr hr, if_true, hc, Records.booking?_eq_some.mpr hk, refuse]

theorem State.readOrder_error {st : Status} (hr : s.recs.pool.state = .ready)
    (hc : s.recs.checkHandle orderKind h = .error st) : s.readOrder h = (s, .now st []) := by
  simp only [State.readOrder, (Pool.isReady_iff _).mpr hr, if_true, hc, refuse]

theorem State.readOrder_named {o : Order} (hr : s.recs.pool.state = .ready)
    (hc : s.recs.checkHandle orderKind h = .ok sl) (ho : (s.recs.slot sl).body = .order o) :
    s.readOrder h = (s, .now .ok (s.recs.orderPayload sl o)) := by
  simp only [State.readOrder, (Pool.isReady_iff _).mpr hr, if_true, hc, Records.order?_eq_some.mpr ho]

end Reading

theorem Booking.countsRetired_iff (k : Booking) (now : Nat) :
    k.countsRetired now = true ↔
      k.stop ≤ now ∨ (k.state = .held ∧ ∃ e, k.holdExpiry = some e ∧ e ≤ now) := by
  cases he : k.holdExpiry <;> simp [Booking.countsRetired, he]

/-! ## Naming (R53, R133, R135) -/

section Naming

variable {b : Records} {c : Clock} {h : Handle} {sl : SlotNo}

theorem Records.nameBooking_error {st : Status} (hc : b.checkHandle bookingKind h = .error st) :
    b.nameBooking c h = (b, .error st) := by
  simp only [Records.nameBooking, hc]

/-- A booking found by its handle: refused in a CLOSING room, else judged after its conflict set is up to date. -/
theorem Records.nameBooking_found {k : Booking} (hc : b.checkHandle bookingKind h = .ok sl)
    (hk : (b.slot sl).body = .booking k) :
    b.nameBooking c h =
      if (b.room k.room).service = .closing then (b, .error .roomClosed)
      else (b.bringUpSet c k.room, ((b.bringUpSet c k.room).booking? sl).elim (.error .stale) fun k' =>
        if ((b.bringUpSet c k.room).slot sl).gen = h.gen then .ok (sl, k') else .error .stale) := by
  have hclosing : b.isClosing k.room = true ↔ (b.room k.room).service = .closing := by simp [Records.isClosing]
  simp only [Records.nameBooking, hc, Records.booking?_eq_some.mpr hk, hclosing]
  split
  · rfl
  · cases (b.bringUpSet c k.room).booking? sl with
    | none => rfl
    | some k' => dsimp only [Option.elim]; split <;> rfl

theorem Records.nameOrder_error {st : Status} (hc : b.checkHandle orderKind h = .error st) (closes : Bool) :
    b.nameOrder c h closes = (b, .error st) := by
  simp only [Records.nameOrder, hc]

/-- An order found by its handle: refused when VOIDING, for AMEND_ORDER in a CLOSING room, else judged after its room is
up to date. -/
theorem Records.nameOrder_found {o : Order} (hc : b.checkHandle orderKind h = .ok sl)
    (ho : (b.slot sl).body = .order o) (closes : Bool) :
    b.nameOrder c h closes =
      if o.state = .voiding then (b, .error .wrongState)
      else if closes = true ∧ (b.room o.room).service = .closing then (b, .error .roomClosed)
      else (b.bringUp c o.room, ((b.bringUp c o.room).orderStill sl h).map fun o' => (sl, o')) := by
  simp only [Records.nameOrder, hc, Records.order?_eq_some.mpr ho]
  by_cases hv : o.state = .voiding
  · simp [hv]
  · by_cases hcl : closes = true ∧ (b.room o.room).service = .closing
    · simp [hv, hcl, Records.isClosing]
    · have hopen : (!closes || !b.isClosing o.room) = true := by
        cases closes <;> simp_all [Records.isClosing]
      simp only [hv, hcl, if_false, hopen, ne_eq, not_false_eq_true, decide_true, firstRefusal_pass, firstRefusal_nil]
      cases (b.bringUp c o.room).orderStill sl h <;> rfl

theorem Records.orderStill_gone (hg : (b.slot sl).gen ≠ h.gen ∨ ∀ o, (b.slot sl).body ≠ .order o) :
    b.orderStill sl h = .error .stale := by
  unfold Records.orderStill
  split
  · rfl
  · rename_i o ho
    exact if_neg (hg.resolve_right fun hn => hn o (Records.order?_eq_some.mp ho))

theorem Records.orderStill_there {o : Order} (hg : (b.slot sl).gen = h.gen) (ho : (b.slot sl).body = .order o) :
    b.orderStill sl h = if o.state = .voiding then .error .wrongState else .ok o := by
  simp only [Records.orderStill, Records.order?_eq_some.mpr ho, hg, if_true]

end Naming

/-- Settles O27: each outcome of the check of R18 is answered alike by the readers and by naming, and what passes it is
judged further. -/
theorem handlesAreChecked : Obligations.HandlesAreChecked := by
  refine ⟨fun tag h s hidle => ?_, fun b c h => ?_⟩
  · intro booking order
    refine ⟨fun hr => ?_, fun hr => ?_⟩
    · have hready : ¬ s.recs.pool.isReady = true := mt (Pool.isReady_iff _).mp hr
      exact ⟨State.serve_idle_now hidle (if_neg hready), State.serve_idle_now hidle (if_neg hready)⟩
    · have badBooking : ∀ st, s.recs.checkHandle bookingKind h = .error st → booking st [] := fun st hc =>
        State.serve_idle_now hidle (State.readBooking_error hr hc)
      have badOrder : ∀ st, s.recs.checkHandle orderKind h = .error st → order st [] := fun st hc =>
        State.serve_idle_now hidle (State.readOrder_error hr hc)
      refine ⟨fun hk => badBooking _ (Records.checkHandle_kind hk), fun hk => badOrder _ (Records.checkHandle_kind hk),
        fun hs => ⟨fun hk => badBooking _ (Records.checkHandle_outside hk hs),
          fun hk => badOrder _ (Records.checkHandle_outside hk hs)⟩, fun sl hs => ⟨fun hb =>
          ⟨fun hk => badBooking _ (Records.checkHandle_empty hk hs hb),
            fun hk => badOrder _ (Records.checkHandle_empty hk hs hb)⟩, fun k hb => ?_, fun o hb => ?_⟩⟩
      · have hkind : (s.recs.slot sl).body.kind? = some bookingKind := by rw [hb]; rfl
        intro retired
        have hretired : k.countsRetired s.clk.minute = true ↔ retired := k.countsRetired_iff _
        have named : h.kind = 1 → (s.recs.slot sl).gen = h.gen → _ := fun hk hg =>
          State.readBooking_named hr (Records.checkHandle_passes hk hs hkind hg) hb
        refine ⟨fun hk => badOrder _ (Records.checkHandle_other hk hs hkind (by decide)), fun hk hor => ?_,
          fun hk hg hlive => ?_⟩
        · by_cases hg : (s.recs.slot sl).gen = h.gen
          · have hret := hor.resolve_left (not_not.mpr hg)
            exact State.serve_idle_now hidle ((named hk hg).trans (if_pos (hretired.mpr hret)))
          · exact badBooking _ (Records.checkHandle_generation hk hs hkind hg)
        · exact State.serve_idle_now hidle ((named hk hg).trans (if_neg (mt hretired.mp hlive)))
      · have hkind : (s.recs.slot sl).body.kind? = some orderKind := by rw [hb]; rfl
        exact ⟨fun hk => badBooking _ (Records.checkHandle_other hk hs hkind (by decide)),
          fun hk hg => badOrder _ (Records.checkHandle_generation hk hs hkind hg),
          fun hk hg => State.serve_idle_now hidle
            (State.readOrder_named hr (Records.checkHandle_passes hk hs hkind hg) hb)⟩
  · intro booking order
    have badBooking : ∀ st, b.checkHandle bookingKind h = .error st → booking b st := fun st hc =>
      Records.nameBooking_error hc
    have badOrder : ∀ st, b.checkHandle orderKind h = .error st → ∀ closes, order closes b st := fun st hc closes =>
      Records.nameOrder_error hc closes
    refine ⟨fun hk => badBooking _ (Records.checkHandle_kind hk), fun hk => badOrder _ (Records.checkHandle_kind hk),
      fun hs => ⟨fun hk => badBooking _ (Records.checkHandle_outside hk hs),
        fun hk => badOrder _ (Records.checkHandle_outside hk hs)⟩, fun sl hs => ⟨fun hb =>
        ⟨fun hk => badBooking _ (Records.checkHandle_empty hk hs hb),
          fun hk => badOrder _ (Records.checkHandle_empty hk hs hb)⟩, fun k hb => ?_, fun o hb => ?_⟩⟩
    · have hkind : (b.slot sl).body.kind? = some bookingKind := by rw [hb]; rfl
      have found : h.kind = 1 → (b.slot sl).gen = h.gen → _ := fun hk hg =>
        Records.nameBooking_found (c := c) (Records.checkHandle_passes hk hs hkind hg) hb
      refine ⟨fun hk => badOrder _ (Records.checkHandle_other hk hs hkind (by decide)),
        fun hk hg => badBooking _ (Records.checkHandle_generation hk hs hkind hg),
        fun hk hg hcl => (found hk hg).trans (if_pos hcl), fun hk hg hcl => ?_⟩
      have hjudged := (found hk hg).trans (if_neg hcl)
      refine ⟨fun hgone => hjudged.trans ?_, fun k' hg' hk' => hjudged.trans ?_⟩
      · cases hk' : (b.bringUpSet c k.room).booking? sl with
        | none => rfl
        | some k' =>
          have hne := hgone.resolve_right fun hn => hn k' (Records.booking?_eq_some.mp hk')
          rw [Option.elim, if_neg hne]
      · rw [Records.booking?_eq_some.mpr hk', Option.elim, if_pos hg']
    · have hkind : (b.slot sl).body.kind? = some orderKind := by rw [hb]; rfl
      refine ⟨fun hk => badBooking _ (Records.checkHandle_other hk hs hkind (by decide)), fun hk closes => ?_⟩
      have found : (b.slot sl).gen = h.gen → _ := fun hg =>
        Records.nameOrder_found (c := c) (Records.checkHandle_passes hk hs hkind hg) hb closes
      refine ⟨fun hg => badOrder _ (Records.checkHandle_generation hk hs hkind hg) closes,
        fun hg hv => (found hg).trans (if_pos hv),
        fun hg hv hcl hs' => (found hg).trans ((if_neg hv).trans (if_pos ⟨hcl, hs'⟩)), fun hg hv hopen => ?_⟩
      have hjudged := (found hg).trans ((if_neg hv).trans (if_neg (by
        rintro ⟨rfl, hcl⟩
        exact hopen.elim nofun fun hn => hn hcl)))
      refine ⟨fun hgone => hjudged.trans ?_, fun o' hg' ho' => ⟨fun hv' => hjudged.trans ?_,
        fun hv' => hjudged.trans ?_⟩⟩
      · rw [Records.orderStill_gone hgone]; rfl
      · rw [Records.orderStill_there hg' ho', if_pos hv']; rfl
      · rw [Records.orderStill_there hg' ho', if_neg hv']; rfl

end Sys2Proof.Machine

/-! The reading commands on the pool, the kitchens, the nodes, the rooms and the notices (R28, R47, R125, R126, R152,
R183). -/

namespace Sys2Proof.Machine

open Sys2Proof

/-! ## Numbers that name a unit -/

theorem kitchenNo?_val (k : KitchenNo) : kitchenNo? k.val = some k := dif_pos k.isLt

theorem kitchenNo?_none {n : Nat} (h : 8 ≤ n) : kitchenNo? n = none := dif_neg (by omega)

theorem roomNo?_val (r : RoomNo) : roomNo? r.val = some r := dif_pos r.isLt

theorem roomNo?_none {n : Nat} (h : 384 ≤ n) : roomNo? n = none := dif_neg (by omega)

theorem lineNo?_val (l : LineNo) : lineNo? l.val = some l := dif_pos l.isLt

theorem lineNo?_none {n : Nat} (h : 4 ≤ n) : lineNo? n = none := dif_neg (by omega)

theorem nodeNo?_succ (n : NodeNo) : nodeNo? (n.val + 1) = some n :=
  dif_pos ⟨Nat.le_add_left .., Nat.succ_le_of_lt n.isLt⟩

theorem nodeNo?_none {n : Nat} (h : n = 0 ∨ 100 < n) : nodeNo? n = none := dif_neg (by omega)

/-! ## POOL_STATUS (R28) -/

/-- The slot holds a VOIDING order. -/
def SlotBody.isVoiding : SlotBody → Bool
  | .order o => decide (o.state = .voiding)
  | _ => false

/-- POOL_STATUS counts the BOOKING slots, the ORDER slots and the VOIDING orders. -/
theorem Records.slotCounts_eq (b : Records) :
    b.slotCounts = (b.countSlots fun x => decide (x.kind? = some 1), b.countSlots fun x => decide (x.kind? = some 2),
      b.countSlots SlotBody.isVoiding) := by
  have same : ∀ {p q : SlotBody → Bool}, (∀ x, p x = q x) → b.countSlots p = b.countSlots q := fun h =>
    congrArg b.countSlots (funext h)
  unfold Records.slotCounts
  rw [Prod.mk.injEq, Prod.mk.injEq]
  refine ⟨same fun x => ?_, same fun x => ?_, same fun x => ?_⟩ <;> cases x <;> rfl

/-! ## READ_ROOM (R47) and READ_WINDOW (R126) -/

/-- Setting the ring entry of window `w` to the units it holds touches the ring alone, and no window of another
entry. -/
theorem Kitchen.touch_frame (k : Kitchen) (w : Nat) :
    { k.touch w with ring := k.ring } = k ∧
    ∀ v, v = w ∨ v % 336 ≠ w % 336 → (k.touch w).committed v = k.committed v := by
  refine ⟨rfl, fun v hv => ?_⟩
  rcases hv with rfl | hv
  · exact Kitchen.commit_committed_same ..
  · exact Kitchen.commit_committed_other _ _ hv.symm

/-- The items of READ_WINDOW are the same after the entry of the window has been set. -/
theorem Records.windowPayload_touch (b : Records) (w0 : Nat) (k : KitchenNo) {w : Nat} :
    (b.setKitchen k ((b.kitchen k).touch w)).windowPayload w0 k w = b.windowPayload w0 k w := by
  have hcommitted := ((b.kitchen k).touch_frame w).2 w (.inl rfl)
  simp only [Records.windowPayload, Records.setKitchen_kitchen_same, hcommitted]
  rfl

theorem State.readWindow_within {s : State} {k : KitchenNo} {w : Nat}
    (h : s.clk.w0 ≤ w ∧ w ≤ s.clk.w0 + 335) :
    s.readWindow k.val w = (s.withRecs (s.recs.setKitchen k ((s.recs.kitchen k).touch w)),
      .now .ok (s.recs.windowPayload s.clk.w0 k w)) := by
  simp only [State.readWindow, kitchenNo?_val, if_pos h, Records.windowPayload_touch]

/-- Settles O28: each command by what its numbers name. -/
theorem readingCommandsAnswer : Obligations.ReadingCommandsAnswer := by
  intro tag s hidle b now w0 count
  refine ⟨?_, fun n hn => ?_, fun k => ?_, fun l n hl => ?_, fun l n hn => ?_, fun l n => ?_, ?_, fun n hn => ?_,
    fun r => ⟨s.recs.clearTurnaround now r, ?_, s.recs.clearTurnaround_eq now r, fun q hq => ?_, ?_⟩, fun n w hn => ?_,
    fun k w => ⟨fun hw => ?_, fun hlo hhi => ?_⟩⟩
  · refine State.serve_idle_now (act := fun s => (s, .now .ok s.recs.poolPayload)) hidle ?_
    rw [Records.poolPayload, s.recs.slotCounts_eq]
    rfl
  · exact State.serve_idle_now hidle (by simp only [State.readKitchen, kitchenNo?_none hn, refuse])
  · exact State.serve_idle_now hidle (by simp only [State.readKitchen, kitchenNo?_val]; rfl)
  · exact State.serve_idle_now hidle (by simp only [State.readNode, lineAndNode, lineNo?_none hl, refuse])
  · exact State.serve_idle_now hidle
      (by simp only [State.readNode, lineAndNode, lineNo?_val, nodeNo?_none hn, refuse])
  · exact State.serve_idle_now hidle (by simp only [State.readNode, lineAndNode, lineNo?_val, nodeNo?_succ]; rfl)
  · exact State.serve_idle_now (act := fun s => (s, .now .ok s.recs.notices.summary)) hidle rfl
  · exact State.serve_idle_now hidle (by simp only [State.readRoom, roomNo?_none hn, refuse])
  · exact State.serve_idle_now hidle (by simp only [State.readRoom, roomNo?_val]; rfl)
  · rw [Records.clearTurnaround_room, if_neg hq]
  · rw [Records.clearTurnaround_room, if_pos rfl]
  · exact State.serve_idle_now hidle (by simp only [State.readWindow, kitchenNo?_none hn, refuse])
  · have hout : ¬ (s.clk.w0 ≤ w ∧ w ≤ s.clk.w0 + 335) := by
      change ¬ (w0 ≤ w ∧ w ≤ w0 + 335)
      omega
    exact State.serve_idle_now hidle (by simp only [State.readWindow, kitchenNo?_val, if_neg hout, refuse])
  · intro x tod
    obtain ⟨hring, hcommitted⟩ := x.touch_frame w
    refine ⟨s.recs.setKitchen k (x.touch w), ?_, rfl, fun q hq => s.recs.setKitchen_kitchen_other _ hq, ?_,
      fun v hv => ?_⟩
    · refine (State.serve_idle_now hidle (State.readWindow_within ⟨hlo, hhi⟩)).trans ?_
      have hnow : w ≤ s.clk.w0 ↔ w = w0 := ⟨fun h => Nat.le_antisymm h hlo, fun h => h.le⟩
      simp only [Records.windowPayload, hnow, yesNo, decide_eq_true_eq]
      rfl
    · rw [Records.setKitchen_kitchen_same]; exact hring
    · rw [Records.setKitchen_kitchen_same]; exact hcommitted v hv

end Sys2Proof.Machine

/-! CHECK_IN, RELEASE, EXTEND and WALK_UP on a view brought up to date (R80, R83 to R86). -/

namespace Sys2Proof.Machine

open Sys2Proof

/-! ## The choices on a view -/

section View

variable {b : Records} {now : Nat} {r : RoomNo} {x : Seen}

theorem Records.occupied_iff (b : Records) (now : Nat) (r : RoomNo) :
    b.occupied now r = true ↔ ∃ x ∈ b.livingView now r, x.booking.state = .arriving ∨ x.booking.state = .inUse := by
  simp [Records.occupied, Seen.isIn, or_comm]

theorem Records.arrivingIn_eq (b : Records) (now : Nat) (r : RoomNo) :
    b.arrivingIn now r =
      (b.livingView now r).find? fun x => decide (x.booking.state = .arriving ∧ x.booking.checkedIn = false) := by
  refine congrArg (fun p => (b.livingView now r).find? p) (funext fun x => ?_)
  simp [Seen.isIn]

theorem Records.releasableIn_eq (b : Records) (now : Nat) (r : RoomNo) :
    b.releasableIn now r = (b.inUseIn now r).or ((b.livingView now r).find? fun x => x.isIn .arriving) := by
  unfold Records.releasableIn
  cases b.inUseIn now r <;> rfl

theorem Records.isClosing_iff (b : Records) (r : RoomNo) : b.isClosing r = true ↔ (b.room r).service = .closing := by
  simp [Records.isClosing]

theorem Records.arrivingIn_of_free (h : ¬ b.occupied now r = true) : b.arrivingIn now r = none := by
  rw [Records.arrivingIn_eq, List.find?_eq_none]
  intro x hx hp
  have hstate := (of_decide_eq_true hp).1
  exact h ((b.occupied_iff now r).mpr ⟨x, hx, .inl hstate⟩)

theorem Records.arrivingIn_state (h : b.arrivingIn now r = some x) : x.booking.state = .arriving := by
  rw [Records.arrivingIn_eq] at h
  have := List.find?_some h
  exact (of_decide_eq_true this).1

end View

/-! ## CHECK_IN and RELEASE (R80, R84) -/

section Requests

variable {b : Records} {c : Clock} {r : RoomNo} {x : Seen}

theorem Records.panelCheckIn_none (h : b.arrivingIn c.minute r = none) :
    b.panelCheckIn c r = if b.occupied c.minute r then (b, .already) else (b, .nothing) := by
  simp only [Records.panelCheckIn, h]

theorem Records.panelCheckIn_some (h : b.arrivingIn c.minute r = some x) :
    b.panelCheckIn c r =
      if b.isClosing x.chainRoom then (b, .closed) else (b.checkInAt c.minute x, .checkedIn) := by
  simp only [Records.panelCheckIn, h]

theorem Records.panelRelease_none (h : b.releasableIn c.minute r = none) : b.panelRelease c r = (b, .nothing) := by
  simp only [Records.panelRelease, h]

theorem Records.panelRelease_some (h : b.releasableIn c.minute r = some x) :
    b.panelRelease c r = if b.isClosing x.chainRoom then (b, .closed)
      else ((b.retire c x.slot x.booking .doorRelease).1, .released) := by
  simp only [Records.panelRelease, h]

/-! ## EXTEND (R83) -/

theorem Records.panelExtend_none (h : b.inUseIn c.minute r = none) : b.panelExtend c r = (b, .nothing) := by
  simp only [Records.panelExtend, h]

theorem Records.panelExtend_closing (h : b.inUseIn c.minute r = some x)
    (hc : (b.room x.chainRoom).service = .closing) : b.panelExtend c r = (b, .closed) := by
  simp only [Records.panelExtend, h, (b.isClosing_iff _).mpr hc, if_true]

/-- EXTEND of a booking of a room not CLOSING: the rest of the conflict set is brought up to date first. -/
theorem Records.panelExtend_open (h : b.inUseIn c.minute r = some x)
    (hc : (b.room x.chainRoom).service ≠ .closing) {b1 : Records}
    (hb1 : b.bringUpAll c (b.restOfSet x.chainRoom r) = b1) :
    b.panelExtend c r = (b1.booking? x.slot).elim (b1, .nothing) fun k =>
      if (b1.slot x.slot).gen = (b.slot x.slot).gen then b1.extendBooking c x.chainRoom x.slot k
      else (b1, .nothing) := by
  simp only [Records.panelExtend, h, mt (b.isClosing_iff _).mp hc, hb1]
  cases b1.booking? x.slot <;> rfl

/-- EXTEND of a booking found again: the room, the extensions and last minute, and the obstacle are judged in turn. -/
theorem Records.panelExtend_found {k : Booking} (h : b.inUseIn c.minute r = some x)
    (hc : (b.room x.chainRoom).service ≠ .closing) {b1 : Records}
    (hb1 : b.bringUpAll c (b.restOfSet x.chainRoom r) = b1) (hg : (b1.slot x.slot).gen = (b.slot x.slot).gen)
    (hk : (b1.slot x.slot).body = .booking k) :
    b.panelExtend c r = b1.extendBooking c x.chainRoom x.slot k := by
  rw [Records.panelExtend_open h hc hb1, Records.booking?_eq_some.mpr hk, Option.elim, if_pos hg]

theorem Records.restOfSet_plain {q : RoomNo} (h : (b.room q).attrs.members = none) (r : RoomNo) :
    b.restOfSet q r = [] := by
  simp [Records.restOfSet, Room.isCombined, h]

theorem Records.restOfSet_combined {q : RoomNo} {ms : List RoomNo} (h : (b.room q).attrs.members = some ms)
    (r : RoomNo) : b.restOfSet q r = (b.conflictSet q).filter fun m => decide (m ∉ b.conflictSet r) := by
  simp [Records.restOfSet, Room.isCombined, h]

theorem Records.bookable_plain {q : RoomNo} (h : (b.room q).attrs.members = none) :
    b.bookable q = true ↔ (b.room q).service = .inService := by
  rw [Records.bookable_iff, h]; simp

end Requests

section Extend

variable {b : Records} {c : Clock} {q : RoomNo} {sl : SlotNo} {k : Booking}

theorem Records.extendBooking_closed (h : ¬ b.bookable q = true) : b.extendBooking c q sl k = (b, .closed) :=
  if_neg h

theorem Records.extendBooking_full (h : b.bookable q = true) (hf : 4 ≤ k.extensions ∨ 16777215 < k.stop + 15) :
    b.extendBooking c q sl k = (b, .extLimit) :=
  (if_pos h).trans (if_pos hf)

theorem Records.extendBooking_conflict (h : b.bookable q = true) (hf : ¬ (4 ≤ k.extensions ∨ 16777215 < k.stop + 15))
    (ho : b.obstacle c.minute q (some sl) false k.start (k.stop + 15) ≠ none) :
    b.extendBooking c q sl k = (b, .extConflict) := by
  obtain ⟨o, ho⟩ := Option.ne_none_iff_exists'.mp ho
  refine (if_pos h).trans ((if_neg hf).trans ?_)
  rw [ho]

theorem Records.extendBooking_extends (h : b.bookable q = true) (hf : ¬ (4 ≤ k.extensions ∨ 16777215 < k.stop + 15))
    (ho : b.obstacle c.minute q (some sl) false k.start (k.stop + 15) = none) :
    b.extendBooking c q sl k =
      (((b.setBody sl (.booking { k with stop := k.stop + 15, extensions := k.extensions + 1 })).markShowing q).raise
        (.room q .extended), .extended (k.stop + 15)) := by
  refine (if_pos h).trans ((if_neg hf).trans ?_)
  rw [ho]

end Extend

/-! ## WALK_UP (R85, R86) -/

/-- A least value over the entries of a list that qualify: it is the first value or one of theirs, and at most each. -/
theorem foldl_min_spec {α : Type} (p : α → Prop) [DecidablePred p] (f : α → Nat) (l : List α) (e : Nat) :
    (l.foldl (fun e x => if p x then min e (f x) else e) e = e ∨
      ∃ x ∈ l, p x ∧ l.foldl (fun e x => if p x then min e (f x) else e) e = f x) ∧
    l.foldl (fun e x => if p x then min e (f x) else e) e ≤ e ∧
    ∀ x ∈ l, p x → l.foldl (fun e x => if p x then min e (f x) else e) e ≤ f x := by
  induction l generalizing e with
  | nil => exact ⟨.inl rfl, le_refl _, by simp⟩
  | cons y ys ih =>
    obtain ⟨hattained, hle, hleast⟩ := ih (if p y then min e (f y) else e)
    rw [List.foldl_cons]
    generalize ys.foldl (fun e x => if p x then min e (f x) else e) (if p y then min e (f y) else e) = m at *
    have hstep : (if p y then min e (f y) else e) ≤ e ∧ (p y → (if p y then min e (f y) else e) ≤ f y) := by
      split
      · exact ⟨Nat.min_le_left .., fun _ => Nat.min_le_right ..⟩
      · exact ⟨le_refl _, fun hy => absurd hy ‹_›⟩
    refine ⟨?_, hle.trans hstep.1, fun x hx hp => ?_⟩
    · rcases hattained with h | ⟨x, hx, hp, h⟩
      · split at h
        · rename_i hy
          rcases min_choice e (f y) with hm | hm
          · exact .inl (h.trans hm)
          · exact .inr ⟨y, List.mem_cons_self .., hy, h.trans hm⟩
        · exact .inl h
      · exact .inr ⟨x, List.mem_cons_of_mem _ hx, hp, h⟩
    · rcases List.mem_cons.mp hx with rfl | hx
      · exact hle.trans (hstep.2 hp)
      · exact hleast x hx hp

/-- The end of a walk-up is the least of its three terms (R85). -/
theorem Records.walkUpEnd_spec (b : Records) (now : Nat) (r : RoomNo) (st : Nat) :
    (b.walkUpEnd now r st = st + 30 ∨ b.walkUpEnd now r st = 16777215 ∨
      ∃ (q : RoomNo) (x : Seen), q ∈ b.conflictSet r ∧ x ∈ b.chainOf q ∧ x.booking.countsRetired now = false ∧
        st ≤ x.booking.start ∧
        b.walkUpEnd now r st = x.booking.start - max (b.room r).attrs.gap (b.room q).attrs.gap) ∧
    b.walkUpEnd now r st ≤ st + 30 ∧ b.walkUpEnd now r st ≤ 16777215 ∧
    ∀ (q : RoomNo) (x : Seen), q ∈ b.conflictSet r → x ∈ b.chainOf q → x.booking.countsRetired now = false →
      st ≤ x.booking.start →
      b.walkUpEnd now r st ≤ x.booking.start - max (b.room r).attrs.gap (b.room q).attrs.gap := by
  obtain ⟨hattained, hle, hleast⟩ := foldl_min_spec
    (fun x : Seen => x.booking.countsRetired now = false ∧ st ≤ x.booking.start)
    (fun x => x.booking.start - b.gapOf r x.chainRoom) ((b.conflictSet r).flatMap b.chainOf) (min (st + 30) 16777215)
  have hfold : b.walkUpEnd now r st = ((b.conflictSet r).flatMap b.chainOf).foldl
      (fun e x => if x.booking.countsRetired now = false ∧ st ≤ x.booking.start then
        min e (x.booking.start - b.gapOf r x.chainRoom) else e) (min (st + 30) 16777215) := rfl
  rw [← hfold] at hattained hle hleast
  refine ⟨?_, hle.trans (Nat.min_le_left ..), hle.trans (Nat.min_le_right ..), fun q x hq hx hlive hst => ?_⟩
  · rcases hattained with h | ⟨x, hx, ⟨hlive, hst⟩, h⟩
    · rcases min_choice (st + 30) 16777215 with hm | hm
      · exact .inl (h.trans hm)
      · exact .inr (.inl (h.trans hm))
    · obtain ⟨q, hq, hx⟩ := List.mem_flatMap.mp hx
      obtain rfl := (Records.mem_chainOf.mp hx).1
      exact .inr (.inr ⟨_, x, hq, hx, hlive, hst, h⟩)
  · obtain rfl := (Records.mem_chainOf.mp hx).1
    exact hleast x (List.mem_flatMap.mpr ⟨_, hq, hx⟩) ⟨hlive, hst⟩

section WalkUp

variable {b : Records} {c : Clock} {r : RoomNo}

theorem Records.panelWalkUp_occupied (h : b.occupied c.minute r = true) : b.panelWalkUp c r = (b, .nothing) :=
  if_pos h

/-- WALK_UP on a room that is not occupied: the length of the interval is judged, then the obstacle. -/
theorem Records.panelWalkUp_short (h : ¬ b.occupied c.minute r = true)
    (hs : b.walkUpEnd c.minute r (floor5 c.minute) < floor5 c.minute + 15) : b.panelWalkUp c r = (b, .tooShort) :=
  (if_neg h).trans (if_pos hs)

variable {st en : Nat} (hst : floor5 c.minute = st) (hen : b.walkUpEnd c.minute r st = en)
  (h : ¬ b.occupied c.minute r = true) (hlong : st + 15 ≤ en)
include hst hen h hlong

theorem Records.panelWalkUp_obstructed
    (ho : (b.readTurnarounds c.minute r).obstacle c.minute r none true st en ≠ none) :
    b.panelWalkUp c r = (b.readTurnarounds c.minute r, .turnaround) := by
  obtain ⟨o, ho⟩ := Option.ne_none_iff_exists'.mp ho
  subst hst hen
  refine (if_neg h).trans ((if_neg (Nat.not_lt.mpr hlong)).trans ?_)
  dsimp only
  rw [ho]

theorem Records.panelWalkUp_full {e : Status}
    (ho : (b.readTurnarounds c.minute r).obstacle c.minute r none true st en = none)
    (ha : (b.readTurnarounds c.minute r).addBooking true (walkUpBooking r c.minute st en) = .error e) :
    b.panelWalkUp c r = (b.readTurnarounds c.minute r, .poolEmpty) := by
  subst hst hen
  refine (if_neg h).trans ((if_neg (Nat.not_lt.mpr hlong)).trans ?_)
  dsimp only
  rw [ho]
  dsimp only
  rw [ha]

theorem Records.panelWalkUp_made {sl : SlotNo} {b1 : Records}
    (ho : (b.readTurnarounds c.minute r).obstacle c.minute r none true st en = none)
    (ha : (b.readTurnarounds c.minute r).addBooking true (walkUpBooking r c.minute st en) = .ok (sl, b1)) :
    b.panelWalkUp c r = (b1.raise (.room r .walkup), .booked en) := by
  subst hst hen
  refine (if_neg h).trans ((if_neg (Nat.not_lt.mpr hlong)).trans ?_)
  dsimp only
  rw [ho]
  dsimp only
  rw [ha]

end WalkUp

/-! ## A booking put on its chain (R50) -/

theorem Records.link_marks (b : Records) (r : RoomNo) (sl : SlotNo) (start : Nat) :
    b.Marks (b.link r sl start) (fun q => q = r ∨ q ∈ (b.room r).attrs.members.getD []) := by
  refine (Records.markRooms_marks _ _).of_lines rfl rfl fun q => ?_
  simp [Records.shownOn]

theorem Records.link_room_same (b : Records) (r : RoomNo) (sl : SlotNo) (start : Nat) :
    (b.link r sl start).room r = { b.room r with chain := b.insertInChain sl start (b.room r).chain } :=
  b.setRoom_room_same _ _

theorem Records.link_room_other (b : Records) {r q : RoomNo} (sl : SlotNo) (start : Nat) (h : q ≠ r) :
    (b.link r sl start).room q = b.room q :=
  b.setRoom_room_other _ h

theorem Records.addBooking_ok {b b2 : Records} {privileged : Bool} {k : Booking} {sl : SlotNo}
    (h : b.allocate privileged (.booking k) = .ok (sl, b2)) :
    b.addBooking privileged k = .ok (sl, b2.link k.room sl k.start) := by
  simp only [Records.addBooking, h]

theorem Records.addBooking_error {b : Records} {privileged : Bool} {k : Booking} {st : Status}
    (h : b.allocate privileged (.booking k) = .error st) : b.addBooking privileged k = .error st := by
  simp only [Records.addBooking, h]

/-- A claim that succeeds makes the booking, at its place in the chain of its room (R15, R50). -/
theorem Records.addBooking_made {b : Records} {privileged : Bool} {k : Booking} {sl : SlotNo} {rest : List SlotNo}
    (hr : b.pool.state = .ready) (hc : b.pool.freeCount ≠ 0)
    (hf : b.pool.floor < b.pool.freeCount ∨ privileged = true) (hl : b.pool.freeList = sl :: rest)
    (hfree : (b.slot sl).body = .free) :
    ∃ (b' : Records) (front back : List SlotNo), b.addBooking privileged k = .ok (sl, b') ∧
      b'.slot sl = { gen := (b.slot sl).gen, body := .booking k } ∧ (∀ y : SlotNo, y ≠ sl → b'.slot y = b.slot y) ∧
      (b.room k.room).chain = front ++ back ∧
      b'.room k.room = { b.room k.room with chain := front ++ sl :: back } ∧
      (∀ y ∈ front, ∀ k', (b.slot y).body = .booking k' → k'.start ≤ k.start) ∧
      (∀ y, back.head? = some y → ∃ k', (b.slot y).body = .booking k' ∧ k.start < k'.start) ∧
      (∀ q : RoomNo, q ≠ k.room → b'.room q = b.room q) ∧
      b'.pool = { b.pool with
        slots := b'.pool.slots, freeList := rest, freeCount := b.pool.freeCount - 1
        lowArmed := b.pool.lowArmed && decide (b.pool.freeCount - 1 ≠ b.pool.floor) } ∧
      b.Marks b' (fun q => q = k.room ∨ q ∈ (b.room k.room).attrs.members.getD []) ∧
      b'.notices = (if b.pool.lowArmed = true ∧ b.pool.freeCount - 1 = b.pool.floor then
        b.notices.raise (.part .poolLow) else b.notices) ∧
      b'.kitchens = b.kitchens ∧ b'.queues = b.queues := by
  obtain ⟨b2, hall, hcl⟩ := Records.allocate_claimed hr hc hf hl (.booking k)
  have hpool := Records.allocate_pool hall
  rw [hl] at hpool
  have hroom : ∀ q, b2.room q = b.room q := fun q => by simp only [Records.room, hcl.rooms]
  have hmade : b2.booking? sl = some k := Records.booking?_eq_some.mpr (by rw [hcl.slot])
  have hkept : ∀ y, y ≠ sl → ∀ k', b2.booking? y = some k' ↔ (b.slot y).body = .booking k' := fun y hy k' => by
    rw [Records.booking?_eq_some, hcl.others y hy]
  obtain ⟨front, back, hsplit, hins, hfront, hback⟩ := b2.insertInChain_eq sl k.start (b2.room k.room).chain
  refine ⟨b2.link k.room sl k.start, front, back, Records.addBooking_ok hall, hcl.slot, hcl.others, ?_, ?_,
    fun y hy k' hk' => ?_, fun y hy => ?_, fun q hq => ?_, hpool, ?_, hcl.notices, hcl.kitchens, hcl.queues⟩
  · rw [← hroom, hsplit]
  · rw [Records.link_room_same, hins, hroom]
  · have hne : y ≠ sl := by
      rintro rfl; rw [hfree] at hk'; cases hk'
    exact hfront y hy k' ((hkept y hne k').mpr hk')
  · obtain ⟨k', hk', hlt⟩ := hback y hy
    have hne : y ≠ sl := by
      rintro rfl
      rw [hmade] at hk'; cases hk'
      exact Nat.lt_irrefl _ hlt
    exact ⟨k', (hkept y hne k').mp hk', hlt⟩
  · rw [Records.link_room_other _ _ _ hq, hroom]
  · refine (b2.link_marks _ _ _).of_lines hcl.lines.symm rfl fun q => ?_
    rw [hroom]

theorem mem_addKind {α : Type} [DecidableEq α] {all : List α} {k : α} (h : k ∈ all) (set : List α) :
    k ∈ addKind all k set := by
  simp [addKind, h]

/-- A notice raised for a room stands in the room's set. -/
theorem Notices.raise_room_mem (n : Notices) (r : RoomNo) {k : RoomNotice} (h : k ∈ RoomNotice.all) :
    k ∈ (n.raise (.room r k)).rooms[r.val] := by
  have hset : (n.raise (.room r k)).rooms[r.val] = addKind RoomNotice.all k n.rooms[r.val] :=
    Vector.getElem_set_self ..
  rw [hset]
  exact mem_addKind h _

/-- Settles O43: each request by what its choice on the view finds, WALK_UP then by the tables of the claim and the
link. -/
theorem panelRequestsActOnView : Obligations.PanelRequestsActOnView := by
  intro b c r now l isIn busy due leaving
  have hbusy : b.occupied now r = true ↔ busy := b.occupied_iff now r
  have hdue : b.arrivingIn now r = due := b.arrivingIn_eq now r
  have hleaving : b.releasableIn now r = leaving := b.releasableIn_eq now r
  refine ⟨fun hd hb => ?_, fun hb => ?_, fun x hx hc => ?_, fun x hx hc => ?_, fun hl => ?_, fun x hx hc => ?_,
    fun x hx hc => ?_, fun hi => ?_, fun x hx hc => ?_, fun x hx hc hm => ?_, fun x ms hx hc hm => ?_, ?_⟩
  · rw [Records.panelCheckIn_none (hdue.trans hd), if_pos (hbusy.mpr hb)]
  · have hfree := mt hbusy.mp hb
    rw [Records.panelCheckIn_none (Records.arrivingIn_of_free hfree), if_neg hfree]
  · rw [Records.panelCheckIn_some (hdue.trans hx), if_pos ((b.isClosing_iff _).mpr hc)]
  · have hstate := Records.arrivingIn_state (hdue.trans hx)
    rw [Records.panelCheckIn_some (hdue.trans hx), if_neg (mt (b.isClosing_iff _).mp hc), Records.checkInAt,
      Booking.checkIn, hstate]
  · exact Records.panelRelease_none (hleaving.trans hl)
  · rw [Records.panelRelease_some (hleaving.trans hx), if_pos ((b.isClosing_iff _).mpr hc)]
  · rw [Records.panelRelease_some (hleaving.trans hx), if_neg (mt (b.isClosing_iff _).mp hc)]
  · exact Records.panelExtend_none hi
  · exact Records.panelExtend_closing hx hc
  · intro q k found full
    have hb1 : b.bringUpAll c (b.restOfSet x.chainRoom r) = b := by rw [Records.restOfSet_plain hm]; rfl
    have hext := Records.panelExtend_found hx hc hb1 rfl (Records.inUseIn_some hx)
    have hbook : b.bookable q = true ↔ (b.room q).service = .inService := Records.bookable_plain hm
    exact ⟨fun h1 => hext.trans (Records.extendBooking_closed (mt hbook.mp h1)),
      fun h1 h2 => hext.trans (Records.extendBooking_full (hbook.mpr h1) h2),
      fun h1 h2 h3 => hext.trans (Records.extendBooking_conflict (hbook.mpr h1) h2 h3),
      fun h1 h2 h3 => hext.trans (Records.extendBooking_extends (hbook.mpr h1) h2 h3)⟩
  · intro q b1
    have hb1 : b.bringUpAll c (b.restOfSet x.chainRoom r) = b1 := by rw [Records.restOfSet_combined hm]
    refine ⟨fun hgone => ?_, fun k hg hk => ?_⟩
    · rw [Records.panelExtend_open hx hc hb1]
      cases hk : b1.booking? x.slot with
      | none => rfl
      | some k =>
        have hne := hgone.resolve_right (by rw [hk]; nofun)
        rw [Option.elim, if_neg hne]
    · have hext := Records.panelExtend_found hx hc hb1 hg hk
      have hbook := b1.bookable_iff q
      intro bookable found full
      exact ⟨fun h1 => hext.trans (Records.extendBooking_closed (mt hbook.mp h1)),
        fun h1 h2 => hext.trans (Records.extendBooking_full (hbook.mpr h1) h2),
        fun h1 h2 h3 => hext.trans (Records.extendBooking_conflict (hbook.mpr h1) h2 h3),
        fun h1 h2 h3 => hext.trans (Records.extendBooking_extends (hbook.mpr h1) h2 h3)⟩
  · intro st en b1
    have hb1 : b1 = { b with rooms := b1.rooms } := b.clearTurnarounds_eq now _
    have hroom : ∀ q : RoomNo, b1.room q = if q ∈ b.conflictSet r then
        { b.room q with turnaround := (b.room q).turnaround.filter fun t => decide (now < t) } else b.room q :=
      b.clearTurnarounds_room now _
    obtain ⟨hattained, hend⟩ := b.walkUpEnd_spec now r st
    refine ⟨⟨hb1, hroom⟩, hattained, hend, fun hb => Records.panelWalkUp_occupied (hbusy.mpr hb),
      fun hb hs => Records.panelWalkUp_short (mt hbusy.mp hb) hs,
      fun hb hl ho => Records.panelWalkUp_obstructed rfl rfl (mt hbusy.mp hb) hl ho, fun hb hl ho hr => ?_⟩
    have hpool : b1.pool = b.pool := by rw [hb1]
    have hslot : ∀ y, b1.slot y = b.slot y := fun y => by simp only [Records.slot, hpool]
    have hattrs : (b1.room r).attrs = (b.room r).attrs := by rw [hroom]; split <;> rfl
    refine ⟨fun h0 => ?_, fun sl rest hl' h0 hfree => ?_⟩
    · have hempty : b1.allocate true (.booking (walkUpBooking r now st en)) = .error .poolEmpty :=
        Records.allocate_empty (by rw [hpool, hr]) (by rw [hpool, h0]) _ _
      exact Records.panelWalkUp_full rfl rfl (mt hbusy.mp hb) hl ho (Records.addBooking_error hempty)
    · intro count made
      obtain ⟨b', front, back, hadd, hsl, hothers, hsplit, hchain, hfront, hback, hrooms, hpool', hmarks, hnotices,
        hkitchens, hqueues⟩ := Records.addBooking_made (b := b1) (privileged := true) (k := made) (sl := sl)
          (rest := rest) (by rw [hpool, hr]) (by rwa [hpool]) (.inr rfl) (by rw [hpool, hl']) (by rw [hslot, hfree])
      simp only [hslot] at hsl hothers hfront hback
      rw [hpool] at hpool' hnotices
      refine ⟨b'.raise (.room r .walkup), front, back, Records.panelWalkUp_made rfl rfl (mt hbusy.mp hb) hl ho hadd,
        hsl, hothers, hsplit, hchain, hfront, hback, hrooms, hpool', ?_, ?_, ?_, ?_, ?_⟩
      · refine hmarks.of_lines (congrArg Records.lines hb1).symm rfl fun q => ?_
        rw [hattrs]
      · rw [Records.raise_notices, hnotices, congrArg Records.notices hb1]
      · exact Notices.raise_room_mem _ _ (by decide)
      · exact hkitchens.trans (by rw [hb1])
      · exact hqueues.trans (by rw [hb1])

end Sys2Proof.Machine

/-! The naming of the rooms, each room's settings and memberships: every command but HARD_RESET, WRITE_ROOM and a
removal leaves it as it was (R31, R34, R37). -/

namespace Sys2Proof.Machine

open Sys2Proof

/-! ## The naming of the rooms -/

/-- Each room's settings and memberships, the items of the room table from which conflict sets are read (R35, R38). -/
def Records.naming (b : Records) : RoomNo → RoomAttrs × List RoomNo := fun r =>
  ((b.room r).attrs, (b.room r).memberships)

theorem Records.naming_eq_iff (b b' : Records) :
    b'.naming = b.naming ↔
      ∀ r : RoomNo, (b'.room r).attrs = (b.room r).attrs ∧ (b'.room r).memberships = (b.room r).memberships := by
  simp only [funext_iff, Records.naming, Prod.mk.injEq]

theorem Records.SameSetup.naming {b b' : Records} (h : b.SameSetup b') : b'.naming = b.naming :=
  (b.naming_eq_iff b').mpr fun r => ⟨h.attrs r, h.memberships r⟩

/-- A fold of operations that each leave the naming leaves it. -/
theorem Records.foldl_naming {α : Type} {f : Records → α → Records} (hf : ∀ (b : Records) (x : α),
    (f b x).naming = b.naming) (l : List α) (b : Records) : (l.foldl f b).naming = b.naming := by
  induction l generalizing b with
  | nil => rfl
  | cons x xs ih => exact (ih _).trans (hf b x)

section Tables

variable (b : Records)

/-- Tables beside the room table have no part in the naming. -/
@[simp] theorem Records.mk_naming (p : Pool) (k : Vector Kitchen 8) (q : Vector TicketQueue 8) (l : Vector Line 4)
    (n : Notices) : ({ pool := p, rooms := b.rooms, kitchens := k, queues := q, lines := l, notices := n } :
      Records).naming = b.naming := rfl

@[simp] theorem Records.setKitchen_naming (k : KitchenNo) (x : Kitchen) : (b.setKitchen k x).naming = b.naming := rfl

@[simp] theorem Records.setQueue_naming (k : KitchenNo) (x : TicketQueue) : (b.setQueue k x).naming = b.naming := rfl

@[simp] theorem Records.setLine_naming (l : LineNo) (x : Line) : (b.setLine l x).naming = b.naming := rfl

@[simp] theorem Records.setBody_naming (sl : SlotNo) (x : SlotBody) : (b.setBody sl x).naming = b.naming := rfl

@[simp] theorem Records.returnSlot_naming (sl : SlotNo) : (b.returnSlot sl).naming = b.naming := rfl

@[simp] theorem Records.raise_naming (x : RaisedNotice) : (b.raise x).naming = b.naming := rfl

@[simp] theorem Records.markRooms_naming (rs : List RoomNo) : (b.markRooms rs).naming = b.naming := rfl

@[simp] theorem Records.markShowing_naming (r : RoomNo) : (b.markShowing r).naming = b.naming := rfl

@[simp] theorem Records.markAllPanels_naming : b.markAllPanels.naming = b.naming := rfl

/-- A room entry replaced by one with its settings and memberships. -/
theorem Records.setRoom_naming {r : RoomNo} {x : Room} (ha : x.attrs = (b.room r).attrs)
    (hm : x.memberships = (b.room r).memberships) : (b.setRoom r x).naming = b.naming := by
  refine (b.naming_eq_iff _).mpr fun q => ?_
  by_cases hq : q = r
  · subst hq; simpa using ⟨ha, hm⟩
  · simp [b.setRoom_room_other _ hq]

/-! ## Rooms and bookings -/

@[simp] theorem Records.clearTurnaround_naming (now : Nat) (r : RoomNo) :
    (b.clearTurnaround now r).naming = b.naming := (b.clearTurnaround_sameSetup now r).naming

@[simp] theorem Records.clearTurnarounds_naming (now : Nat) (rs : List RoomNo) :
    (b.clearTurnarounds now rs).naming = b.naming :=
  Records.foldl_naming (fun b r => b.clearTurnaround_naming now r) rs b

@[simp] theorem Records.readTurnarounds_naming (now : Nat) (r : RoomNo) :
    (b.readTurnarounds now r).naming = b.naming := b.clearTurnarounds_naming now _

@[simp] theorem Records.link_naming (r : RoomNo) (sl : SlotNo) (start : Nat) :
    (b.link r sl start).naming = b.naming := (b.link_sameSetup r sl start).naming

@[simp] theorem Records.unlink_naming (r : RoomNo) (sl : SlotNo) : (b.unlink r sl).naming = b.naming :=
  (b.unlink_sameSetup r sl).naming

@[simp] theorem Records.retire_naming (c : Clock) (sl : SlotNo) (k : Booking) (why : Reason) :
    (b.retire c sl k why).1.naming = b.naming := (b.retire_sameSetup c sl k why).naming

@[simp] theorem Records.updateBooking_naming (c : Clock) (sl : SlotNo) : (b.updateBooking c sl).naming = b.naming :=
  (b.updateBooking_sameSetup c sl).naming

@[simp] theorem Records.bringUp_naming (c : Clock) (r : RoomNo) : (b.bringUp c r).naming = b.naming :=
  (b.bringUp_sameSetup c r).naming

@[simp] theorem Records.bringUpAll_naming (c : Clock) (rs : List RoomNo) : (b.bringUpAll c rs).naming = b.naming :=
  Records.foldl_naming (fun b r => b.bringUp_naming c r) rs b

@[simp] theorem Records.bringUpSet_naming (c : Clock) (r : RoomNo) : (b.bringUpSet c r).naming = b.naming :=
  b.bringUpAll_naming c _

theorem Records.nameBooking_naming {b b' : Records} {c : Clock} {h : Handle} {x : Except Status (SlotNo × Booking)}
    (hn : b.nameBooking c h = (b', x)) : b'.naming = b.naming := by
  unfold Records.nameBooking at hn
  split at hn
  · cases hn; rfl
  · split at hn
    · cases hn; rfl
    · split at hn
      · cases hn; rfl
      · dsimp only at hn
        split at hn
        · split at hn <;> cases hn <;> exact b.bringUpSet_naming c _
        · cases hn; exact b.bringUpSet_naming c _

theorem Records.nameOrder_naming {b b' : Records} {c : Clock} {h : Handle} {closes : Bool}
    {x : Except Status (SlotNo × Order)} (hn : b.nameOrder c h closes = (b', x)) : b'.naming = b.naming := by
  unfold Records.nameOrder at hn
  split at hn
  · cases hn; rfl
  · split at hn
    · cases hn; rfl
    · split at hn
      · cases hn; rfl
      · dsimp only at hn
        split at hn <;> cases hn <;> exact b.bringUp_naming c _

theorem Records.allocate_naming {b b' : Records} {privileged : Bool} {body : SlotBody} {sl : SlotNo}
    (h : b.allocate privileged body = .ok (sl, b')) : b'.naming = b.naming := by
  obtain ⟨-, -, rest, -, -, rfl⟩ := Records.allocate_inv h
  rw [Records.lowAfterAllocation_eq]
  split <;> rfl

theorem Records.addBooking_naming {b b' : Records} {privileged : Bool} {k : Booking} {sl : SlotNo}
    (h : b.addBooking privileged k = .ok (sl, b')) : b'.naming = b.naming := by
  unfold Records.addBooking at h
  split at h
  · cases h
  · rename_i hall
    cases h
    exact (Records.link_naming _ _ _ _).trans (Records.allocate_naming hall)

@[simp] theorem Records.confirm_naming (c : Clock) (sl : SlotNo) (k : Booking) :
    (b.confirm c sl k).naming = b.naming := by
  simp [Records.confirm]

@[simp] theorem Records.applyAmend_naming (c : Clock) (sl : SlotNo) (k k' : Booking) :
    (b.applyAmend c sl k k').naming = b.naming := (b.applyAmend_sameSetup c sl k k').naming

@[simp] theorem Records.checkInAt_naming (now : Nat) (x : Seen) : (b.checkInAt now x).naming = b.naming := rfl

@[simp] theorem Records.motionCheckIn_naming (now : Nat) (r : RoomNo) : (b.motionCheckIn now r).naming = b.naming := by
  unfold Records.motionCheckIn
  split
  · split <;> simp
  · rfl

@[simp] theorem Records.panelCheckIn_naming (c : Clock) (r : RoomNo) : (b.panelCheckIn c r).1.naming = b.naming := by
  unfold Records.panelCheckIn
  split <;> split <;> simp

@[simp] theorem Records.extendBooking_naming (c : Clock) (q : RoomNo) (sl : SlotNo) (k : Booking) :
    (b.extendBooking c q sl k).1.naming = b.naming := by
  unfold Records.extendBooking
  split
  · split
    · rfl
    · split <;> rfl
  · rfl

@[simp] theorem Records.panelExtend_naming (c : Clock) (r : RoomNo) : (b.panelExtend c r).1.naming = b.naming := by
  unfold Records.panelExtend
  split
  · rfl
  · split
    · rfl
    · dsimp only
      split
      · split <;> simp
      · simp

@[simp] theorem Records.panelRelease_naming (c : Clock) (r : RoomNo) : (b.panelRelease c r).1.naming = b.naming := by
  unfold Records.panelRelease
  split
  · rfl
  · split <;> simp

@[simp] theorem Records.panelWalkUp_naming (c : Clock) (r : RoomNo) : (b.panelWalkUp c r).1.naming = b.naming := by
  unfold Records.panelWalkUp
  split
  · rfl
  · dsimp only
    split
    · rfl
    · split
      · simp
      · split
        · simp
        · rename_i hadd
          simp [Records.addBooking_naming hadd]

theorem Records.panelRequest_naming {act : Records → Records × PanelResult}
    (hact : ∀ b : Records, (act b).1.naming = b.naming) (c : Clock) (r : RoomNo) :
    (b.panelRequest c r act).1.naming = b.naming := by
  unfold Records.panelRequest
  split
  · split
    · rfl
    · split <;> simp [hact]
  · rfl

@[simp] theorem Records.closeStep_naming (c : Clock) (r : RoomNo) : (b.closeStep c r).naming = b.naming := by
  have hup := b.bringUp_naming c r
  unfold Records.closeStep
  dsimp only
  split
  · exact ((b.bringUp c r).setRoom_naming (by rfl) (by rfl)).trans hup
  · split <;> simp

@[simp] theorem Records.setService_naming (r : RoomNo) (st : Service) : (b.setService r st).naming = b.naming := by
  unfold Records.setService
  split
  · rfl
  · exact b.setRoom_naming rfl rfl

@[simp] theorem Records.judgeRoom_naming (now : Nat) (x : Scan) (r : RoomNo) :
    (b.judgeRoom now x r).1.naming = b.naming := by
  unfold Records.judgeRoom
  split <;> simp

/-! ## Kitchens -/

@[simp] theorem Records.promotionTrigger_naming (c : Clock) (k : KitchenNo) :
    (b.promotionTrigger c k).naming = b.naming := (b.promotionTrigger_sameSetup c k).naming

@[simp] theorem Records.changeKitchen_naming (c : Clock) (k : KitchenNo) (x : Kitchen) :
    (b.changeKitchen c k x).naming = b.naming := by
  unfold Records.changeKitchen
  split <;> rfl

@[simp] theorem Records.reformLevel_naming (c : Clock) (k : KitchenNo) (x : Kitchen) :
    (b.reformLevel c k x).naming = b.naming := by
  unfold Records.reformLevel
  dsimp only
  split <;> simp

@[simp] theorem Records.terminalReported_naming (c : Clock) (k : KitchenNo) (level : Fin 8) :
    (b.terminalReported c k level).naming = b.naming := b.reformLevel_naming c k _

@[simp] theorem Records.terminalLost_naming (c : Clock) (k : KitchenNo) : (b.terminalLost c k).naming = b.naming :=
  b.reformLevel_naming c k _

@[simp] theorem Records.dispatchAll_naming (c : Clock) (l : List (SlotNo × Order)) :
    (b.dispatchAll c l).1.naming = b.naming := by
  induction l generalizing b with
  | nil => rfl
  | cons x rest ih => exact ih (b.dispatchOne c x)

@[simp] theorem Records.dispatch_naming (c : Clock) (k : KitchenNo) : (b.dispatch c k).naming = b.naming := by
  have h := b.dispatchAll_naming c (b.dispatchable k c.w0)
  unfold Records.dispatch
  split <;> rename_i e <;> rw [e] at h
  · simpa using h
  · exact h

@[simp] theorem Records.lapseAll_naming (w0 : Nat) (l : List SlotNo) : (b.lapseAll w0 l).naming = b.naming := by
  refine Records.foldl_naming (fun b sl => ?_) l b
  split
  · split <;> rfl
  · rfl

@[simp] theorem Records.roll_naming (c : Clock) (k : KitchenNo) (o n : Nat) : (b.roll c k o n).naming = b.naming := by
  unfold Records.roll
  split
  · rfl
  · dsimp only
    split <;> simp

@[simp] theorem Records.shedWindow_naming (c : Clock) (k : KitchenNo) (w : Nat) :
    (b.shedWindow c k w).naming = b.naming := by
  unfold Records.shedWindow
  dsimp only
  split
  · rfl
  · split <;> rfl

@[simp] theorem Records.sheddingStep_naming (c : Clock) (k : KitchenNo) (cursor : Nat) :
    (b.sheddingStep c k cursor).naming = b.naming := by
  simp only [Records.sheddingStep, apply_ite Records.naming, Records.setKitchen_naming, Records.shedWindow_naming,
    ite_self]

@[simp] theorem Records.promotingStep_naming (c : Clock) (menu : Vector MenuClass 16) (k : KitchenNo)
    (cursor : Option WaitPlace) : (b.promotingStep c menu k cursor).naming = b.naming := by
  unfold Records.promotingStep
  dsimp only
  split
  · rfl
  · split
    · rfl
    · unfold Records.examine
      split
      · rfl
      · dsimp only
        split <;> rfl

/-! ## Orders and tickets -/

@[simp] theorem Records.settleOrder_naming (c : Clock) (sl : SlotNo) : (b.settleOrder c sl).1.naming = b.naming :=
  (b.settleOrder_sameSetup c sl).naming

@[simp] theorem Records.joinVoid_naming (k : KitchenNo) (sl : SlotNo) : (b.joinVoid k sl).naming = b.naming :=
  (b.joinVoid_sameSetup k sl).naming

@[simp] theorem Records.admitOrWait_naming (sl : SlotNo) (o : Order) (x : Load) :
    (b.admitOrWait sl o x).naming = b.naming := by
  unfold Records.admitOrWait
  dsimp only
  split
  · split <;> rfl
  · rfl

theorem Records.createOrder_naming {b b' : Records} {owner sl : SlotNo} {k : Booking} {o : Order} {x : Load}
    (h : b.createOrder owner k o x = .ok (sl, b')) : b'.naming = b.naming := by
  unfold Records.createOrder at h
  split at h
  · cases h
  · rename_i hall
    cases h
    simp [Records.allocate_naming hall]

theorem Records.amendOrderTo_naming {b b' : Records} {c : Clock} {sl : SlotNo} {o o' : Order} {x : Load}
    (h : b.amendOrderTo c sl o o' x = some b') : b'.naming = b.naming := by
  unfold Records.amendOrderTo Records.replaceLoad at h
  dsimp only at h
  split at h
  · cases h; simp
  · split at h <;> cases h
    split <;> simp

@[simp] theorem Records.leaveAnnex_naming (sl : SlotNo) (o : Order) : (b.leaveAnnex sl o).naming = b.naming := by
  unfold Records.leaveAnnex
  split <;> rfl

@[simp] theorem Records.settleAnswer_naming (k : KitchenNo) : (b.settleAnswer k).naming = b.naming := by
  unfold Records.settleAnswer
  dsimp only
  split
  · rfl
  · split <;> rfl
  · split
    · rfl
    · split
      · exact Records.joinVoid_naming _ _ _
      · rfl

@[simp] theorem Records.settleLoss_naming (k : KitchenNo) : (b.settleLoss k).naming = b.naming := by
  unfold Records.settleLoss
  dsimp only
  split
  · rfl
  · rfl
  · split <;> rfl

@[simp] theorem Records.takeReport_naming (k : KitchenNo) (x : Report) : (b.takeReport k x).naming = b.naming := by
  unfold Records.takeReport
  split
  · rfl
  · split
    · rfl
    · split
      · split
        · rfl
        · dsimp only
          split <;> rfl
      · rfl

@[simp] theorem Records.terminalAnswered_naming (k : KitchenNo) (payload : List Byte) :
    (b.terminalAnswered k payload).naming = b.naming :=
  (Records.foldl_naming (fun b x => b.takeReport_naming k x) _ _).trans (b.settleAnswer_naming k)

@[simp] theorem Records.clearOrder_naming (c : Clock) (sl : SlotNo) : (b.clearOrder c sl).naming = b.naming := by
  unfold Records.clearOrder
  split <;> rfl

@[simp] theorem Records.clearSlot_naming (c : Clock) (sl : SlotNo) : (b.clearSlot c sl).1.naming = b.naming := by
  unfold Records.clearSlot Records.clearBooking
  split
  · rfl
  · simp [Records.foldl_naming fun (b : Records) o => b.clearOrder_naming c o]
  · split <;> rfl

/-! ## Lines -/

@[simp] theorem Records.raiseBack_naming (x : Node) : (b.raiseBack x).naming = b.naming := by
  unfold Records.raiseBack
  split
  · split <;> rfl
  · rfl

@[simp] theorem Records.raiseSilent_naming (x : Node) : (b.raiseSilent x).naming = b.naming := by
  unfold Records.raiseSilent
  split
  · split <;> rfl
  · rfl

@[simp] theorem Records.settleFrame_naming (l : LineNo) (v : Visit) : (b.settleFrame l v).naming = b.naming := by
  unfold Records.settleFrame
  dsimp only
  split
  · rfl
  · split <;> rfl
  · exact b.settleLoss_naming _

@[simp] theorem Records.lossOf_naming (c : Clock) (x : Node) : (b.lossOf c x).naming = b.naming := by
  unfold Records.lossOf
  split
  · split <;> simp
  · rfl

@[simp] theorem Records.goodAnswer_naming (c : Clock) (l : LineNo) (v : Visit) (payload : List Byte) :
    (b.goodAnswer c l v payload).naming = b.naming := by
  unfold Records.goodAnswer
  dsimp only
  rw [Records.setLine_naming]
  split <;> simp

@[simp] theorem Records.loss_naming (c : Clock) (l : LineNo) (v : Visit) : (b.loss c l v).naming = b.naming := by
  simp [Records.loss]

@[simp] theorem Records.clearLine_naming (c : Clock) (l : LineNo) : (b.clearLine c l).naming = b.naming := by
  unfold Records.clearLine
  dsimp only
  rw [Records.foldl_naming (fun b k => b.terminalLost_naming c k), Records.setLine_naming]
  split <;> simp

@[simp] theorem Records.startVisit_naming (c : Clock) (l : LineNo) (ln : Line) (n : NodeNo) :
    (b.startVisit c l ln n).naming = b.naming := by
  unfold Records.startVisit
  split
  · rfl
  · split
    · exact b.clearTurnarounds_naming c.minute _
    · rfl
  · rfl

@[simp] theorem Records.nameTerminal_naming (c : Clock) (kind : NodeKind) (t : Option (LineNo × NodeNo)) :
    (b.nameTerminal c kind t).naming = b.naming := by
  unfold Records.nameTerminal
  split
  · rfl
  · rfl
  · exact b.reformLevel_naming c _ _

@[simp] theorem Records.writeNode_naming (c : Clock) (l : LineNo) (n : NodeNo) (kind : NodeKind) :
    (b.writeNode c l n kind).naming = b.naming := by
  unfold Records.writeNode
  dsimp only
  split <;> simp

/-! ## The pool and the clock -/

@[simp] theorem Records.judgeFloor_naming : b.judgeFloor.naming = b.naming := by
  unfold Records.judgeFloor
  dsimp only
  split
  · rfl
  · split <;> rfl

@[simp] theorem Records.clockEnd_naming (v : Nat) : (b.clockEnd v).naming = b.naming := by
  unfold Records.clockEnd
  split <;> rfl

@[simp] theorem Records.beginClear_naming : b.beginClear.naming = b.naming := by
  refine (b.naming_eq_iff _).mpr fun r => ?_
  simp [Records.beginClear, Records.room, Room.cleared]

end Tables

end Sys2Proof.Machine

/-! The acts of the server commands, the part's own steps, and then every command: what each leaves of the naming of the
rooms. -/

namespace Sys2Proof.Machine

open Sys2Proof

/-! ## The acts of the server commands -/

theorem State.serve_naming {s t : State} {cmd : Instr} {act : State → State × Answer}
    (hact : (act s).1.recs.naming = s.recs.naming) (h : s.serve cmd act = .next t) :
    t.recs.naming = s.recs.naming := by
  rcases State.serve_cases h with rfl | ⟨-, ⟨_, _, _, _, rfl⟩ | ⟨-, rfl⟩⟩
  · rfl
  · exact hact
  · exact hact

theorem State.gated_naming {s : State} {k : State × Answer} (h : k.1.recs.naming = s.recs.naming) :
    (s.gated k).1.recs.naming = s.recs.naming := by
  unfold State.gated
  split
  · split
    · rfl
    · exact h
  · rfl

section Acts

variable (s : State)

theorem State.setClock_naming (v : Nat) : (s.setClock v).1.recs.naming = s.recs.naming := by
  unfold State.setClock
  dsimp only
  split
  · rfl
  · split
    · simp [State.startClock]
    · split
      · rfl
      · split
        · rfl
        · simp [State.jumpTo, State.advanceTo]
    · split <;> rfl

theorem State.setReserve_naming (floor : Nat) : (s.setReserve floor).1.recs.naming = s.recs.naming := by
  unfold State.setReserve
  split
  · rfl
  · simp

theorem State.setHorizon_naming (days : Nat) : (s.setHorizon days).1.recs.naming = s.recs.naming := by
  unfold State.setHorizon
  split <;> rfl

theorem State.clearAll_naming : s.clearAll.1.recs.naming = s.recs.naming := by
  unfold State.clearAll
  split
  · simp
  · rfl

theorem State.readRoom_naming (room : Nat) : (s.readRoom room).1.recs.naming = s.recs.naming := by
  unfold State.readRoom
  split
  · rfl
  · simp

theorem State.setRoomService_naming (inService : Bool) (room : Nat) :
    (s.setRoomService inService room).1.recs.naming = s.recs.naming := by
  unfold State.setRoomService
  split
  · rfl
  · simp

theorem State.closeAndCancel_naming (room : Nat) : (s.closeAndCancel room).1.recs.naming = s.recs.naming := by
  unfold State.closeAndCancel
  split
  · rfl
  · split
    · rfl
    · simp

theorem State.makeBooking_naming (k : Booking) : (s.makeBooking k).1.recs.naming = s.recs.naming := by
  unfold State.makeBooking
  dsimp only
  split
  · simp
  · split
    · simp [refuse]
    · rename_i hadd
      simp [Records.addBooking_naming hadd]

theorem State.bookOrHold_naming (a : BookArgs) (holdTime : Option Nat) :
    (s.bookOrHold a holdTime).1.recs.naming = s.recs.naming := by
  refine State.gated_naming ?_
  split
  · rfl
  · exact s.makeBooking_naming _

theorem State.confirm_naming (h : Handle) (cls : Option Nat) : (s.confirm h cls).1.recs.naming = s.recs.naming := by
  refine State.gated_naming ?_
  split <;> rename_i hn <;> have hname := Records.nameBooking_naming hn
  · exact hname
  · split
    · exact hname
    · simpa using hname

theorem State.amendTo_naming (b : Records) (sl : SlotNo) (k k' : Booking) :
    (s.amendTo b sl k k').1.recs.naming = b.naming := by
  unfold State.amendTo
  dsimp only
  split
  · split <;> simp
  · split <;> simp

theorem State.amend_naming (a : AmendArgs) : (s.amend a).1.recs.naming = s.recs.naming := by
  refine State.gated_naming ?_
  split <;> rename_i hn <;> have hname := Records.nameBooking_naming hn
  · exact hname
  · split
    · exact hname
    · exact (s.amendTo_naming ..).trans hname

theorem State.cancel_naming (h : Handle) : (s.cancel h).1.recs.naming = s.recs.naming := by
  refine State.gated_naming ?_
  split <;> rename_i hn <;> have hname := Records.nameBooking_naming hn
  · exact hname
  · simpa using hname

theorem State.readBooking_self (h : Handle) : (s.readBooking h).1 = s := by
  unfold State.readBooking
  split
  · split
    · rfl
    · split
      · rfl
      · split <;> rfl
  · rfl

theorem State.lookupAt_self (room minute : Nat) : (s.lookupAt room minute).1 = s := by
  unfold State.lookupAt
  split
  · split
    · rfl
    · split <;> rfl
  · rfl

theorem State.listRoom_self (room count : Nat) (after : Option Nat) : (s.listRoom room count after).1 = s := by
  unfold State.listRoom
  split
  · split
    · rfl
    · split <;> rfl
  · rfl

theorem State.writeMenuClass_recs (cls weight setup lead : Nat) :
    (s.writeMenuClass cls weight setup lead).1.recs = s.recs := by
  unfold State.writeMenuClass
  split
  · rfl
  · split <;> rfl

theorem State.writeBanks_naming (kitchen : Nat) (banks : Vector Nat 8) :
    (s.writeBanks kitchen banks).1.recs.naming = s.recs.naming := by
  unfold State.writeBanks
  split
  · rfl
  · split
    · simp
    · rfl

theorem State.writeKitchen_naming (kitchen opens closes fallback : Nat) :
    (s.writeKitchen kitchen opens closes fallback).1.recs.naming = s.recs.naming := by
  unfold State.writeKitchen
  split
  · rfl
  · split
    · rfl
    · split
      · simp
      · rfl

theorem State.setStaffing_naming (kitchen : Nat) (level : Option Nat) :
    (s.setStaffing kitchen level).1.recs.naming = s.recs.naming := by
  unfold State.setStaffing
  split
  · rfl
  · split
    · rfl
    · simp

theorem State.readKitchen_self (kitchen : Nat) : (s.readKitchen kitchen).1 = s := by
  unfold State.readKitchen
  split <;> rfl

theorem State.readWindow_naming (kitchen window : Nat) :
    (s.readWindow kitchen window).1.recs.naming = s.recs.naming := by
  unfold State.readWindow
  split
  · rfl
  · split <;> rfl

theorem State.order_naming (h : Handle) (menuClass heads delivery : Nat) :
    (s.order h menuClass heads delivery).1.recs.naming = s.recs.naming := by
  refine State.gated_naming ?_
  split <;> rename_i hn <;> have hname := Records.nameBooking_naming hn
  · exact hname
  · split
    · exact hname
    · split
      · exact hname
      · rename_i hcreate
        exact (Records.createOrder_naming hcreate).trans hname

theorem State.amendOrder_naming (a : AmendOrderArgs) : (s.amendOrder a).1.recs.naming = s.recs.naming := by
  refine State.gated_naming ?_
  split <;> rename_i hn <;> have hname := Records.nameOrder_naming hn
  · exact hname
  · split
    · exact hname
    · split
      · exact hname
      · split
        · exact hname
        · rename_i hto
          exact (Records.amendOrderTo_naming hto).trans hname

theorem State.cancelOrder_naming (h : Handle) : (s.cancelOrder h).1.recs.naming = s.recs.naming := by
  refine State.gated_naming ?_
  split <;> rename_i hn <;> have hname := Records.nameOrder_naming hn
  · exact hname
  · simpa using hname

theorem State.readOrder_self (h : Handle) : (s.readOrder h).1 = s := by
  unfold State.readOrder
  split
  · split
    · rfl
    · split <;> rfl
  · rfl

theorem State.enterLine_naming (l : LineNo) (run : Bool) : (s.enterLine l run).recs.naming = s.recs.naming := by
  unfold State.enterLine
  dsimp only
  split
  · rfl
  · rfl
  · rfl
  · exact s.recs.clearLine_naming s.clk l

theorem State.setLineTo_naming (line state timeout refresh : Nat) :
    (s.setLineTo line state timeout refresh).1.recs.naming = s.recs.naming := by
  unfold State.setLineTo
  split
  · rfl
  · split
    · exact (s.setLine _ _).enterLine_naming _ _
    · rfl

theorem State.restartLine_naming (line : Nat) : (s.restartLine line).1.recs.naming = s.recs.naming := by
  unfold State.restartLine
  split
  · rfl
  · exact s.recs.clearLine_naming s.clk _

theorem State.writeNode_naming (line node kind target : Nat) :
    (s.writeNode line node kind target).1.recs.naming = s.recs.naming := by
  unfold State.writeNode
  split
  · rfl
  · split
    · rfl
    · simp

theorem State.readNode_self (line node : Nat) : (s.readNode line node).1 = s := by
  unfold State.readNode
  split <;> rfl

theorem State.readNotices_naming (indicator number : Nat) :
    (s.readNotices indicator number).1.recs.naming = s.recs.naming := by
  unfold State.readNotices
  split <;> rfl

theorem State.setNoticeMask_naming (masks : Vector Byte 18) :
    (s.setNoticeMask masks).1.recs.naming = s.recs.naming := by
  unfold State.setNoticeMask
  split <;> rfl

theorem State.findRooms_naming (a : FindArgs) : (s.findRooms a).1.recs.naming = s.recs.naming := by
  rw [(s.findRooms_cases a).1]

/-! ## The part's own steps -/

theorem State.commandWrite_recs (bytes : List Byte) : (s.commandWrite bytes).recs = s.recs := by
  unfold State.commandWrite State.judgeWrite
  split
  · split <;> rfl
  · rfl
  · rfl

theorem State.readOut_recs (a : ReadOutArgs) : (s.readOut a).recs = s.recs := by
  unfold State.readOut
  split
  · rfl
  · dsimp only
    split <;> rfl

theorem State.transact_recs (bytes : List Byte) : (s.transact bytes).recs = s.recs := by
  unfold State.transact
  split
  · rfl
  · split
    · exact s.commandWrite_recs _
    · split
      · exact s.readOut_recs _
      · rfl

theorem State.lineFrame_naming (l : LineNo) (frame : List Byte) :
    (s.lineFrame l frame).recs.naming = s.recs.naming := by
  unfold State.lineFrame
  split
  · rfl
  · dsimp only
    split <;> simp [State.lose]

theorem State.takeMotion_naming (x : PanelHandoff) : (s.takeMotion x).recs.naming = s.recs.naming := by
  unfold State.takeMotion
  split
  · split
    · rfl
    · exact s.recs.setRoom_naming (by rfl) (by rfl)
  · rfl
  · rfl

theorem State.takeMotionCheckIn_naming (x : PanelHandoff) :
    (s.takeMotionCheckIn x).recs.naming = s.recs.naming := by
  unfold State.takeMotionCheckIn
  split <;> simp

end Acts

theorem State.takePanel_naming {s t : State} {l : LineNo} {n : NodeNo} {want : PanelItem → Bool}
    {act : State → PanelHandoff → State} (hact : ∀ s x, (act s x).recs.naming = s.recs.naming)
    (h : s.takePanel l n want act = .next t) : t.recs.naming = s.recs.naming := by
  unfold State.takePanel at h
  split at h
  · cases h; rfl
  · split at h <;> cases h
    · exact hact _ _
    · rfl

theorem State.scanOn_recs (s : State) (x : Scan) : (s.scanOn x).recs = s.recs := by
  unfold State.scanOn
  split
  · split
    · rfl
    · exact State.finish_recs _ _ _
  · exact State.finish_recs _ _ _

/-! ## Every command -/

/-- Every command but HARD_RESET, WRITE_ROOM and a removal leaves the naming of the rooms as it was. -/
theorem exec_naming {i : Instr} {s t : State} (hreset : i ≠ .hardReset) (hwrite : ∀ tag a, i ≠ .writeRoom tag a)
    (hremove : ∀ tag n, i ≠ .writeRoomRemove tag n) (h : exec i s = .next t) : t.recs.naming = s.recs.naming := by
  cases i with
  | hardReset => exact absurd rfl hreset
  | writeRoom tag a => exact absurd rfl (hwrite tag a)
  | writeRoomRemove tag n => exact absurd rfl (hremove tag n)
  | poolInitComplete =>
    simp only [exec, execPoolInitComplete] at h
    split at h <;> cases h <;> rfl
  | elapsedSecond =>
    simp only [exec, execElapsedSecond] at h
    split at h
    · cases h; rfl
    · cases h; rfl
    · split at h
      · cases h; rfl
      · split at h <;> cases h
        · rfl
        · exact s.recs.clockEnd_naming _
  | secondPulse l =>
    simp only [exec, execSecondPulse] at h
    split at h <;> cases h <;> rfl
  | bkeMinuteAdvance =>
    simp only [exec, execBkeMinuteAdvance] at h
    split at h <;> cases h <;> rfl
  | minuteWalkStep =>
    simp only [exec, execMinuteWalkStep] at h
    split at h <;> cases h
    · rfl
    · exact s.recs.bringUp_naming _ _
  | windowRoll k =>
    simp only [exec, execWindowRoll] at h
    split at h <;> cases h
    · rfl
    · exact s.recs.roll_naming _ _ _ _
  | sheddingStep k =>
    simp only [exec, execSheddingStep] at h
    split at h <;> cases h
    · exact s.recs.sheddingStep_naming _ _ _
    · rfl
    · rfl
  | promotingStep k =>
    simp only [exec, execPromotingStep] at h
    split at h <;> cases h
    · exact s.recs.promotingStep_naming _ _ _ _
    · rfl
    · rfl
  | closeWalkStep r =>
    simp only [exec, execCloseWalkStep] at h
    split at h <;> cases h
    · exact s.recs.closeStep_naming _ _
    · rfl
  | clearSlotVisit =>
    simp only [exec, execClearSlotVisit] at h
    split at h
    · cases h; rfl
    · cases h; rfl
    · split at h <;> cases h
      · rfl
      · exact s.recs.clearSlot_naming _ _
  | clearAllComplete =>
    simp only [exec, execClearAllComplete] at h
    split at h
    · cases h; rfl
    · cases h; rfl
    · split at h <;> cases h
      · rfl
      · rw [State.finish_recs]; rfl
  | findRoomsScanStep =>
    simp only [exec, execFindRoomsScanStep] at h
    split at h <;> cases h
    · rfl
    · rw [State.scanOn_recs]; exact s.recs.judgeRoom_naming _ _ _
  | visitStart l =>
    simp only [exec, execVisitStart] at h
    split at h
    · split at h <;> cases h
      · exact s.recs.startVisit_naming _ _ _ _
      · rfl
    · cases h; rfl
  | panelAnswer l frame => cases h; exact s.lineFrame_naming l frame
  | terminalAnswer l frame => cases h; exact s.lineFrame_naming l frame
  | badAnswer l frame => cases h; exact s.lineFrame_naming l frame
  | frameDiscarded l frame => cases h; exact s.lineFrame_naming l frame
  | visitTimeout l =>
    simp only [exec, execVisitTimeout] at h
    split at h <;> cases h
    · rfl
    · exact s.recs.loss_naming _ _ _
  | motionReport l n => exact State.takePanel_naming State.takeMotion_naming h
  | motionCheckIn l n =>
    exact State.takePanel_naming (want := fun x => decide (x = .motionCheckIn)) State.takeMotionCheckIn_naming h
  | checkIn l n =>
    exact State.takePanel_naming (fun s x => s.recs.panelRequest_naming (fun b => b.panelCheckIn_naming _ _) _ _) h
  | extend l n =>
    exact State.takePanel_naming (fun s x => s.recs.panelRequest_naming (fun b => b.panelExtend_naming _ _) _ _) h
  | release l n =>
    exact State.takePanel_naming (fun s x => s.recs.panelRequest_naming (fun b => b.panelRelease_naming _ _) _ _) h
  | walkUp l n =>
    exact State.takePanel_naming (fun s x => s.recs.panelRequest_naming (fun b => b.panelWalkUp_naming _ _) _ _) h
  | requestResult l n =>
    simp only [exec, execRequestResult] at h
    split at h <;> cases h <;> rfl
  | terminalReport a =>
    cases h
    split
    · exact s.recs.terminalReported_naming _ _ _
    · rfl
  | terminalLoss k => cases h; exact s.recs.terminalLost_naming _ _
  | noticeRaise n => cases h; rfl
  | commandWrite bytes => cases h; rw [s.transact_recs]
  | overrun bytes => cases h; rw [s.transact_recs]
  | ignoredTransaction bytes => cases h; rw [s.transact_recs]
  | readOut a => cases h; rw [s.readOut_recs]
  | setClock tag v => exact State.serve_naming (s.setClock_naming v) h
  | readClock tag => exact State.serve_naming (act := fun s => (s, .now .ok s.clk.readPayload)) rfl h
  | poolStatus tag => exact State.serve_naming (act := fun s => (s, .now .ok s.recs.poolPayload)) rfl h
  | noticeSummary tag => exact State.serve_naming (act := fun s => (s, .now .ok s.recs.notices.summary)) rfl h
  | setReserve tag floor => exact State.serve_naming (s.setReserve_naming floor) h
  | setHorizon tag days => exact State.serve_naming (s.setHorizon_naming days) h
  | clearAll tag => exact State.serve_naming s.clearAll_naming h
  | readRoom tag room => exact State.serve_naming (s.readRoom_naming room) h
  | setRoomService tag up room => exact State.serve_naming (s.setRoomService_naming up room) h
  | closeAndCancel tag room => exact State.serve_naming (s.closeAndCancel_naming room) h
  | hold tag a ht => exact State.serve_naming (s.bookOrHold_naming a (some ht)) h
  | book tag a => exact State.serve_naming (s.bookOrHold_naming a none) h
  | confirm tag g cls => exact State.serve_naming (s.confirm_naming g cls) h
  | amend tag a => exact State.serve_naming (s.amend_naming a) h
  | cancel tag g => exact State.serve_naming (s.cancel_naming g) h
  | readBooking tag g => exact State.serve_naming (congrArg (·.recs.naming) (s.readBooking_self g)) h
  | lookupAt tag room m => exact State.serve_naming (congrArg (·.recs.naming) (s.lookupAt_self room m)) h
  | listRoom tag room n a => exact State.serve_naming (congrArg (·.recs.naming) (s.listRoom_self room n a)) h
  | findRooms tag a => exact State.serve_naming (s.findRooms_naming a) h
  | writeMenuClass tag c w u l => exact State.serve_naming (congrArg (·.naming) (s.writeMenuClass_recs c w u l)) h
  | writeBanks tag k banks => exact State.serve_naming (s.writeBanks_naming k banks) h
  | writeKitchen tag k o c f => exact State.serve_naming (s.writeKitchen_naming k o c f) h
  | setStaffing tag k level => exact State.serve_naming (s.setStaffing_naming k level) h
  | readKitchen tag k => exact State.serve_naming (congrArg (·.recs.naming) (s.readKitchen_self k)) h
  | readWindow tag k w => exact State.serve_naming (s.readWindow_naming k w) h
  | order tag g m n d => exact State.serve_naming (s.order_naming g m n d) h
  | amendOrder tag a => exact State.serve_naming (s.amendOrder_naming a) h
  | cancelOrder tag g => exact State.serve_naming (s.cancelOrder_naming g) h
  | readOrder tag g => exact State.serve_naming (congrArg (·.recs.naming) (s.readOrder_self g)) h
  | setLine tag l st m r => exact State.serve_naming (s.setLineTo_naming l st m r) h
  | restartLine tag l => exact State.serve_naming (s.restartLine_naming l) h
  | writeNode tag l n k g => exact State.serve_naming (s.writeNode_naming l n k g) h
  | readNode tag l n => exact State.serve_naming (congrArg (·.recs.naming) (s.readNode_self l n)) h
  | readNotices tag i n => exact State.serve_naming (s.readNotices_naming i n) h
  | setNoticeMask tag m => exact State.serve_naming (s.setNoticeMask_naming m) h

end Sys2Proof.Machine

/-! Writing and removing a room (R33 to R37): the memberships follow the member lists, and the ranges of R31, R35 and
R36 are kept through every step. -/

namespace Sys2Proof.Machine

open Sys2Proof

/-! ## Laws that the naming of the rooms decides -/

theorem Records.membershipsLawful_of_naming {b b' : Records} (h : b'.naming = b.naming) (hb : b.MembershipsLawful) :
    b'.MembershipsLawful := by
  have hr := (b.naming_eq_iff b').mp h
  obtain ⟨hmirror, hthree, hplain⟩ := hb
  exact ⟨fun m r => by rw [(hr m).2, (hr r).1]; exact hmirror m r, fun r => by rw [(hr r).2]; exact hthree r,
    fun r => by rw [(hr r).1, (hr r).2]; exact hplain r⟩

theorem Records.conflictSet_of_naming {b b' : Records} (h : b'.naming = b.naming) (r : RoomNo) :
    b'.conflictSet r = b.conflictSet r := by
  have hr := (b.naming_eq_iff b').mp h
  simp only [Records.conflictSet, (hr _).1, (hr _).2]

/-! ## The memberships that follow a member list (R34) -/

theorem insertRoom_insertRoom (r : RoomNo) (l : List RoomNo) : insertRoom r (insertRoom r l) = insertRoom r l := by
  induction l with
  | nil => simp [insertRoom]
  | cons x xs ih =>
    by_cases hlt : r < x
    · simp [insertRoom, hlt]
    · by_cases heq : r = x
      · simp [insertRoom, heq]
      · simp [insertRoom, hlt, heq, ih]

/-- Changing memberships by an idempotent `f` changes those of the listed rooms by `f`, and no other item. -/
theorem Records.mapMemberships_room_eq {f : List RoomNo → List RoomNo} (hf : ∀ l, f (f l) = f l) (ms : List RoomNo)
    (b : Records) (m : RoomNo) : (b.mapMemberships ms f).room m =
      { b.room m with memberships := if m ∈ ms then f (b.room m).memberships else (b.room m).memberships } := by
  induction ms generalizing b with
  | nil => rfl
  | cons x xs ih =>
    have step : b.mapMemberships (x :: xs) f =
      (b.setRoom x { (b.room x) with memberships := f (b.room x).memberships }).mapMemberships xs f := rfl
    rw [step, ih]
    by_cases hm : m = x
    · subst hm; simp [hf]
    · simp [b.setRoom_room_other _ hm, hm]

theorem Records.mapMemberships_eq (ms : List RoomNo) (f : List RoomNo → List RoomNo) (b : Records) :
    b.mapMemberships ms f = { b with rooms := (b.mapMemberships ms f).rooms } := by
  induction ms generalizing b with
  | nil => rfl
  | cons x xs ih => exact ih _

/-- The memberships of room `m` once the member list of room `r` has become `new`. -/
def Records.followed (b : Records) (r : RoomNo) (new : List RoomNo) (m : RoomNo) : List RoomNo :=
  if m ∈ (b.room r).attrs.members.getD [] then
    if m ∈ new then (b.room m).memberships else (b.room m).memberships.filter fun x => decide (x ≠ r)
  else if m ∈ new then insertRoom r (b.room m).memberships else (b.room m).memberships

theorem Records.withAttrs_room (b : Records) (r : RoomNo) (a : RoomAttrs) (m : RoomNo) :
    (b.withAttrs r a).room m = { b.room m with
      attrs := if m = r then a else (b.room m).attrs
      memberships := b.followed r (a.members.getD []) m } := by
  have hfilter : ∀ l : List RoomNo, (l.filter fun x => decide (x ≠ r)).filter (fun x => decide (x ≠ r)) =
      l.filter fun x => decide (x ≠ r) := fun l => by rw [List.filter_filter]; simp
  simp only [Records.withAttrs]
  by_cases hm : m = r
  · subst hm
    rw [Records.setRoom_room_same, Records.mapMemberships_room_eq (insertRoom_insertRoom m),
      Records.mapMemberships_room_eq hfilter]
    by_cases ho : m ∈ (b.room m).attrs.members.getD [] <;> by_cases hn : m ∈ a.members.getD [] <;>
      simp [Records.followed, ho, hn]
  · rw [Records.setRoom_room_other _ _ hm, Records.mapMemberships_room_eq (insertRoom_insertRoom r),
      Records.mapMemberships_room_eq hfilter, if_neg hm]
    by_cases ho : m ∈ (b.room r).attrs.members.getD [] <;> by_cases hn : m ∈ a.members.getD [] <;>
      simp [Records.followed, ho, hn]

theorem Records.withAttrs_eq (b : Records) (r : RoomNo) (a : RoomAttrs) :
    b.withAttrs r a = { b with rooms := (b.withAttrs r a).rooms } := by
  simp only [Records.withAttrs, Records.setRoom]
  rw [Records.mapMemberships_eq _ (insertRoom r), Records.mapMemberships_eq _ fun l => l.filter _]

section Mirror

variable {b : Records}

/-- No member list names its own room. -/
theorem Records.MembershipsLawful.not_self (h : b.MembershipsLawful) (r : RoomNo) :
    r ∉ (b.room r).attrs.members.getD [] := by
  intro hr
  obtain ⟨hmirror, -, hplain⟩ := h
  have hmem := (hmirror r r).mpr hr
  have hcombined : (b.room r).attrs.members ≠ none := fun e => by simp [e] at hr
  simp [hplain r hcombined] at hmem

/-- The memberships that follow a member list name the room in its new members alone, and the other combined rooms as
before. -/
theorem Records.MembershipsLawful.mem_followed (h : b.MembershipsLawful) (r : RoomNo) (new : List RoomNo)
    (m q : RoomNo) : q ∈ b.followed r new m ↔ if q = r then m ∈ new else q ∈ (b.room m).memberships := by
  have hmirror := h.1 m r
  unfold Records.followed
  by_cases hq : q = r
  · subst hq
    by_cases ho : m ∈ (b.room q).attrs.members.getD [] <;> by_cases hn : m ∈ new <;>
      simp [ho, hn, hmirror, mem_insertRoom]
  · by_cases ho : m ∈ (b.room r).attrs.members.getD [] <;> by_cases hn : m ∈ new <;>
      simp [ho, hn, hq, mem_insertRoom]

/-- What R35 and R36 ask of the member list of attributes `a` for room `r`. -/
structure Records.ListFits (b : Records) (r : RoomNo) (a : RoomAttrs) : Prop where
  own : ∀ l, a.members = some l → r ∉ l
  plain : ∀ l, a.members = some l → ∀ m ∈ l, (b.room m).attrs.members = none
  empty : ∀ l, a.members = some l → (b.room r).memberships = []
  three : ∀ l, a.members = some l → ∀ m ∈ l, ((b.withAttrs r a).room m).memberships.length ≤ 3

/-- The memberships mirror the member lists after a change of one list that fits (R34 to R36). -/
theorem Records.MembershipsLawful.withAttrs (h : b.MembershipsLawful) {r : RoomNo} {a : RoomAttrs}
    (hfits : b.ListFits r a) : (b.withAttrs r a).MembershipsLawful := by
  obtain ⟨hmirror, hthree, hcombined⟩ := id h
  have hlist : ∀ m ∈ a.members.getD [], ∃ l, a.members = some l ∧ m ∈ l := fun m hm => by
    cases e : a.members with
    | none => simp [e] at hm
    | some l => exact ⟨l, rfl, by simpa [e] using hm⟩
  refine ⟨fun m q => ?_, fun m => ?_, fun q hq => ?_⟩
  · rw [b.withAttrs_room, b.withAttrs_room]
    dsimp only
    rw [h.mem_followed]
    by_cases hqr : q = r
    · simp [hqr]
    · simp [hqr, hmirror]
  · by_cases hm : m ∈ a.members.getD []
    · obtain ⟨l, hl, hml⟩ := hlist m hm
      exact hfits.three l hl m hml
    · rw [b.withAttrs_room]
      simp only [Records.followed, hm, if_false]
      split
      · exact (List.length_filter_le _ _).trans (hthree m)
      · exact hthree m
  · have hnew : q ∉ a.members.getD [] := fun hm => by
      obtain ⟨l, hl, hql⟩ := hlist q hm
      by_cases hqr : q = r
      · exact hfits.own l hl (hqr ▸ hql)
      · rw [b.withAttrs_room] at hq
        simp only [if_neg hqr] at hq
        exact hq (hfits.plain l hl q hql)
    have hnone : (b.room q).memberships = [] := by
      rw [b.withAttrs_room] at hq
      by_cases hqr : q = r
      · obtain ⟨l, hl⟩ := Option.ne_none_iff_exists'.mp (by simpa [hqr] using hq)
        exact hqr ▸ hfits.empty l hl
      · exact hcombined q (by simpa [hqr] using hq)
    rw [b.withAttrs_room]
    simp [Records.followed, hnew, hnone]

end Mirror

/-! ## The checks of R33 -/

theorem Service.writable_eq_none (x : Service) : x.writable = none ↔ x = .undefined ∨ x = .outOfService := by
  cases x <;> simp [Service.writable]

/-- Check 3 of R33, with the ranges of R31. -/
theorem attrsInRange_iff (a : WriteRoomArgs) :
    attrsInRange a = true ↔ a.building < 16 ∧ 1 ≤ a.seats ∧ a.seats ≤ 500 ∧ (∀ k, a.kitchen = some k → k < 8) ∧
      a.gap % 5 = 0 ∧ a.gap ≤ 60 ∧ a.lead ≤ 15 ∧ 5 ≤ a.grace ∧ a.grace ≤ 30 ∧
      (a.vacate = 0 ∨ (10 ≤ a.vacate ∧ a.vacate ≤ 120)) := by
  unfold attrsInRange
  cases a.kitchen <;> simp [and_assoc]

theorem Records.membersOk_iff (b : Records) (r : RoomNo) (ms : List RoomNo) :
    b.membersOk r ms = true ↔ ms.Nodup ∧ r ∉ ms ∧
      (∀ m ∈ ms, (b.room m).service ≠ .undefined ∧ (b.room m).attrs.members = none) ∧
      (b.room r).memberships = [] := by
  simp [Records.membersOk, Records.isDefined, Room.isCombined, and_assoc]

/-- Numbers that all name rooms name the rooms that have them as numbers. -/
theorem mapM_roomNo?_eq_some {l : List Nat} {ms : List RoomNo} :
    l.mapM roomNo? = some ms ↔ ms.map Fin.val = l := by
  have hn : ∀ (n : Nat) (r : RoomNo), roomNo? n = some r ↔ r.val = n := fun n r => by
    unfold roomNo?
    split
    · rw [Option.some.injEq, Fin.ext_iff, eq_comm]
    · exact ⟨nofun, fun h => absurd (h ▸ r.isLt) ‹_›⟩
  induction l generalizing ms with
  | nil => cases ms <;> simp
  | cons n l ih =>
    cases ms with
    | nil => simp [List.mapM_cons, Option.bind_eq_some_iff]
    | cons m ms => simp [List.mapM_cons, Option.bind_eq_some_iff, hn, ih]

/-- The member list that a WRITE_ROOM carries: none for a count of 0, else the rooms numbered by a count of 2 to 4. -/
theorem suppliedMembers_eq_ok {a : WriteRoomArgs} {ms : Option (List RoomNo)} :
    suppliedMembers a = .ok ms ↔
      (a.memberCount = 0 ∧ ms = none) ∨ (2 ≤ a.memberCount ∧ a.memberCount ≤ 4 ∧
        ∃ l, ms = some l ∧ l.map Fin.val = a.memberFields.toList.take a.memberCount) := by
  unfold suppliedMembers
  split
  · rename_i h; cases ms <;> simp [h]
  · split
    · exact ⟨nofun, by rintro (⟨h0, -⟩ | ⟨hlo, hhi, -⟩) <;> omega⟩
    · have hcount : 2 ≤ a.memberCount ∧ a.memberCount ≤ 4 := by omega
      rw [or_iff_right (by omega)]
      simp only [hcount, true_and, ← mapM_roomNo?_eq_some]
      cases (a.memberFields.toList.take a.memberCount).mapM roomNo? <;> simp [eq_comm]

theorem suppliedMembers_error {a : WriteRoomArgs} {st : Status} (h : suppliedMembers a = .error st) :
    st = .badRoom := by
  unfold suppliedMembers at h
  split at h
  · cases h
  · split at h
    · cases h; rfl
    · split at h <;> cases h; rfl

/-- Check 7 of R33 (R36). -/
theorem Records.withinLimits_iff (b : Records) (r : RoomNo) :
    b.withinLimits r = true ↔ ∀ ms, (b.room r).attrs.members = some ms →
      (∀ m ∈ ms, (b.room m).memberships.length ≤ 3) ∧ ∀ q ∈ b.conflictSet r, (b.conflictSet q).length ≤ 12 := by
  unfold Records.withinLimits
  cases (b.room r).attrs.members <;> simp

/-- What the checks of R33 say of a WRITE_ROOM that passes them. -/
theorem Records.judgeWriteRoom_ok {b : Records} {a : WriteRoomArgs} {r : RoomNo} {x : RoomAttrs}
    (h : b.judgeWriteRoom a = .ok (r, x)) :
    a.room = r.val ∧ ((b.room r).service = .undefined ∨ (b.room r).service = .outOfService) ∧
      attrsInRange a = true ∧ suppliedMembers a = .ok x.members ∧ x = attrsOf a x.members ∧
      (∀ l, x.members = some l → b.membersOk r l = true) ∧ b.judgeAttrs r x = none := by
  unfold Records.judgeWriteRoom at h
  split at h
  · cases h
  · rename_i r' hroom
    split at h
    · cases h
    · rename_i hwritable
      split at h
      · rename_i hrange
        split at h
        · cases h
        · rename_i ms hms
          split at h
          · rename_i hok
            split at h <;> cases h
            rename_i hjudge
            refine ⟨?_, (Service.writable_eq_none _).mp hwritable, hrange, hms, rfl, fun l hl => ?_, hjudge⟩
            · unfold roomNo? at hroom
              split at hroom <;> cases hroom; rfl
            · simpa [show ms = some l from hl] using hok
          · cases h
      · cases h

theorem Records.judgeAttrs_withinLimits {b : Records} {r : RoomNo} {x : RoomAttrs} (h : b.judgeAttrs r x = none) :
    (b.withAttrs r x).withinLimits r = true :=
  firstRefusal_eq_none.mp h ((b.withAttrs r x).withinLimits r, .limit) (by simp)

theorem Records.judgeWriteRoom_listFits {b : Records} {a : WriteRoomArgs} {r : RoomNo} {x : RoomAttrs}
    (h : b.judgeWriteRoom a = .ok (r, x)) : b.ListFits r x := by
  obtain ⟨-, -, -, -, -, hok, hjudge⟩ := Records.judgeWriteRoom_ok h
  have hlimits := ((b.withAttrs r x).withinLimits_iff r).mp (Records.judgeAttrs_withinLimits hjudge)
  have hlist := fun l hl => (b.membersOk_iff r l).mp (hok l hl)
  refine ⟨fun l hl => (hlist l hl).2.1, fun l hl m hm => ((hlist l hl).2.2.1 m hm).2, fun l hl => (hlist l hl).2.2.2,
    fun l hl => (hlimits l ?_).1⟩
  rw [b.withAttrs_room, if_pos rfl]
  exact hl

/-- The attributes of a WRITE_ROOM that passes its checks are within their ranges (R31). -/
theorem Records.judgeWriteRoom_lawful {b : Records} {a : WriteRoomArgs} {r : RoomNo} {x : RoomAttrs}
    (h : b.judgeWriteRoom a = .ok (r, x)) : x.Lawful := by
  obtain ⟨-, -, hrange, hms, hx, hok, -⟩ := Records.judgeWriteRoom_ok h
  obtain ⟨hbuilding, hseats, hseats', -, hgap, hgap', hlead, hgrace, hgrace', hvacate⟩ := (attrsInRange_iff a).mp hrange
  rw [hx]
  refine ⟨Nat.le_of_lt_succ hbuilding, hseats, hseats', hgap, hgap', hlead, hgrace, hgrace', hvacate, fun l hl => ?_⟩
  rw [show x.members = some l from hl, suppliedMembers_eq_ok] at hms
  obtain ⟨-, e⟩ | ⟨hlo, hhi, l', e, hval⟩ := hms
  · cases e
  · cases e
    have hlength : l.length = a.memberCount := by
      simpa [Nat.min_eq_left hhi] using congrArg List.length hval
    exact ⟨hlength ▸ hlo, hlength ▸ hhi, ((b.membersOk_iff r l).mp (hok l hl)).1⟩

/-! ## The naming after a write and a removal -/

theorem Records.writeRoom_naming (b : Records) (r : RoomNo) (x : RoomAttrs) :
    (b.writeRoom r x).naming = (b.withAttrs r x).naming :=
  (b.withAttrs r x).setRoom_naming rfl rfl

theorem Records.removeRoom_naming (b : Records) (r : RoomNo) :
    (b.removeRoom r).naming = (b.withAttrs r RoomAttrs.reset).naming :=
  (b.withAttrs r RoomAttrs.reset).setRoom_naming (by rw [b.withAttrs_room, if_pos rfl]; rfl) rfl

theorem Records.reset_listFits (b : Records) (r : RoomNo) : b.ListFits r RoomAttrs.reset := by
  constructor <;> exact fun _ h => nomatch h

theorem State.serve_recs {s t : State} {cmd : Instr} {act : State → State × Answer} (h : s.serve cmd act = .next t) :
    t.recs = s.recs ∨ t.recs = (act s).1.recs := by
  rcases State.serve_cases h with rfl | ⟨-, ⟨_, _, _, _, rfl⟩ | ⟨-, rfl⟩⟩
  · exact .inl rfl
  · exact .inr rfl
  · exact .inr rfl

theorem State.writeRoom_recs (s : State) (a : WriteRoomArgs) :
    (s.writeRoom a).1.recs = s.recs ∨
      ∃ r x, s.recs.judgeWriteRoom a = .ok (r, x) ∧ (s.writeRoom a).1.recs = s.recs.writeRoom r x := by
  unfold State.writeRoom
  split
  · exact .inl rfl
  · rename_i hj; exact .inr ⟨_, _, hj, rfl⟩

theorem State.writeRoomRemove_recs (s : State) (n : Nat) :
    (s.writeRoomRemove n).1.recs = s.recs ∨ ∃ r, (s.writeRoomRemove n).1.recs = s.recs.removeRoom r := by
  unfold State.writeRoomRemove
  split
  · exact .inl rfl
  · dsimp only
    split
    · exact .inl rfl
    · split
      · exact .inl rfl
      · split
        · exact .inl rfl
        · exact .inr ⟨_, rfl⟩

/-- Attributes `x` may replace those of room `r`: within the ranges of R31 and the limits of R35 and R36. -/
structure Records.MayBecome (b : Records) (r : RoomNo) (x : RoomAttrs) : Prop where
  attrs : x.Lawful
  list : b.ListFits r x
  limits : (b.withAttrs r x).withinLimits r = true

theorem Records.judgeWriteRoom_mayBecome {b : Records} {a : WriteRoomArgs} {r : RoomNo} {x : RoomAttrs}
    (h : b.judgeWriteRoom a = .ok (r, x)) : b.MayBecome r x := by
  obtain ⟨-, -, -, -, -, -, hjudge⟩ := Records.judgeWriteRoom_ok h
  exact ⟨Records.judgeWriteRoom_lawful h, Records.judgeWriteRoom_listFits h, Records.judgeAttrs_withinLimits hjudge⟩

theorem Records.reset_mayBecome (b : Records) (r : RoomNo) : b.MayBecome r RoomAttrs.reset := by
  refine ⟨RoomAttrs.reset_lawful, b.reset_listFits r, ((b.withAttrs r _).withinLimits_iff r).mpr fun ms hms => ?_⟩
  rw [b.withAttrs_room, if_pos rfl] at hms
  cases hms

/-- What a command can do to the naming of the rooms: nothing, the reset of all, or one room's attributes replaced by
attributes that R31, R35 and R36 allow. -/
theorem exec_naming_cases {i : Instr} {s t : State} (h : exec i s = .next t) :
    t.recs.naming = s.recs.naming ∨ t.recs = Records.reset ∨
      ∃ (r : RoomNo) (x : RoomAttrs), t.recs.naming = (s.recs.withAttrs r x).naming ∧ s.recs.MayBecome r x := by
  by_cases hreset : i = .hardReset
  · subst hreset; cases h; exact .inr (.inl rfl)
  by_cases hwrite : ∃ tag a, i = .writeRoom tag a
  · obtain ⟨tag, a, rfl⟩ := hwrite
    rcases State.serve_recs (act := State.writeRoom a) h with e | e <;> rw [e]
    · exact .inl rfl
    · rcases s.writeRoom_recs a with e | ⟨r, x, hj, e⟩ <;> rw [e]
      · exact .inl rfl
      · exact .inr (.inr ⟨r, x, s.recs.writeRoom_naming r x, Records.judgeWriteRoom_mayBecome hj⟩)
  by_cases hremove : ∃ tag n, i = .writeRoomRemove tag n
  · obtain ⟨tag, n, rfl⟩ := hremove
    rcases State.serve_recs (act := State.writeRoomRemove n) h with e | e <;> rw [e]
    · exact .inl rfl
    · rcases s.writeRoomRemove_recs n with e | ⟨r, e⟩ <;> rw [e]
      · exact .inl rfl
      · exact .inr (.inr ⟨r, _, s.recs.removeRoom_naming r, s.recs.reset_mayBecome r⟩)
  · exact .inl (exec_naming hreset (fun tag a e => hwrite ⟨tag, a, e⟩) (fun tag n e => hremove ⟨tag, n, e⟩) h)

theorem step_naming_cases {s t : State} (h : step s = .next t) :
    t.recs.naming = s.recs.naming ∨ t.recs = Records.reset ∨
      ∃ (r : RoomNo) (x : RoomAttrs), t.recs.naming = (s.recs.withAttrs r x).naming ∧ s.recs.MayBecome r x := by
  unfold step at h
  split at h
  · cases h; exact .inl rfl
  · have hcases := exec_naming_cases h
    exact hcases

/-- Settles O12: the outcomes of `step_naming_cases`, a replaced member list by `MembershipsLawful.withAttrs`. -/
theorem stepKeepsRoomsLawful : Obligations.StepKeepsRoomsLawful := by
  intro s t hattrs hlists h
  rcases step_naming_cases h with e | e | ⟨r, x, e, hx⟩
  · exact ⟨fun q => (((s.recs.naming_eq_iff _).mp e) q).1 ▸ hattrs q, Records.membershipsLawful_of_naming e hlists⟩
  · rw [e]
    exact ⟨fun q => by rw [Records.reset_room]; exact RoomAttrs.reset_lawful, Records.reset_membershipsLawful⟩
  · refine ⟨fun q => ?_, Records.membershipsLawful_of_naming e (hlists.withAttrs hx.list)⟩
    rw [(((s.recs.withAttrs r x).naming_eq_iff _).mp e q).1, s.recs.withAttrs_room]
    dsimp only
    split
    · exact hx.attrs
    · exact hattrs q

end Sys2Proof.Machine

/-! Conflict sets (R38): what they hold while the memberships mirror the member lists, and their bound (R36). -/

namespace Sys2Proof.Machine

open Sys2Proof

/-! ## What a conflict set holds -/

section ConflictSet

variable (b : Records)

theorem Records.conflictSet_sorted (r : RoomNo) : (b.conflictSet r).Pairwise (· < ·) := by
  unfold Records.conflictSet
  split <;> exact roomSet_sorted _

theorem Records.conflictSet_nodup (r : RoomNo) : (b.conflictSet r).Nodup :=
  (b.conflictSet_sorted r).imp fun h => ne_of_lt h

theorem Records.mem_conflictSet_plain {r : RoomNo} (h : (b.room r).attrs.members = none) (q : RoomNo) :
    q ∈ b.conflictSet r ↔ q = r ∨ q ∈ (b.room r).memberships := by
  simp only [Records.conflictSet, h, mem_roomSet, List.mem_cons]

theorem Records.mem_conflictSet_combined {r : RoomNo} {ms : List RoomNo} (h : (b.room r).attrs.members = some ms)
    (q : RoomNo) : q ∈ b.conflictSet r ↔ q = r ∨ q ∈ ms ∨ ∃ m ∈ ms, q ∈ (b.room m).memberships := by
  simp only [Records.conflictSet, h, mem_roomSet, List.mem_append, List.mem_cons, List.mem_flatMap, or_assoc]

end ConflictSet

section Mirror

variable {b : Records}

/-- A room that a combined room lists is plain. -/
theorem Records.MembershipsLawful.plain_of_listed (h : b.MembershipsLawful) {m q : RoomNo}
    (hm : m ∈ (b.room q).attrs.members.getD []) : (b.room m).attrs.members = none := by
  by_contra hne
  have hmem := (h.1 m q).mpr hm
  rw [h.2.2 m hne] at hmem
  cases hmem

/-- The conflict set of R38: the room, its members, the rooms that list it, and those that list a room with it. -/
theorem Records.MembershipsLawful.mem_conflictSet (h : b.MembershipsLawful) (r q : RoomNo) :
    q ∈ b.conflictSet r ↔ q = r ∨ q ∈ (b.room r).attrs.members.getD [] ∨ r ∈ (b.room q).attrs.members.getD [] ∨
      ∃ m, m ∈ (b.room r).attrs.members.getD [] ∧ m ∈ (b.room q).attrs.members.getD [] := by
  cases hr : (b.room r).attrs.members with
  | none => simp [b.mem_conflictSet_plain hr, h.1]
  | some ms =>
    have hplain : r ∉ (b.room q).attrs.members.getD [] := fun hm => by
      simp [h.plain_of_listed hm] at hr
    simp [b.mem_conflictSet_combined hr, h.1, hplain]

theorem Records.MembershipsLawful.conflictSet_symm (h : b.MembershipsLawful) (r q : RoomNo) :
    q ∈ b.conflictSet r ↔ r ∈ b.conflictSet q := by
  rw [h.mem_conflictSet, h.mem_conflictSet]
  constructor <;>
  · rintro (e | hm | hm | ⟨m, hm, hm'⟩)
    · exact .inl e.symm
    · exact .inr (.inr (.inl hm))
    · exact .inr (.inl hm)
    · exact .inr (.inr (.inr ⟨m, hm', hm⟩))

/-! ## The bound of R36 -/

theorem insertRoom_length_le (r : RoomNo) (l : List RoomNo) : (insertRoom r l).length ≤ l.length + 1 := by
  induction l with
  | nil => simp [insertRoom]
  | cons x xs ih =>
    unfold insertRoom
    split
    · simp
    · split <;> simp [ih]

theorem roomSet_length_le (l : List RoomNo) : (roomSet l).length ≤ l.length := by
  induction l with
  | nil => simp [roomSet]
  | cons x xs ih => exact (insertRoom_length_le x _).trans (Nat.succ_le_succ ih)

theorem Records.MembershipsLawful.conflictSet_plain_length (h : b.MembershipsLawful) {r : RoomNo}
    (hr : (b.room r).attrs.members = none) : (b.conflictSet r).length ≤ 4 := by
  have hlength : (b.conflictSet r).length ≤ (r :: (b.room r).memberships).length := by
    simp only [Records.conflictSet, hr]
    exact roomSet_length_le _
  exact hlength.trans (Nat.succ_le_succ (h.2.1 r))

/-- A change of room `r`'s list adds no room to the set of a room that `r` does not share a member with after it. -/
theorem Records.MembershipsLawful.withAttrs_conflictSet (h : b.MembershipsLawful) {r q : RoomNo} {a : RoomAttrs}
    (hafter : (b.withAttrs r a).MembershipsLawful) (hq : q ≠ r)
    (hr : a.members = none ∨ r ∉ (b.withAttrs r a).conflictSet q) :
    (b.withAttrs r a).conflictSet q ⊆ b.conflictSet q := by
  have hattrs : ∀ m, m ≠ r → ((b.withAttrs r a).room m).attrs = (b.room m).attrs := fun m hm => by
    rw [b.withAttrs_room]
    exact if_neg hm
  intro p hp
  by_cases hpr : p = r
  · subst hpr
    have hnone : ((b.withAttrs p a).room p).attrs.members = none := by
      rw [b.withAttrs_room, if_pos rfl]
      exact hr.resolve_right fun hn => hn hp
    rw [hafter.mem_conflictSet, hattrs q hq, hnone] at hp
    rw [h.mem_conflictSet]
    rcases hp with e | hm | hm | ⟨m, -, hm⟩
    · exact .inl e
    · exact .inr (.inl hm)
    · cases hm
    · cases hm
  · rw [hafter.mem_conflictSet, hattrs q hq, hattrs p hpr] at hp
    rwa [h.mem_conflictSet]

theorem Records.SetsBounded.withAttrs (hb : b.SetsBounded) (h : b.MembershipsLawful) {r : RoomNo} {a : RoomAttrs}
    (ha : b.MayBecome r a) : (b.withAttrs r a).SetsBounded := by
  have hafter := h.withAttrs ha.list
  have hr : ((b.withAttrs r a).room r).attrs.members = a.members := by rw [b.withAttrs_room, if_pos rfl]
  intro q
  by_cases hplain : ((b.withAttrs r a).room q).attrs.members = none
  · exact (hafter.conflictSet_plain_length hplain).trans (by decide)
  · by_cases hlimited : a.members ≠ none ∧ q ∈ (b.withAttrs r a).conflictSet r
    · obtain ⟨hcombined, hmem⟩ := hlimited
      obtain ⟨ms, hms⟩ := Option.ne_none_iff_exists'.mp hcombined
      exact (((b.withAttrs r a).withinLimits_iff r).mp ha.limits ms (hr.trans hms)).2 q hmem
    · have hfree : a.members = none ∨ r ∉ (b.withAttrs r a).conflictSet q := by
        rwa [← hafter.conflictSet_symm, ← not_ne_iff, ← not_and_or]
      have hqr : q ≠ r := by
        rintro rfl
        rcases hfree with hnone | hnot
        · exact hplain (hr.trans hnone)
        · exact hnot ((hafter.mem_conflictSet _ _).mpr (.inl rfl))
      have hsub := h.withAttrs_conflictSet hafter hqr hfree
      exact (List.subperm_of_subset ((b.withAttrs r a).conflictSet_nodup q) hsub).length_le.trans (hb q)

end Mirror

theorem Records.setsBounded_of_naming {b b' : Records} (h : b'.naming = b.naming) (hb : b.SetsBounded) :
    b'.SetsBounded := fun r => by rw [Records.conflictSet_of_naming h]; exact hb r

/-- Settles O30: `MembershipsLawful.mem_conflictSet` for what a set holds, `exec_naming` for the commands that leave it,
and the outcomes of `step_naming_cases` for its bound. -/
theorem conflictSetsMirror : Obligations.ConflictSetsMirror := by
  refine ⟨fun b hb r q => ?_, fun i s t hreset hwrite hremove h r => ?_, fun s t hlists hattrs hbound h => ?_⟩
  · refine ⟨b.conflictSet_sorted r, hb.mem_conflictSet r q, fun hr => b.mem_conflictSet_plain hr q, fun ms hms => ?_,
      hb.conflictSet_symm r q, fun hr hq hne hmem => ?_⟩
    · rw [b.mem_conflictSet_combined hms]
      simp only [hb.1]
    · rw [hb.mem_conflictSet, hr, hq] at hmem
      rcases hmem with e | hm | hm | ⟨m, hm, -⟩
      · exact hne e.symm
      · cases hm
      · cases hm
      · cases hm
  · exact Records.conflictSet_of_naming (exec_naming hreset hwrite hremove h) r
  · rcases step_naming_cases h with e | e | ⟨r, x, e, hx⟩
    · exact Records.setsBounded_of_naming e hbound
    · rw [e]; exact Records.reset_setsBounded
    · exact Records.setsBounded_of_naming e (hbound.withAttrs hlists hx)

end Sys2Proof.Machine

/-! The living view and what LOOKUP_AT and LIST_ROOM answer from it (R39, R52, R92, R94). -/

namespace Sys2Proof.Machine

open Sys2Proof

/-! ## The living view (R39, R52) -/

theorem insertSeen_sorted {x : Seen} {l : List Seen} (h : l.Pairwise fun y z => y.booking.start ≤ z.booking.start) :
    (insertSeen x l).Pairwise fun y z => y.booking.start ≤ z.booking.start := by
  induction l with
  | nil => simp [insertSeen]
  | cons y ys ih =>
    obtain ⟨hy, hys⟩ := List.pairwise_cons.mp h
    unfold insertSeen
    split
    · rename_i hlt
      refine List.pairwise_cons.mpr ⟨fun z hz => ?_, h⟩
      rcases List.mem_cons.mp hz with rfl | hz
      · exact hlt.le
      · exact hlt.le.trans (hy z hz)
    · rename_i hle
      refine List.pairwise_cons.mpr ⟨fun z hz => ?_, ih hys⟩
      rcases mem_insertSeen.mp hz with rfl | hz
      · exact not_lt.mp hle
      · exact hy z hz

theorem Records.view_sorted (b : Records) (r : RoomNo) :
    (b.view r).Pairwise fun x y => x.booking.start ≤ y.booking.start := by
  have merged : ∀ (l acc : List Seen), (acc.Pairwise fun x y => x.booking.start ≤ y.booking.start) →
      (l.foldl (fun l x => insertSeen x l) acc).Pairwise fun x y => x.booking.start ≤ y.booking.start := by
    intro l
    induction l with
    | nil => exact fun acc h => h
    | cons x xs ih => exact fun acc h => ih _ (insertSeen_sorted h)
  exact merged _ [] .nil

theorem Records.livingView_sorted (b : Records) (now : Nat) (r : RoomNo) :
    (b.livingView now r).Pairwise fun x y => x.booking.start ≤ y.booking.start := (b.view_sorted r).filter _

theorem Records.mem_viewRooms (b : Records) (r q : RoomNo) :
    q ∈ b.viewRooms r ↔ q = r ∨ ((b.room r).attrs.members = none ∧ q ∈ (b.room r).memberships) := by
  unfold Records.viewRooms
  split <;> rename_i h <;> simp [h]

theorem Records.mem_livingView (b : Records) (now : Nat) (r : RoomNo) (x : Seen) :
    x ∈ b.livingView now r ↔ x.chainRoom ∈ b.viewRooms r ∧ x.slot ∈ (b.room x.chainRoom).chain ∧
      (b.slot x.slot).body = .booking x.booking ∧ ¬ x.booking.countsRetired now = true := by
  have hview : x ∈ b.view r ↔ x.chainRoom ∈ b.viewRooms r ∧ x.slot ∈ (b.room x.chainRoom).chain ∧
      (b.slot x.slot).body = .booking x.booking := by
    rw [Records.mem_view]
    constructor
    · rintro ⟨q, hq, hx⟩
      obtain ⟨rfl, hx⟩ := Records.mem_chainOf.mp hx
      exact ⟨hq, hx⟩
    · exact fun ⟨hq, hx⟩ => ⟨_, hq, Records.mem_chainOf.mpr ⟨rfl, hx⟩⟩
  simp only [Records.livingView, List.mem_filter, hview, and_assoc, Bool.not_eq_true', Bool.not_eq_true]

/-! ## The latest end (R92) -/

/-- The later of the minutes of a list and one that may be absent is the greatest of them. -/
theorem foldl_laterOf_eq_some {α : Type} (f : α → Nat) (l : List α) (a : Option Nat) (e : Nat) :
    l.foldl (fun a x => laterOf a (some (f x))) a = some e ↔
      (a = some e ∨ ∃ x ∈ l, f x = e) ∧ (∀ v, a = some v → v ≤ e) ∧ ∀ x ∈ l, f x ≤ e := by
  induction l generalizing a with
  | nil =>
    refine ⟨?_, ?_⟩
    · rintro rfl; simp
    · rintro ⟨ha | ⟨x, hx, -⟩, -⟩
      · exact ha
      · cases hx
  | cons x xs ih =>
    have hmax : ∀ n, max (a.getD 0) (f x) = n ↔ (n = f x ∧ ∀ v, a = some v → v ≤ n) ∨ (a = some n ∧ f x ≤ n) := by
      intro n
      cases a <;> simp <;> omega
    rw [List.foldl_cons, laterOf_some, ih]
    simp only [Option.some.injEq, List.mem_cons, forall_eq_or_imp, exists_eq_or_imp]
    grind

theorem Records.previousEnd_eq_some (b : Records) (now : Nat) (r : RoomNo) (m e : Nat) :
    b.previousEnd now r m = some e ↔ (∃ x ∈ b.livingView now r, x.booking.stop = e ∧ e ≤ m) ∧
      ∀ x ∈ b.livingView now r, x.booking.stop ≤ m → x.booking.stop ≤ e := by
  unfold Records.previousEnd
  rw [foldl_laterOf_eq_some fun x : Seen => x.booking.stop]
  simp only [reduceCtorEq, false_or, false_implies, implies_true, true_and, List.mem_filter, decide_eq_true_eq, and_imp]
  refine and_congr_left fun _ => exists_congr fun x => ?_
  constructor
  · rintro ⟨⟨hx, hm⟩, rfl⟩; exact ⟨hx, rfl, hm⟩
  · rintro ⟨hx, rfl, hm⟩; exact ⟨⟨hx, hm⟩, rfl⟩

/-! ## The commands -/

theorem State.lookupAt_found {s : State} (hr : s.recs.pool.state = .ready) {r : RoomNo} {m : Nat} (hm : m ≤ 16777215) :
    s.lookupAt r.val m = (s, .now .ok (s.recs.lookupPayload s.clk r m)) := by
  simp only [State.lookupAt, (Pool.isReady_iff _).mpr hr, if_true, roomNo?_val]
  exact if_neg (Nat.not_lt.mpr hm)

theorem State.listRoom_found {s : State} (hr : s.recs.pool.state = .ready) (r : RoomNo) (c : Nat) (a : Option Nat) :
    s.listRoom r.val c a =
      match firstRefusal [(decide (1 ≤ c ∧ c ≤ 8), .badValue), (suppliedInRange a, .badTime)] with
      | some st => (s, .now st [])
      | none => (s, .now .ok (s.recs.listPayload s.clk r c a)) := by
  simp only [State.listRoom, (Pool.isReady_iff _).mpr hr, if_true, roomNo?_val]
  rfl

theorem Records.listed_eq (b : Records) (now : Nat) (r : RoomNo) (a : Option Nat) :
    b.listed now r a = (b.livingView now r).filter fun x => a.all fun m => decide (m < x.booking.start) := by
  cases a <;> rfl

/-- Settles O29: the view by `mem_livingView` and `livingView_sorted`, and the two commands check by check. -/
theorem lookupAndListUseLivingView : Obligations.LookupAndListUseLivingView := by
  intro tag r s hidle b now l
  refine ⟨b.livingView_sorted now r, fun x => ?_, fun hr n m c a => ?_, fun hr => ⟨fun n m c a hn => ?_, fun m hm => ?_,
    fun m hm => ⟨b.previousEnd now r m, ?_, fun e => b.previousEnd_eq_some now r m e⟩, fun c a hc => ?_,
    fun c a h1 h8 ha => ?_, fun c a h1 h8 ha => ?_⟩⟩
  · rw [b.mem_livingView, Booking.countsRetired_iff, b.mem_viewRooms, not_or, not_le]
  · have hready : ¬ s.recs.pool.isReady = true := fun h => hr ((Pool.isReady_iff _).mp h)
    exact ⟨State.serve_idle_now hidle (if_neg hready), State.serve_idle_now hidle (if_neg hready)⟩
  · have hready := (Pool.isReady_iff _).mpr hr
    exact ⟨State.serve_idle_now hidle (by simp only [State.lookupAt, hready, if_true, roomNo?_none hn, refuse]),
      State.serve_idle_now hidle (by simp only [State.listRoom, hready, if_true, roomNo?_none hn, refuse])⟩
  · refine State.serve_idle_now hidle ?_
    simp only [State.lookupAt, (Pool.isReady_iff _).mpr hr, if_true, roomNo?_val]
    exact if_pos hm
  · refine (State.serve_idle_now hidle (State.lookupAt_found hr hm)).trans ?_
    unfold Records.lookupPayload Records.covering
    cases (s.recs.livingView s.clk.minute r).find? _ <;> rfl
  · refine State.serve_idle_now hidle ((State.listRoom_found hr r c a).trans ?_)
    have hcount : ¬ (1 ≤ c ∧ c ≤ 8) := by omega
    rw [decide_eq_false hcount]; rfl
  · refine State.serve_idle_now hidle ((State.listRoom_found hr r c _).trans ?_)
    have hrange : suppliedInRange (some a) = false := decide_eq_false (Nat.not_le.mpr ha)
    rw [decide_eq_true ⟨h1, h8⟩, hrange]; rfl
  · have hact : s.listRoom r.val c a = (s, .now .ok (s.recs.listPayload s.clk r c a)) := by
      rw [State.listRoom_found hr, decide_eq_true ⟨h1, h8⟩, (suppliedInRange_iff a).mpr ha]; rfl
    refine (State.serve_idle_now hidle hact).trans ?_
    simp only [Records.listPayload, Records.listed_eq, listBytes, yesNo, decide_eq_true_eq]
    rfl

end Sys2Proof.Machine

/-! The hand-offs of the panels, taken in order by the event of their kind (R42, R79, R81, R161, R172, R173). -/

namespace Sys2Proof.Machine

open Sys2Proof

/-! ## The oldest hand-off of a node -/

section TakePanel

variable {s : State} {l : LineNo} {n : NodeNo}

theorem takeFirst_none {xs : List PanelHandoff} (h : ∀ x ∈ xs, ¬ (x.line = l ∧ x.node = n)) :
    takeFirst l n xs = none := by
  induction xs with
  | nil => rfl
  | cons x xs ih =>
    obtain ⟨hx, hxs⟩ := List.forall_mem_cons.mp h
    simp only [takeFirst, if_neg hx, ih hxs, Option.map_none]

theorem takeFirst_append {front back : List PanelHandoff} {x : PanelHandoff}
    (hfront : ∀ y ∈ front, ¬ (y.line = l ∧ y.node = n)) (hx : x.line = l ∧ x.node = n) :
    takeFirst l n (front ++ x :: back) = some (x, front ++ back) := by
  induction front with
  | nil => simp only [List.nil_append, takeFirst, if_pos hx]
  | cons y ys ih =>
    obtain ⟨hy, hys⟩ := List.forall_mem_cons.mp hfront
    simp only [List.cons_append, takeFirst, if_neg hy, ih hys, Option.map_some]

/-- The state in which the hand-offs `rest` wait. -/
def State.withPanel (s : State) (rest : List PanelHandoff) : State := { s with mail := { s.mail with panel := rest } }

variable {want : PanelItem → Bool} {act : State → PanelHandoff → State}

theorem State.takePanel_empty (h : ∀ x ∈ s.mail.panel, ¬ (x.line = l ∧ x.node = n)) :
    s.takePanel l n want act = .next s := by
  simp only [State.takePanel, takeFirst_none h]

variable {front back : List PanelHandoff} {r : RoomNo} {item : PanelItem}
  (hpanel : s.mail.panel = front ++ { line := l, node := n, room := r, item := item } :: back)
  (hfront : ∀ x ∈ front, ¬ (x.line = l ∧ x.node = n))
include hpanel hfront

theorem State.takePanel_other (h : want item = false) : s.takePanel l n want act = .next s := by
  have hfirst := takeFirst_append (x := ⟨l, n, r, item⟩) (back := back) hfront ⟨rfl, rfl⟩
  simp only [State.takePanel, hpanel, hfirst, h]
  rfl

theorem State.takePanel_wanted (h : want item = true) :
    s.takePanel l n want act =
      .next (act (s.withPanel (front ++ back)) { line := l, node := n, room := r, item := item }) := by
  have hfirst := takeFirst_append (x := ⟨l, n, r, item⟩) (back := back) hfront ⟨rfl, rfl⟩
  simp only [State.takePanel, hpanel, hfirst, h]
  rfl

end TakePanel

/-! ## Requests (R79, R161) -/

/-- What a request does on a view brought up to date, by its own rule. -/
def Request.act : Request → Records → Clock → RoomNo → Records × PanelResult
  | .checkIn => Records.panelCheckIn
  | .extend => Records.panelExtend
  | .release => Records.panelRelease
  | .walkUp => Records.panelWalkUp

section PanelRequest

variable {b : Records} {c : Clock} {r : RoomNo} {act : Records → Records × PanelResult}

theorem Records.panelRequest_busy (h : b.pool.state ≠ .ready) : b.panelRequest c r act = (b, .busy) :=
  if_neg fun e => h ((Pool.isReady_iff _).mp e)

theorem Records.panelRequest_unset (hr : b.pool.state = .ready) (hc : c.state = .unset) :
    b.panelRequest c r act = (b, .nothing) := by
  simp only [Records.panelRequest, (Pool.isReady_iff _).mpr hr, hc, if_true]

theorem Records.panelRequest_closed (hr : b.pool.state = .ready) (hc : c.state ≠ .unset)
    (hs : (b.room r).service ≠ .inService) : b.panelRequest c r act = (b, .closed) := by
  simp only [Records.panelRequest, (Pool.isReady_iff _).mpr hr, if_true, if_neg hc, Records.inService,
    decide_eq_true_eq, if_neg hs]

theorem Records.panelRequest_judged (hr : b.pool.state = .ready) (hc : c.state ≠ .unset)
    (hs : (b.room r).service = .inService) : b.panelRequest c r act = act (b.bringUpSet c r) := by
  simp only [Records.panelRequest, (Pool.isReady_iff _).mpr hr, if_true, if_neg hc, Records.inService,
    decide_eq_true_eq, if_pos hs]

end PanelRequest

/-! ## Motion (R42, R81) -/

theorem Records.motionCheckIn_none {b : Records} {now : Nat} {r : RoomNo} (h : b.arrivingIn now r = none) :
    b.motionCheckIn now r = b := by
  simp only [Records.motionCheckIn, h]

theorem Records.motionCheckIn_some {b : Records} {now : Nat} {r : RoomNo} {x : Seen}
    (h : b.arrivingIn now r = some x) :
    b.motionCheckIn now r =
      if (b.room x.chainRoom).attrs.motionCheckIn = true ∧ (b.room x.chainRoom).service ≠ .closing then
        b.checkInAt now x
      else b := by
  simp [Records.motionCheckIn, h, Records.isClosing]

/-- Settles O42: the hand-off taken or passed by, then the judgement of R79, the motion, and the check-in of R81. -/
theorem panelHandoffsTaken : Obligations.PanelHandoffsTaken := by
  intro l n s asks judged
  have hasks : ∀ q, exec (asks q) s = s.takePanel l n (PanelItem.asks q) (State.takeRequest q.act) := by
    intro q; cases q <;> rfl
  have hjudged : ∀ q b r, judged q b r = q.act b s.clk r := by intro q; cases q <;> exact fun _ _ => rfl
  refine ⟨fun h => ⟨fun q => (hasks q).trans (State.takePanel_empty h),
      State.takePanel_empty (want := PanelItem.isMotion) (act := State.takeMotion) h,
      State.takePanel_empty (want := fun x => decide (x = .motionCheckIn)) (act := State.takeMotionCheckIn) h⟩, ?_⟩
  intro front back r item hpanel hfront rest
  refine ⟨fun q hitem => ?_, fun q hitem => ?_, fun count minute hitem => ?_, fun hitem => ?_, fun hitem => ?_,
    fun hitem => ?_⟩
  · intro done
    have htaken : ∀ b res, s.recs.panelRequest s.clk r (fun b => q.act b s.clk r) = (b, res) → done b res := by
      intro b res e
      refine (hasks q).trans ((State.takePanel_wanted hpanel hfront (decide_eq_true hitem)).trans ?_)
      simp only [State.takeRequest, State.withPanel, e]
      rfl
    exact ⟨fun hr => htaken _ _ (Records.panelRequest_busy hr),
      fun hr hc => htaken _ _ (Records.panelRequest_unset hr hc),
      fun hr hc hs => htaken _ _ (Records.panelRequest_closed hr hc hs),
      fun hr hc hs => htaken _ _ ((Records.panelRequest_judged hr hc hs).trans (hjudged q _ r).symm)⟩
  · exact (hasks q).trans (State.takePanel_other hpanel hfront (decide_eq_false hitem))
  · subst hitem
    have htaken : exec (.motionReport l n) s = .next ((s.withPanel rest).takeMotion
        { line := l, node := n, room := r, item := .motion count minute }) :=
      State.takePanel_wanted (want := PanelItem.isMotion) hpanel hfront rfl
    refine ⟨fun h0 => ?_, fun h0 => ⟨s.recs.setRoom r { s.recs.room r with lastMotion := some minute }, ?_, rfl,
      fun q hq => s.recs.setRoom_room_other _ hq, s.recs.setRoom_room_same _ _⟩⟩
    · rw [htaken]; simp only [State.takeMotion, if_pos h0]; rfl
    · rw [htaken]; simp only [State.takeMotion, if_neg (Nat.ne_of_gt h0)]; rfl
  · refine State.takePanel_other (want := PanelItem.isMotion) hpanel hfront ?_
    cases item with
    | motion count minute => exact absurd rfl (hitem count minute)
    | motionCheckIn => rfl
    | request q => rfl
  · exact State.takePanel_other (want := fun x => decide (x = .motionCheckIn)) hpanel hfront (decide_eq_false hitem)
  · intro taken act b
    have htaken : exec (.motionCheckIn l n) s = .next ((s.withPanel rest).takeMotionCheckIn
        { line := l, node := n, room := r, item := item }) :=
      State.takePanel_wanted (want := fun x => decide (x = .motionCheckIn)) hpanel hfront (decide_eq_true hitem)
    have hact : (s.recs.pool.isReady && decide (s.clk.state ≠ .unset) && s.recs.inService r) = true ↔ act := by
      simp [Records.inService, act, and_assoc]
    refine ⟨fun hn => ?_, fun ha => ?_⟩
    · refine htaken.trans ?_
      exact congrArg Host.Outcome.next (if_neg (mt hact.mp hn))
    · have hchecked : ∀ b', b.motionCheckIn s.clk.minute r = b' → taken b' := by
        rintro b' rfl
        refine htaken.trans ?_
        exact congrArg Host.Outcome.next (if_pos (hact.mpr ha))
      intro first
      have hfirst : b.arrivingIn s.clk.minute r = first := b.arrivingIn_eq _ _
      refine ⟨fun hnone => hchecked _ (Records.motionCheckIn_none (hfirst.trans hnone)), fun x hx => ?_⟩
      have hsome := Records.motionCheckIn_some (hfirst.trans hx)
      intro free
      exact ⟨fun hn => hchecked _ (hsome.trans (if_neg hn)), fun hf => hchecked _ (hsome.trans (if_pos hf))⟩

end Sys2Proof.Machine

/-! A room removed, its service state set, and the close-and-cancel walk (R37, R43 to R46). -/

namespace Sys2Proof.Machine

open Sys2Proof

/-- Some PANEL node on some line names a room (R151). -/
theorem Records.panelNames_iff (b : Records) (r : RoomNo) :
    b.panelNames r = true ↔ ∃ (l : LineNo) (n : NodeNo), ((b.line l).node n).kind = .panel r := by
  simp only [Records.panelNames, List.any_eq_true, Vector.mem_toList_iff, Node.shows_iff, List.mem_singleton,
    exists_eq_right]
  constructor
  · rintro ⟨x, hx, y, hy, hk⟩
    obtain ⟨i, hi, rfl⟩ := Vector.mem_iff_getElem.mp hx
    obtain ⟨j, hj, rfl⟩ := Vector.mem_iff_getElem.mp hy
    exact ⟨⟨i, hi⟩, ⟨j, hj⟩, hk⟩
  · rintro ⟨l, n, hk⟩
    exact ⟨b.line l, Vector.getElem_mem _, (b.line l).node n, Vector.getElem_mem _, hk⟩

/-! ## Removal (R37) -/

section Remove

variable {b : Records}

theorem Records.MembershipsLawful.removeRoom_room_same (h : b.MembershipsLawful) {r : RoomNo}
    (hchain : (b.room r).chain = []) (hmemberships : (b.room r).memberships = []) :
    (b.removeRoom r).room r = Room.reset := by
  have hfollowed : b.followed r [] r = [] := by simp [Records.followed, h.not_self r, hmemberships]
  simp only [Records.removeRoom, Records.markRooms_room, Records.setRoom_room_same, Room.removed,
    Records.withAttrs_room]
  simp [Room.reset, RoomAttrs.reset, hfollowed, hchain]

/-- A removed room leaves the memberships of its members, and the others do not hold it. -/
theorem Records.MembershipsLawful.removeRoom_room_other (h : b.MembershipsLawful) {r m : RoomNo} (hm : m ≠ r) :
    (b.removeRoom r).room m =
      { b.room m with memberships := (b.room m).memberships.filter fun q => decide (q ≠ r) } := by
  have hfollowed : b.followed r [] m = (b.room m).memberships.filter fun q => decide (q ≠ r) := by
    by_cases hold : m ∈ (b.room r).attrs.members.getD []
    · simp [Records.followed, hold]
    · have hkept : ∀ q ∈ (b.room m).memberships, decide (q ≠ r) = true := by
        rintro q hq
        refine decide_eq_true ?_
        rintro rfl
        exact hold ((h.1 m q).mp hq)
      simp only [Records.followed, hold, List.not_mem_nil, if_false, List.filter_eq_self.mpr hkept]
  simp only [Records.removeRoom, Records.markRooms_room, Records.setRoom_room_other _ _ hm, Records.withAttrs_room,
    if_neg hm]
  exact congrArg (fun l => { b.room m with memberships := l }) hfollowed

theorem Records.removeRoom_marks (b : Records) (r : RoomNo) :
    b.Marks (b.removeRoom r) (fun q => q ∈ (b.room r).attrs.members.getD []) :=
  (Records.markRooms_marks _ _).of_lines (congrArg Records.lines (b.withAttrs_eq r RoomAttrs.reset)).symm rfl
    fun _ => Iff.rfl

theorem Records.removeRoom_eq (b : Records) (r : RoomNo) :
    b.removeRoom r = { b with rooms := (b.removeRoom r).rooms, lines := (b.removeRoom r).lines } := by
  simp only [Records.removeRoom, Records.markRooms, Records.setRoom]
  rw [b.withAttrs_eq]

/-- A removal that the checks of R37 refuse, by the first that fails. -/
theorem State.writeRoomRemove_out {s : State} {r : RoomNo} (h : (s.recs.room r).service = .outOfService) :
    s.writeRoomRemove r.val =
      match firstRefusal [((s.recs.room r).chain.isEmpty, .roomNotEmpty),
        ((s.recs.room r).memberships.isEmpty, .badRoom), (!s.recs.panelNames r, .nodeInUse)] with
      | some st => refuse s st
      | none => (s.withRecs (s.recs.removeRoom r), .now .ok []) := by
  simp only [State.writeRoomRemove, roomNo?_val, h, Service.writable]
  rfl

end Remove

/-! ## The service state (R43) -/

section SetService

variable {b : Records} {r : RoomNo} {st : Service}

theorem Records.setService_same (h : (b.room r).service = st) : b.setService r st = b := if_pos h

section Other

variable (h : (b.room r).service ≠ st)
include h

theorem Records.setService_room_same : (b.setService r st).room r = { b.room r with service := st } := by
  rw [Records.setService, if_neg h, Records.markShowing_room, Records.setRoom_room_same]

theorem Records.setService_room_other {q : RoomNo} (hq : q ≠ r) : (b.setService r st).room q = b.room q := by
  rw [Records.setService, if_neg h, Records.markShowing_room, Records.setRoom_room_other _ _ hq]

theorem Records.setService_marks :
    b.Marks (b.setService r st) (fun q => q = r ∨ q ∈ (b.room r).attrs.members.getD []) := by
  rw [Records.setService, if_neg h]
  refine (Records.markRooms_marks _ _).of_lines rfl rfl fun q => ?_
  simp [Records.shownOn]

theorem Records.setService_eq :
    b.setService r st = { b with rooms := (b.setService r st).rooms, lines := (b.setService r st).lines } := by
  rw [Records.setService, if_neg h]
  rfl

end Other

theorem Records.setService_service : ((b.setService r st).room r).service = st := by
  by_cases h : (b.room r).service = st
  · rwa [Records.setService_same h]
  · rw [Records.setService_room_same h]

theorem Records.setService_attrs (q : RoomNo) : ((b.setService r st).room q).attrs = (b.room q).attrs := by
  by_cases h : (b.room r).service = st
  · rw [Records.setService_same h]
  · by_cases hq : q = r
    · subst hq; rw [Records.setService_room_same h]
    · rw [Records.setService_room_other h hq]

theorem Records.serviceRoom_none {n : Nat} (h : 384 ≤ n) : b.serviceRoom n = .error .badRoom := by
  simp only [Records.serviceRoom, roomNo?_none h]

theorem Records.serviceRoom_undefined (h : (b.room r).service = .undefined) :
    b.serviceRoom r.val = .error .badRoom := by
  simp only [Records.serviceRoom, roomNo?_val, h]

theorem Records.serviceRoom_closing (h : (b.room r).service = .closing) : b.serviceRoom r.val = .error .busy := by
  simp only [Records.serviceRoom, roomNo?_val, h]

theorem Records.serviceRoom_ok (h : (b.room r).service = .inService ∨ (b.room r).service = .outOfService) :
    b.serviceRoom r.val = .ok r := by
  rcases h with h | h <;> simp only [Records.serviceRoom, roomNo?_val, h]

end SetService

section ServiceCommands

variable {s : State} {n : Nat}

theorem State.setRoomService_error {st : Status} (h : s.recs.serviceRoom n = .error st) (up : Bool) :
    s.setRoomService up n = (s, .now st []) := by
  simp only [State.setRoomService, h, refuse]

theorem State.setRoomService_ok {r : RoomNo} (h : s.recs.serviceRoom n = .ok r) (up : Bool) :
    s.setRoomService up n =
      (s.withRecs (s.recs.setService r (if up then .inService else .outOfService)), .now .ok
        ([((s.recs.setService r (if up then .inService else .outOfService)).room r).service.byte] ++
          yesNo ((s.recs.setService r (if up then .inService else .outOfService)).bookable r))) := by
  simp only [State.setRoomService, h]

theorem State.closeAndCancel_initializing (h : s.recs.pool.state = .initializing) :
    s.closeAndCancel n = (s, .now .notReady []) :=
  if_pos ((Pool.isInitializing_iff _).mpr h)

variable (hi : s.recs.pool.state ≠ .initializing)
include hi

theorem State.closeAndCancel_error {st : Status} (h : s.recs.serviceRoom n = .error st) :
    s.closeAndCancel n = (s, .now st []) := by
  simp only [State.closeAndCancel, if_neg (mt (Pool.isInitializing_iff _).mp hi), h, refuse]

theorem State.closeAndCancel_ok {r : RoomNo} (h : s.recs.serviceRoom n = .ok r) :
    s.closeAndCancel n = (s.withRecs (s.recs.setService r .closing), .now .started []) := by
  simp only [State.closeAndCancel, if_neg (mt (Pool.isInitializing_iff _).mp hi), h]

end ServiceCommands

/-- A SET_ROOM_SERVICE answered at once; both of its forms echo the command's code and tag. -/
theorem exec_setRoomService_now {s s' : State} {tag : Byte} {up : Bool} {n : Nat} {st : Status} {p : List Byte}
    (hidle : s.port.state = .idle) (hact : s.setRoomService up n = (s', .now st p)) :
    exec (.setRoomService tag up n) s = .next (s'.respond 34 tag st p) := by
  have hecho : codeTag (.setRoomService tag up n) = (34, tag) := by cases up <;> rfl
  have hnow := State.serve_idle_now (cmd := .setRoomService tag up n) hidle hact
  rw [hecho] at hnow
  exact hnow

/-- Settles O33: the checks of R37 in order, then the service forms by the state that the room is in. -/
theorem roomRemovedAndServiceSet : Obligations.RoomRemovedAndServiceSet := by
  intro tag s hidle remove service close
  have hremove : ∀ {n st}, s.writeRoomRemove n = (s, .now st []) → remove n st := State.serve_idle_now hidle
  have hservice : ∀ {n st}, s.recs.serviceRoom n = .error st → ∀ up, service up n st := fun h up =>
    exec_setRoomService_now hidle (State.setRoomService_error h up)
  have hclose : ∀ {n st}, s.recs.serviceRoom n = .error st → s.recs.pool.state ≠ .initializing → close n st :=
    fun h hi => State.serve_idle_now hidle (State.closeAndCancel_error hi h)
  refine ⟨fun n hn => ⟨hremove ?_, hservice (Records.serviceRoom_none hn), hclose (Records.serviceRoom_none hn)⟩,
    fun n hi => State.serve_idle_now hidle (State.closeAndCancel_initializing hi), fun r => ?_⟩
  · simp only [State.writeRoomRemove, roomNo?_none hn, refuse]
  intro x named
  refine ⟨fun hu => ⟨hremove ?_, hservice (Records.serviceRoom_undefined hu),
      hclose (Records.serviceRoom_undefined hu)⟩,
    fun hc => ⟨hremove ?_, hservice (Records.serviceRoom_closing hc), hclose (Records.serviceRoom_closing hc)⟩,
    fun hi => hremove ?_, fun ho => ⟨fun hchain => hremove ?_, fun hchain hmem => hremove ?_,
      fun hchain hmem hnamed => hremove ?_, fun hchain hmem hnamed hlaw => ?_⟩, fun hs => ⟨fun up => ?_, fun hi => ?_⟩⟩
  · have hu' : (s.recs.room r).service = .undefined := hu
    simp [State.writeRoomRemove, roomNo?_val, hu', Service.writable]
  · have hc' : (s.recs.room r).service = .closing := hc
    simp [State.writeRoomRemove, roomNo?_val, hc', Service.writable, refuse]
  · have hi' : (s.recs.room r).service = .inService := hi
    simp [State.writeRoomRemove, roomNo?_val, hi', Service.writable, refuse]
  · have hfull : (s.recs.room r).chain.isEmpty = false := by simpa using hchain
    rw [State.writeRoomRemove_out ho, hfull]
    rfl
  · have hempty : (s.recs.room r).chain.isEmpty = true := by simpa using hchain
    have hin : (s.recs.room r).memberships.isEmpty = false := by simpa using hmem
    rw [State.writeRoomRemove_out ho, hempty, hin]
    rfl
  · have hempty : (s.recs.room r).chain.isEmpty = true := by simpa using hchain
    have hout : (s.recs.room r).memberships.isEmpty = true := by simpa using hmem
    rw [State.writeRoomRemove_out ho, hempty, hout, (s.recs.panelNames_iff r).mpr hnamed]
    rfl
  · have hempty : (s.recs.room r).chain.isEmpty = true := by simpa using hchain
    have hout : (s.recs.room r).memberships.isEmpty = true := by simpa using hmem
    have hfree : s.recs.panelNames r = false := Bool.eq_false_iff.mpr (mt (s.recs.panelNames_iff r).mp hnamed)
    refine ⟨s.recs.removeRoom r, State.serve_idle_now hidle ?_, hlaw.removeRoom_room_same hchain hmem,
      fun m => hlaw.removeRoom_room_other, s.recs.removeRoom_marks r, s.recs.removeRoom_eq r⟩
    rw [State.writeRoomRemove_out ho, hempty, hout, hfree]
    rfl
  · refine ⟨s.recs.setService r (if up then .inService else .outOfService), ?_⟩
    intro target bookable
    have hbookable : (s.recs.setService r target).bookable r = true ↔ bookable := by
      rw [Records.bookable_iff, Records.setService_attrs]
      simp only [bookable, Records.inService, decide_eq_true_eq]
      exact Iff.rfl
    have hyes : yesNo ((s.recs.setService r target).bookable r) = [if bookable then 1 else 0] := by
      by_cases hb : bookable
      · rw [hbookable.mpr hb, if_pos hb]; rfl
      · rw [Bool.eq_false_iff.mpr (mt hbookable.mp hb), if_neg hb]; rfl
    refine ⟨?_, Records.setService_same, fun hne => ⟨Records.setService_room_same hne,
      fun q => Records.setService_room_other hne, Records.setService_marks hne, Records.setService_eq hne⟩⟩
    refine exec_setRoomService_now hidle ((State.setRoomService_ok (Records.serviceRoom_ok hs) up).trans ?_)
    refine congrArg (fun p => (s.withRecs (s.recs.setService r target), Answer.now .ok p)) ?_
    rw [hyes, Records.setService_service]
    cases up <;> rfl
  · have hne : (s.recs.room r).service ≠ .closing := by
      rcases hs with h | h <;> rw [show (s.recs.room r).service = _ from h] <;> nofun
    exact ⟨s.recs.setService r .closing,
      State.serve_idle_now hidle (State.closeAndCancel_ok hi (Records.serviceRoom_ok hs)),
      Records.setService_room_same hne, fun q => Records.setService_room_other hne, Records.setService_marks hne,
      Records.setService_eq hne⟩

/-! ## The close-and-cancel walk (R45, R46) -/

section CloseStep

variable {b : Records} {c : Clock} {r : RoomNo}

theorem Records.closeStep_retire {sl : SlotNo} {rest : List SlotNo} {k : Booking}
    (hchain : ((b.bringUp c r).room r).chain = sl :: rest) (hk : ((b.bringUp c r).slot sl).body = .booking k) :
    b.closeStep c r = ((b.bringUp c r).retire c sl k .closed).1 := by
  simp only [Records.closeStep, hchain, Records.booking?_eq_some.mpr hk]

theorem Records.closeStep_done (hchain : ((b.bringUp c r).room r).chain = []) :
    b.closeStep c r = (b.bringUp c r).closeDone r := by
  simp only [Records.closeStep, hchain]

theorem Records.closeDone_room_same : (b.closeDone r).room r = { b.room r with service := .outOfService } :=
  b.setRoom_room_same _ _

theorem Records.closeDone_room_other {q : RoomNo} (h : q ≠ r) : (b.closeDone r).room q = b.room q :=
  b.setRoom_room_other _ h

theorem Records.closeDone_marks :
    b.Marks (b.closeDone r) (fun q => q = r ∨ q ∈ (b.room r).attrs.members.getD []) := by
  have hshown : ((b.setRoom r { b.room r with service := .outOfService }).room r).attrs = (b.room r).attrs := by
    rw [Records.setRoom_room_same]
  refine (Records.markRooms_marks _ _).of_lines rfl rfl fun q => ?_
  simp only [Records.shownOn, Records.raise_room, hshown, List.mem_cons]

end CloseStep

/-- Settles O34: the walk's step on the room brought up to date, by the head of its chain. -/
theorem closeWalkRetiresAndCompletes : Obligations.CloseWalkRetiresAndCompletes := by
  intro r s b
  have hclosing := s.recs.isClosing_iff r
  refine ⟨fun h => if_neg (mt hclosing.mp h), fun h => ?_⟩
  have hstep : exec (.closeWalkStep r) s = .next (s.withRecs (s.recs.closeStep s.clk r)) := if_pos (hclosing.mpr h)
  refine ⟨fun sl rest k hchain hk => ?_, fun hchain => ⟨b.closeDone r, ?_, Records.closeDone_room_same,
    fun q => Records.closeDone_room_other, rfl, Records.closeDone_marks, rfl⟩⟩
  · rw [hstep, Records.closeStep_retire hchain hk]; rfl
  · rw [hstep, Records.closeStep_done hchain]; rfl

end Sys2Proof.Machine

/-! WRITE_ROOM: the checks of R33 in their order, and the attributes replaced whole (R34 to R36). -/

namespace Sys2Proof.Machine

open Sys2Proof

/-! ## The attributes supplied -/

/-- Two lists make the same set of rooms exactly when they hold the same rooms. -/
theorem roomSet_eq_iff (l l' : List RoomNo) : roomSet l = roomSet l' ↔ ∀ q, q ∈ l ↔ q ∈ l' := by
  refine ⟨fun h q => by rw [← mem_roomSet, h, mem_roomSet], fun h => ?_⟩
  refine (roomSet_sorted l).eq_of_mem_iff (roomSet_sorted l') fun q => ?_
  rw [mem_roomSet, mem_roomSet, h]

/-- Whether a change of the member list is none, judged as a set (R33). -/
theorem sameMembers_iff (x y : Option (List RoomNo)) :
    sameMembers x y = true ↔
      (x = none ∧ y = none) ∨ ∃ new old, x = some new ∧ y = some old ∧ ∀ q, q ∈ new ↔ q ∈ old := by
  cases x <;> cases y <;> simp [sameMembers, roomSet_eq_iff]

theorem attrsOf_kitchen {a : WriteRoomArgs} (h : attrsInRange a = true) (ms : Option (List RoomNo)) :
    (attrsOf a ms).kitchen = a.kitchen.map (Fin.ofNat 8) := by
  obtain ⟨-, -, -, hkitchen, -⟩ := (attrsInRange_iff a).mp h
  cases e : a.kitchen with
  | none => simp [attrsOf, e]
  | some k =>
    have hk : (Fin.ofNat 8 k).val = k := Nat.mod_eq_of_lt (hkitchen k e)
    simp only [attrsOf, e, Option.bind_some, Option.map_some]
    rw [← kitchenNo?_val, hk]

/-! ## The checks that fail -/

theorem Records.membersOk_getD {b : Records} {r : RoomNo} {ms : Option (List RoomNo)}
    (h : ∀ l, ms = some l → b.membersOk r l = true) : (ms.map (b.membersOk r)).getD true = true := by
  cases ms with
  | none => rfl
  | some l => exact h l rfl

section Judged

variable {b : Records} {a : WriteRoomArgs} {r : RoomNo}

theorem Records.judgeWriteRoom_badRoom (h : 384 ≤ a.room) : b.judgeWriteRoom a = .error .badRoom := by
  simp only [Records.judgeWriteRoom, roomNo?_none h]

variable (hroom : a.room = r.val)
include hroom

theorem Records.judgeWriteRoom_service {st : Status} (h : (b.room r).service.writable = some st) :
    b.judgeWriteRoom a = .error st := by
  simp only [Records.judgeWriteRoom, hroom, roomNo?_val, h]

variable (hwritable : (b.room r).service.writable = none)
include hwritable

theorem Records.judgeWriteRoom_badValue (h : ¬ attrsInRange a = true) : b.judgeWriteRoom a = .error .badValue := by
  simp only [Records.judgeWriteRoom, hroom, roomNo?_val, hwritable, if_neg h]

variable (hrange : attrsInRange a = true)
include hrange

theorem Records.judgeWriteRoom_noList {st : Status} (h : suppliedMembers a = .error st) :
    b.judgeWriteRoom a = .error st := by
  simp only [Records.judgeWriteRoom, hroom, roomNo?_val, hwritable, if_pos hrange, h]

variable {ms : Option (List RoomNo)} (hms : suppliedMembers a = .ok ms)
include hms

theorem Records.judgeWriteRoom_badList {l : List RoomNo} (hl : ms = some l) (h : ¬ b.membersOk r l = true) :
    b.judgeWriteRoom a = .error .badRoom := by
  subst hl
  simp only [Records.judgeWriteRoom, hroom, roomNo?_val, hwritable, if_pos hrange, hms, Option.map_some,
    Option.getD_some, if_neg h]

variable (hok : ∀ l, ms = some l → b.membersOk r l = true)
include hok

theorem Records.judgeWriteRoom_refused {st : Status} (h : b.judgeAttrs r (attrsOf a ms) = some st) :
    b.judgeWriteRoom a = .error st := by
  have hlist := Records.membersOk_getD hok
  simp only [Records.judgeWriteRoom, hroom, roomNo?_val, hwritable, if_pos hrange, hms, if_pos hlist, h]

theorem Records.judgeWriteRoom_passes (h : b.judgeAttrs r (attrsOf a ms) = none) :
    b.judgeWriteRoom a = .ok (r, attrsOf a ms) := by
  have hlist := Records.membersOk_getD hok
  simp only [Records.judgeWriteRoom, hroom, roomNo?_val, hwritable, if_pos hrange, hms, if_pos hlist, h]

end Judged

/-! ## The checks on the table (checks 5 to 7 of R33) -/

section Table

variable {b : Records} {r : RoomNo} {x : RoomAttrs}

theorem Records.judgeAttrs_nodeInUse (hlist : x.members ≠ none) (hnamed : b.panelNames r = true) :
    b.judgeAttrs r x = some .nodeInUse := by
  obtain ⟨l, hl⟩ := Option.ne_none_iff_exists'.mp hlist
  simp only [Records.judgeAttrs, hl, hnamed, Option.isSome_some]
  rfl

variable (hfree : ¬ (x.members ≠ none ∧ b.panelNames r = true))
include hfree

theorem Records.judgeAttrs_free : (!x.members.isSome || !b.panelNames r) = true := by
  cases e : x.members <;> simp_all

theorem Records.judgeAttrs_roomNotEmpty
    (hchange : ¬ (x.gap = (b.room r).attrs.gap ∧ sameMembers x.members (b.room r).attrs.members = true))
    (hchain : (b.room r).chain ≠ []) : b.judgeAttrs r x = some .roomNotEmpty := by
  have hsecond : (decide (x.gap = (b.room r).attrs.gap) && sameMembers x.members (b.room r).attrs.members ||
      (b.room r).chain.isEmpty) = false := by
    simpa [hchain] using hchange
  simp only [Records.judgeAttrs, Records.judgeAttrs_free hfree, hsecond, firstRefusal_pass, firstRefusal_fail]

theorem Records.judgeAttrs_limits
    (hsecond : (x.gap = (b.room r).attrs.gap ∧ sameMembers x.members (b.room r).attrs.members = true) ∨
      (b.room r).chain = []) :
    b.judgeAttrs r x = if (b.withAttrs r x).withinLimits r = true then none else some .limit := by
  have hpass : (decide (x.gap = (b.room r).attrs.gap) && sameMembers x.members (b.room r).attrs.members ||
      (b.room r).chain.isEmpty) = true := by
    simpa using hsecond
  simp only [Records.judgeAttrs, Records.judgeAttrs_free hfree, hpass, firstRefusal_pass]
  rfl

end Table

/-! ## The room written (R34) -/

section Written

variable {b : Records} {a : WriteRoomArgs} {r : RoomNo} {x : RoomAttrs}

theorem Records.MembershipsLawful.writeRoom_room_same (hlaw : b.MembershipsLawful)
    (h : b.judgeWriteRoom a = .ok (r, x)) :
    (b.writeRoom r x).room r = { b.room r with attrs := x, service := .outOfService } := by
  obtain ⟨-, hservice, -⟩ := Records.judgeWriteRoom_ok h
  have hnew : r ∉ x.members.getD [] := by
    cases e : x.members with
    | none => simp
    | some l => exact (Records.judgeWriteRoom_listFits h).own l e
  have hfollowed : b.followed r (x.members.getD []) r = (b.room r).memberships := by
    simp only [Records.followed, hlaw.not_self r, hnew, if_false]
  have hout : (if (b.room r).service = .undefined then Service.outOfService else (b.room r).service) =
      .outOfService := by
    rcases hservice with e | e <;> rw [e] <;> rfl
  simp only [Records.writeRoom, Records.markRooms_room, Records.markShowing_room, Records.setRoom_room_same,
    Records.withAttrs_room, hfollowed, hout, if_true]

theorem Records.writeRoom_room_other {m : RoomNo} (hm : m ≠ r) :
    (b.writeRoom r x).room m = { b.room m with memberships := b.followed r (x.members.getD []) m } := by
  simp only [Records.writeRoom, Records.markRooms_room, Records.markShowing_room, Records.setRoom_room_other _ _ hm,
    Records.withAttrs_room, if_neg hm]

theorem mem_movedMembers (old new : Option (List RoomNo)) (q : RoomNo) :
    q ∈ movedMembers old new ↔ (q ∈ old.getD [] ∧ q ∉ new.getD []) ∨ (q ∈ new.getD [] ∧ q ∉ old.getD []) := by
  simp [movedMembers]

/-- The panels marked stale by a write: those of the room, its members and its former members (R34). -/
theorem Records.writeRoom_marks : b.Marks (b.writeRoom r x)
    (fun q => q = r ∨ q ∈ x.members.getD [] ∨ q ∈ (b.room r).attrs.members.getD []) := by
  refine (((Records.markRooms_marks _ _).trans (Records.markRooms_marks _ _)).of_lines
    (congrArg Records.lines (b.withAttrs_eq r x)).symm rfl fun q => ?_)
  simp only [Records.shownOn, Records.setRoom_room_same, Records.withAttrs_room, if_true, List.mem_cons,
    mem_movedMembers]
  tauto

theorem Records.writeRoom_eq :
    b.writeRoom r x = { b with rooms := (b.writeRoom r x).rooms, lines := (b.writeRoom r x).lines } := by
  simp only [Records.writeRoom, Records.markShowing, Records.markRooms, Records.setRoom]
  rw [b.withAttrs_eq]

end Written

/-- Settles O32: the checks one after the other, and the write by what `withAttrs` leaves. -/
theorem roomWritten : Obligations.RoomWritten := by
  intro tag a s hidle refused
  have hrefused : ∀ st, s.recs.judgeWriteRoom a = .error st → refused st := fun st h =>
    State.serve_idle_now hidle (by simp only [State.writeRoom, h, refuse])
  refine ⟨fun h => hrefused _ (Records.judgeWriteRoom_badRoom h), fun r hroom => ⟨fun h => ?_, fun h => ?_,
    fun hs hv => ?_⟩, fun r hroom => ?_, hrefused, fun r x hlaw h => ⟨s.recs.writeRoom r x, ?_⟩⟩
  · exact hrefused _ (Records.judgeWriteRoom_service hroom (by rw [h]; rfl))
  · exact hrefused _ (Records.judgeWriteRoom_service hroom (by rw [h]; rfl))
  · exact hrefused _ (Records.judgeWriteRoom_badValue hroom ((Service.writable_eq_none _).mpr hs)
      (mt (attrsInRange_iff a).mp hv))
  · intro y valuesOk supplied lists hs hv
    have hwritable := (Service.writable_eq_none _).mpr hs
    have hrange := (attrsInRange_iff a).mpr hv
    refine ⟨fun hcount hnone => hrefused _ ?_, fun ms hzero hlisted => ?_⟩
    · cases hsup : suppliedMembers a with
      | error st =>
        obtain rfl := suppliedMembers_error hsup
        exact Records.judgeWriteRoom_noList hroom hwritable hrange hsup
      | ok ms =>
        obtain ⟨h0, -⟩ | ⟨hlo, hhi, l, hl, hval⟩ := suppliedMembers_eq_ok.mp hsup
        · exact absurd h0 hcount
        · refine Records.judgeWriteRoom_badList hroom hwritable hrange hsup hl fun hok => hnone l ?_
          exact ⟨hlo, hhi, hval, (s.recs.membersOk_iff r l).mp hok⟩
    · intro x named same after tooMany
      have hsup : suppliedMembers a = .ok ms := by
        refine suppliedMembers_eq_ok.mpr ?_
        by_cases h0 : a.memberCount = 0
        · exact .inl ⟨h0, hzero h0⟩
        · obtain ⟨l, hl, hlo, hhi, hval, -⟩ := hlisted h0
          exact .inr ⟨hlo, hhi, l, hl, hval⟩
      have hok : ∀ l, ms = some l → s.recs.membersOk r l = true := by
        rintro l rfl
        have h0 : a.memberCount ≠ 0 := fun h0 => nomatch hzero h0
        obtain ⟨l', hl, -, -, -, hrest⟩ := hlisted h0
        cases hl
        exact (s.recs.membersOk_iff r l).mpr hrest
      have hx : attrsOf a ms = x := by
        have hk := attrsOf_kitchen hrange ms
        have : attrsOf a ms = { attrsOf a ms with kitchen := a.kitchen.map (Fin.ofNat 8) } := by rw [← hk]
        exact this
      have hnamed : named ↔ ms ≠ none ∧ s.recs.panelNames r = true := by rw [Records.panelNames_iff]
      have hsame : same ↔ x.gap = y.attrs.gap ∧ sameMembers x.members y.attrs.members = true := by
        rw [sameMembers_iff, eq_comm (a := x.gap)]
      have hlimits : (after.withinLimits r = true) ↔ ¬ tooMany := by
        have hmembers : (after.room r).attrs.members = ms := by rw [s.recs.withAttrs_room, if_pos rfl]
        rw [after.withinLimits_iff, hmembers]
        simp only [tooMany]
        push Not
        rfl
      have hjudged : ∀ st, s.recs.judgeAttrs r x = some st → refused st := fun st h =>
        hrefused st (Records.judgeWriteRoom_refused hroom hwritable hrange hsup hok (hx ▸ h))
      refine ⟨fun hlaw => ⟨?_, fun m => ?_, fun m q hq => ?_, fun m hm => ?_⟩, fun hn => ?_, fun hn hc hchain => ?_,
        fun hn hc ht => ?_, fun hn hc ht => ?_⟩
      · rw [s.recs.withAttrs_room, if_pos rfl]
      · rw [s.recs.withAttrs_room]
        exact (hlaw.mem_followed r _ m r).trans (by rw [if_pos rfl])
      · rw [s.recs.withAttrs_room]
        exact (hlaw.mem_followed r _ m q).trans (by rw [if_neg hq])
      · rw [s.recs.withAttrs_room, if_neg hm]
      · obtain ⟨hlist, hpanel⟩ := hnamed.mp hn
        exact hjudged _ (Records.judgeAttrs_nodeInUse hlist hpanel)
      · exact hjudged _ (Records.judgeAttrs_roomNotEmpty (mt hnamed.mpr hn) (mt hsame.mpr hc) hchain)
      · refine hjudged _ ((Records.judgeAttrs_limits (mt hnamed.mpr hn) (hc.imp_left hsame.mp)).trans ?_)
        exact if_neg fun hw => hlimits.mp hw ht
      · rw [← hx]
        refine Records.judgeWriteRoom_passes hroom hwritable hrange hsup hok ?_
        rw [hx]
        exact (Records.judgeAttrs_limits (mt hnamed.mpr hn) (hc.imp_left hsame.mp)).trans (if_pos (hlimits.mpr ht))
  · obtain ⟨hroom, -, hrange, hms, hx, -, -⟩ := Records.judgeWriteRoom_ok h
    have hkitchen : x.kitchen = a.kitchen.map (Fin.ofNat 8) := by
      rw [hx]; exact attrsOf_kitchen hrange _
    obtain ⟨-, -, -, hk8, -⟩ := (attrsInRange_iff a).mp hrange
    intro seen
    refine ⟨?_, hroom, ?_, ?_, fun h0 => ?_, fun l hl => ?_, hlaw.writeRoom_room_same h, fun m hm => ?_,
      Records.writeRoom_marks, Records.writeRoom_eq⟩
    · refine State.serve_idle_now hidle ?_
      simp only [State.writeRoom, h, Records.roomReport, Records.clearTurnaround_set]
      rfl
    · have hbind : x.kitchen = a.kitchen.bind kitchenNo? := congrArg RoomAttrs.kitchen hx
      rw [hbind]
      exact hx
    · rw [hkitchen, Option.map_map]
      cases e : a.kitchen with
      | none => rfl
      | some k => exact congrArg some (Nat.mod_eq_of_lt (hk8 k e))
    · obtain ⟨-, hn⟩ | ⟨hlo, -⟩ := suppliedMembers_eq_ok.mp hms
      · exact hn
      · omega
    · obtain ⟨-, hn⟩ | ⟨-, -, l', hl', hval⟩ := suppliedMembers_eq_ok.mp hms
      · rw [hl] at hn; cases hn
      · rw [hl] at hl'; cases hl'; exact hval
    · have hm' := Records.writeRoom_room_other (b := s.recs) (x := x) hm
      rw [hm']
      exact ⟨rfl, (hlaw.mem_followed r _ m r).trans (by rw [if_pos rfl]),
        fun q hq => (hlaw.mem_followed r _ m q).trans (by rw [if_neg hq])⟩

end Sys2Proof.Machine

/-! HOLD and BOOK: the checks of R58 in order, and the record made in its place (R50, R54, R60, R70). -/

namespace Sys2Proof.Machine

open Sys2Proof

/-! ## A booking that the day keeps (R70) -/

theorem Clock.start_le_graceStart (c : Clock) (k : Booking) : k.start ≤ c.graceStart k := by
  unfold Clock.graceStart
  split
  · exact Nat.le_max_left _ _
  · exact Nat.le_refl _

theorem Records.dayGrace_kept {b : Records} {c : Clock} {k : Booking} (hin : k.state ≠ .inUse)
    (hgrace : graceEnded c (b.room k.room).attrs k = false) : b.dayGrace c k = .kept k := by
  have hnot : ¬ (k.state = .arriving ∧ k.checkedIn = false ∧ graceEnded c (b.room k.room).attrs k = true) :=
    fun ⟨_, _, h⟩ => Bool.false_ne_true (hgrace.symm.trans h)
  exact (if_neg hnot).trans (if_neg fun h => hin h.1)

/-- The state that the lead gives a booking (step 3 of R70). -/
def Booking.leadState (k : Booking) (c : Clock) (a : RoomAttrs) : BookingState :=
  if k.state = .booked ∧ k.start ≤ c.minute + a.lead then .arriving else k.state

theorem Booking.leadState_ne_inUse {k : Booking} (h : k.state = .held ∨ k.state = .booked) (c : Clock) (a : RoomAttrs) :
    k.leadState c a ≠ .inUse := by
  unfold Booking.leadState
  split
  · nofun
  · rcases h with e | e <;> rw [e] <;> nofun

theorem reportedState_unchecked {k : Booking} (h : k.checkedIn = false) (c : Clock) (a : RoomAttrs) :
    reportedState c a k = k.leadState c a := by
  simp [reportedState, Booking.leadState, h]

/-- A HELD or BOOKED booking whose hold expiry, end and grace lie ahead is kept; the lead alone may change its state
(R70). -/
theorem Records.dayOf_ahead {b : Records} {c : Clock} {k : Booking}
    (hexpiry : ∀ x, k.holdExpiry = some x → c.minute < x) (hstop : c.minute < k.stop)
    (hstate : k.state = .held ∨ k.state = .booked) (hunchecked : k.checkedIn = false)
    (hgrace : c.minute < k.start + (b.room k.room).attrs.grace) :
    b.dayOf c k = .kept { k with state := k.leadState c (b.room k.room).attrs } := by
  have hgraceAhead : graceEnded c (b.room k.room).attrs { k with state := k.leadState c (b.room k.room).attrs } =
      false := by
    have hstart := c.start_le_graceStart { k with state := k.leadState c (b.room k.room).attrs }
    dsimp only at hstart
    exact decide_eq_false (by omega)
  have hkept := Records.dayGrace_kept (b := b) (c := c)
    (k := { k with state := k.leadState c (b.room k.room).attrs }) (Booking.leadState_ne_inUse hstate _ _) hgraceAhead
  unfold Records.dayOf
  rw [reportedState_unchecked hunchecked]
  cases hx : k.holdExpiry with
  | none => exact (if_neg Bool.false_ne_true).trans ((if_neg (Nat.not_le.mpr hstop)).trans (hx ▸ hkept))
  | some x =>
    have hnot : (decide (k.state = .held) && decide (x ≤ c.minute) && decide (x ≤ k.stop)) = false := by
      simp [Nat.not_le.mpr (hexpiry x hx)]
    exact (if_neg fun h => Bool.false_ne_true (hnot.symm.trans h)).trans
      ((if_neg (Nat.not_le.mpr hstop)).trans (hx ▸ hkept))

/-- A new booking stays, with the state that its lead gives it, when its start is not before the present five minutes
(R58, R70). -/
theorem Records.dayOf_newBooking {b : Records} {c : Clock} {r : RoomNo} {a : BookArgs} {ht : Option Nat}
    {attrs : RoomAttrs} (hattrs : (b.room r).attrs = attrs) (hhold : ∀ h, ht = some h → 1 ≤ h)
    (hstart : c.minute / 5 * 5 ≤ a.start / 5 * 5) (hstop : a.start / 5 * 5 + 15 ≤ (a.stop + 4) / 5 * 5)
    (hgrace : 5 ≤ attrs.grace) (p : Prio) :
    b.dayOf c (newBooking r c.minute a p ht) = .kept { newBooking r c.minute a p ht with state :=
      if ht.isSome then .held else if a.start / 5 * 5 ≤ c.minute + attrs.lead then .arriving else .booked } := by
  subst hattrs
  have hlead : (newBooking r c.minute a p ht).leadState c (b.room r).attrs =
      if ht.isSome then .held
      else if a.start / 5 * 5 ≤ c.minute + (b.room r).attrs.lead then .arriving else .booked := by
    cases ht <;> simp [Booking.leadState, newBooking, floor5]
  rw [← hlead]
  refine Records.dayOf_ahead (fun e he => ?_) ?_ ?_ rfl ?_
  · obtain ⟨h, hh, rfl⟩ := Option.map_eq_some_iff.mp he
    exact Nat.lt_add_of_pos_right (hhold h hh)
  · show c.minute < (a.stop + 4) / 5 * 5
    omega
  · cases ht <;> simp [newBooking]
  · show c.minute < a.start / 5 * 5 + (b.room r).attrs.grace
    omega

/-- A booking that the day keeps: its record alone may change, and then the panels that show its room are marked
(R39, R70). -/
structure Records.RecordKept (b b' : Records) (sl : SlotNo) (k : Booking) : Prop where
  slot : b'.slot sl = { gen := (b.slot sl).gen, body := .booking k }
  others : ∀ y : SlotNo, y ≠ sl → b'.slot y = b.slot y
  pool : b'.pool = { b.pool with slots := b'.pool.slots }
  frame : b' = { b with pool := b'.pool, lines := b'.lines }
  marks : b'.lines = b.lines ∨ b.Marks b' (fun q => q = k.room ∨ q ∈ (b.room k.room).attrs.members.getD [])

theorem Records.updateBooking_kept {b : Records} {c : Clock} {sl : SlotNo} {k k' : Booking}
    (hk : (b.slot sl).body = .booking k) (hday : b.dayOf c k = .kept k') (hroom : k'.room = k.room) :
    b.RecordKept (b.updateBooking c sl) sl k' := by
  have hupdate : b.updateBooking c sl = if k' = k then b else (b.setBody sl (.booking k')).markShowing k.room := by
    simp only [Records.updateBooking, Records.booking?_eq_some.mpr hk, hday]
  rw [hupdate]
  split
  · rename_i hsame
    subst hsame
    exact ⟨by rw [← hk], fun _ _ => rfl, rfl, rfl, .inl rfl⟩
  · refine ⟨b.setBody_slot_same _ _, fun y hy => b.setBody_slot_other _ hy, rfl, rfl, .inr ?_⟩
    refine (Records.markRooms_marks _ _).of_lines rfl rfl fun q => ?_
    simp [hroom, Records.shownOn]

/-! ## The checks of R58 -/

theorem bookValuesOk_iff (a : BookArgs) (ht : Option Nat) :
    bookValuesOk a ht = true ↔
      a.cls < 3 ∧ 1 ≤ a.attendees ∧ a.attendees ≤ 500 ∧ ∀ h, ht = some h → 1 ≤ h ∧ h ≤ 30 := by
  cases ht <;> simp [bookValuesOk, prio?_isSome, and_assoc]

theorem Clock.bookTimesOk_iff (c : Clock) (horizon : Nat) (a : BookArgs) :
    c.bookTimesOk horizon a = true ↔
      a.start ≤ 16777215 ∧ a.stop ≤ 16777215 ∧ c.minute / 5 * 5 ≤ a.start / 5 * 5 ∧
      a.start / 5 * 5 + 15 ≤ (a.stop + 4) / 5 * 5 ∧ (a.stop + 4) / 5 * 5 ≤ a.start / 5 * 5 + 720 ∧
      a.start / 5 * 5 < c.minute + horizon * 1440 := by
  simp only [Clock.bookTimesOk, newTimesOk, Bool.and_eq_true, decide_eq_true_eq, and_assoc]
  rfl

section Judge

variable {s : State} {a : BookArgs} {ht : Option Nat} {r : RoomNo}

theorem State.judgeBook_noRoom (h : 384 ≤ a.room) : s.judgeBook a ht = .error .badRoom := by
  simp only [State.judgeBook, roomNo?_none h]

variable (hroom : a.room = r.val)
include hroom

/-- The checks on a room of the table, in order. -/
theorem State.judgeBook_room : s.judgeBook a ht =
    (firstRefusal [(s.recs.isDefined r, .badRoom), (s.recs.bookable r, .roomClosed), (bookValuesOk a ht, .badValue),
      (s.clk.bookTimesOk s.recs.pool.horizon a, .badTime)]).elim
      (.ok (newBooking r s.clk.minute a ((prio? a.cls).getD .casual) ht)) .error := by
  simp only [State.judgeBook, hroom, roomNo?_val]
  cases firstRefusal [(s.recs.isDefined r, .badRoom), (s.recs.bookable r, .roomClosed),
    (bookValuesOk a ht, .badValue), (s.clk.bookTimesOk s.recs.pool.horizon a, .badTime)] <;> rfl

theorem State.judgeBook_undefined (h : s.recs.isDefined r = false) : s.judgeBook a ht = .error .badRoom := by
  rw [State.judgeBook_room hroom, h]; rfl

variable (hdef : s.recs.isDefined r = true)
include hdef

theorem State.judgeBook_closed (h : s.recs.bookable r = false) : s.judgeBook a ht = .error .roomClosed := by
  rw [State.judgeBook_room hroom, hdef, h]; rfl

variable (hbookable : s.recs.bookable r = true)
include hbookable

theorem State.judgeBook_badValue (h : bookValuesOk a ht = false) : s.judgeBook a ht = .error .badValue := by
  rw [State.judgeBook_room hroom, hdef, hbookable, h]; rfl

variable (hvalues : bookValuesOk a ht = true)
include hvalues

theorem State.judgeBook_badTime (h : s.clk.bookTimesOk s.recs.pool.horizon a = false) :
    s.judgeBook a ht = .error .badTime := by
  rw [State.judgeBook_room hroom, hdef, hbookable, hvalues, h]; rfl

theorem State.judgeBook_ok (h : s.clk.bookTimesOk s.recs.pool.horizon a = true) :
    s.judgeBook a ht = .ok (newBooking r s.clk.minute a ((prio? a.cls).getD .casual) ht) := by
  rw [State.judgeBook_room hroom, hdef, hbookable, hvalues, h]; rfl

end Judge

theorem Records.isDefined_of_bookable {b : Records} {r : RoomNo} (h : b.bookable r = true) : b.isDefined r = true := by
  have hin := ((b.bookable_iff r).mp h).1
  simp [Records.isDefined, hin]

/-! ## The making (R54, R60) -/

section Make

variable {s : State} {k : Booking} {b : Records} {r : RoomNo} {st en : Nat}
  (hb : (s.recs.bringUpSet s.clk r).readTurnarounds s.clk.minute r = b)
  (hroom : k.room = r) (hstart : k.start = st) (hstop : k.stop = en)
include hb hroom hstart hstop

theorem State.makeBooking_conflict {o : Obstacle} (ho : b.obstacle s.clk.minute r none true st en = some o) :
    s.makeBooking k = (s.withRecs b, .now .conflict (obstacleBytes o st en)) := by
  subst hroom hb hstart hstop
  simp only [State.makeBooking, ho]

variable (ho : b.obstacle s.clk.minute r none true st en = none)
include ho

theorem State.makeBooking_refused {status : Status}
    (ha : b.addBooking (decide (k.cls = .executive)) k = .error status) :
    s.makeBooking k = (s.withRecs b, .now status []) := by
  subst hroom hb hstart hstop
  simp only [State.makeBooking, ho, ha, refuse]

theorem State.makeBooking_made {sl : SlotNo} {b1 : Records}
    (ha : b.addBooking (decide (k.cls = .executive)) k = .ok (sl, b1)) :
    s.makeBooking k = (s.withRecs (b1.updateBooking s.clk sl),
      .now ((b1.updateBooking s.clk sl).seatStatus r k.attendees) ((b1.updateBooking s.clk sl).madePayload sl k)) := by
  subst hroom hb hstart hstop
  simp only [State.makeBooking, ho, ha]

end Make

/-- The response items of HOLD and BOOK of a record that stands in its slot, its times being minutes of the range
(R60). -/
theorem Records.madePayload_eq {b : Records} {sl : SlotNo} {gen : Byte} {k k₀ : Booking}
    (hslot : b.slot sl = { gen := gen, body := .booking k }) (hstart : k.start ≤ 16777215) (hstop : k.stop ≤ 16777215) :
    b.madePayload sl k₀ = handleBytes { kind := 1, gen := gen, slot := sl.val } ++ be 3 k.start ++ be 3 k.stop ++
      [k.state.byte] ++ [k.cls.byte] ++ k.holdExpiry.elim [] fun e => minuteBytes e := by
  have hk : b.booking? sl = some k := Records.booking?_eq_some.mpr (by rw [hslot])
  simp only [Records.madePayload, hk, Option.getD_some, Records.bookingHandle, hslot, minuteBytes_of_le hstart,
    minuteBytes_of_le hstop]
  cases k.holdExpiry <;> rfl

/-! ## The record added and brought up to date -/

/-- What making a record leaves: it stands in the slot `sl` that headed the free list and at its place in its room's
chain, and nothing else changed but the low notice and the panels that show the room (R15, R39, R50). -/
structure Records.RecordMade (b b' : Records) (k : Booking) (sl : SlotNo) (rest front back : List SlotNo) : Prop where
  slot : b'.slot sl = { gen := (b.slot sl).gen, body := .booking k }
  others : ∀ y : SlotNo, y ≠ sl → b'.slot y = b.slot y
  freeList : b'.pool.freeList = rest
  freeCount : b'.pool.freeCount = b.pool.freeCount - 1
  notices : b'.notices = (if b.pool.lowArmed = true ∧ b.pool.freeCount - 1 = b.pool.floor then
    b.notices.raise (.part .poolLow) else b.notices)
  split : (b.room k.room).chain = front ++ back
  room : b'.room k.room = { b.room k.room with chain := front ++ sl :: back }
  before : ∀ y ∈ front, ∀ k', (b.slot y).body = .booking k' → k'.start ≤ k.start
  after : ∀ y, back.head? = some y → ∃ k', (b.slot y).body = .booking k' ∧ k.start < k'.start
  rooms : ∀ q : RoomNo, q ≠ k.room → b'.room q = b.room q
  kitchens : b'.kitchens = b.kitchens
  queues : b'.queues = b.queues
  marks : b.Marks b' (fun q => q = k.room ∨ q ∈ (b.room k.room).attrs.members.getD [])

/-- A claim that succeeds for a record that the day keeps makes that record, with the state that the day gives it. -/
theorem Records.recordMade_of_kept {b : Records} {c : Clock} {privileged : Bool} {k k' : Booking} {sl : SlotNo}
    {rest : List SlotNo} (hr : b.pool.state = .ready) (hcount : b.pool.freeCount ≠ 0)
    (hclaim : b.pool.floor < b.pool.freeCount ∨ privileged = true) (hfree : b.pool.freeList = sl :: rest)
    (hbody : (b.slot sl).body = .free) (hroom : k'.room = k.room) (hstart : k'.start = k.start)
    (hday : ∀ b1 : Records, (b1.room k.room).attrs = (b.room k.room).attrs → b1.dayOf c k = .kept k') :
    ∃ (b1 : Records) (front back : List SlotNo), b.addBooking privileged k = .ok (sl, b1) ∧
      b.RecordMade (b1.updateBooking c sl) k' sl rest front back := by
  obtain ⟨b1, front, back, hadd, hslot, hothers, hsplit, hchain, hbefore, hafter, hrooms, hpool, hmarks, hnotices,
    hkitchens, hqueues⟩ := Records.addBooking_made hr hcount hclaim hfree hbody
  have hattrs : (b1.room k.room).attrs = (b.room k.room).attrs := by rw [hchain]
  obtain ⟨hslot', hothers', hpool', hframe, hmarked⟩ :=
    Records.updateBooking_kept (c := c) (by rw [hslot]) (hday b1 hattrs) hroom
  refine ⟨b1, front, back, hadd, ?_⟩
  generalize b1.updateBooking c sl = b2 at hslot' hothers' hpool' hframe hmarked
  have hroom2 : ∀ q, b2.room q = b1.room q := fun q => by rw [hframe]; rfl
  refine ⟨by rw [hslot', hslot], fun y hy => (hothers' y hy).trans (hothers y hy), by rw [hpool', hpool],
    by rw [hpool', hpool], by rw [hframe]; exact hnotices, hroom ▸ hsplit, ?_, hstart ▸ hbefore, hstart ▸ hafter,
    fun q hq => (hroom2 q).trans (hrooms q (hroom ▸ hq)), by rw [hframe]; exact hkitchens,
    by rw [hframe]; exact hqueues, ?_⟩
  · rw [hroom, hroom2]; exact hchain
  · rw [hroom]
    rw [hroom, hattrs] at hmarked
    rcases hmarked with hlines | hagain
    · exact hmarks.of_lines rfl hlines fun _ => .rfl
    · exact (hmarks.trans hagain).of_lines rfl rfl fun _ => or_self_iff.symm

theorem exists_prio_rank {n : Nat} (h : n < 3) : ∃ p : Prio, p.rank = n :=
  match n, h with
  | 0, _ => ⟨.executive, rfl⟩
  | 1, _ => ⟨.standard, rfl⟩
  | 2, _ => ⟨.casual, rfl⟩

theorem Prio.eq_executive {p : Prio} (h : p.rank = 0) : p = .executive := by
  cases p with
  | executive => rfl
  | standard => cases h
  | casual => cases h
  | walkup => cases h

/-- Settles O35: the gates, the checks of R58, and the claim, the link and the day of the record that follow. -/
theorem bookingMade : Obligations.BookingMade := by
  intro tag a ht s hidle cmd code refused now st en valuesOk timesOk
  have hexec : ∀ {s' : State} {status : Status} {p : List Byte}, State.bookOrHold a ht s = (s', .now status p) →
      exec cmd s = .next (s'.respond code tag status p) := by
    intro s' status p h
    cases ht with
    | none => exact State.serve_idle_now (cmd := .book tag a) hidle h
    | some x => exact State.serve_idle_now (cmd := .hold tag a x) hidle h
  refine ⟨fun hr => hexec (State.gated_notReady hr _), fun hr hc => hexec (State.gated_unset hr hc _),
    fun hr hc => ?_⟩
  have hjudged : ∀ {status}, s.judgeBook a ht = .error status → refused status := fun h =>
    hexec ((State.gated_open hr hc _).trans (by rw [h]; rfl))
  refine ⟨fun h => hjudged (State.judgeBook_noRoom h), fun r hroom => ?_⟩
  intro x bookable
  have hbookable : s.recs.bookable r = true ↔ bookable := s.recs.bookable_iff r
  have hvalues : bookValuesOk a ht = true ↔ valuesOk := bookValuesOk_iff a ht
  have htimes : s.clk.bookTimesOk s.recs.pool.horizon a = true ↔ timesOk := s.clk.bookTimesOk_iff _ a
  refine ⟨fun h => hjudged (State.judgeBook_undefined hroom ?_),
    fun hd hb => hjudged (State.judgeBook_closed hroom ?_ ?_), fun hb hv => hjudged ?_, fun hb hv htm => hjudged ?_, fun hb hv htm => ?_⟩
  · exact decide_eq_false (not_not.mpr h)
  · exact decide_eq_true hd
  · exact Bool.eq_false_iff.mpr (mt hbookable.mp hb)
  · have hb' := hbookable.mpr hb
    exact State.judgeBook_badValue hroom (Records.isDefined_of_bookable hb') hb'
      (Bool.eq_false_iff.mpr (mt hvalues.mp hv))
  · have hb' := hbookable.mpr hb
    exact State.judgeBook_badTime hroom (Records.isDefined_of_bookable hb') hb' (hvalues.mpr hv)
      (Bool.eq_false_iff.mpr (mt htimes.mp htm))
  intro upToDate b
  have hb' := hbookable.mpr hb
  have hok := State.judgeBook_ok hroom (Records.isDefined_of_bookable hb') hb' (hvalues.mpr hv) (htimes.mpr htm)
  have hmake : ∀ p : Prio, p.rank = a.cls → State.bookOrHold a ht s = s.makeBooking (newBooking r now a p ht) := by
    rintro p hp
    have hp' : prio? a.cls = some p := hp ▸ prio?_rank (hp ▸ hv.1)
    rw [hp'] at hok
    exact (State.gated_open hr hc _).trans (by rw [hok]; rfl)
  obtain ⟨p₀, hp₀⟩ := exists_prio_rank hv.1
  have hstate : b.pool.state = .ready :=
    ((Records.readTurnarounds_sameSetup _ now r).state.trans (Records.bringUpSet_sameSetup _ s.clk r).state).trans hr
  have hb : (s.recs.bringUpSet s.clk r).readTurnarounds s.clk.minute r = b := rfl
  refine ⟨⟨upToDate.clearTurnarounds_eq now _, upToDate.clearTurnarounds_room now _⟩, ?_⟩
  clear_value b
  refine ⟨fun o ho => ?_, fun ho h0 => ?_, fun ho h0 hlow hcls => ?_, ?_⟩
  · exact hexec ((hmake p₀ hp₀).trans (State.makeBooking_conflict hb rfl rfl rfl ho))
  · have hempty := Records.addBooking_error (k := newBooking r now a p₀ ht)
      (Records.allocate_empty hstate h0 (decide (p₀ = .executive)) _)
    exact hexec ((hmake p₀ hp₀).trans (State.makeBooking_refused hb rfl rfl rfl ho hempty))
  · have hp : decide (p₀ = .executive) = false := decide_eq_false (by rintro rfl; exact hcls hp₀.symm)
    have hrefused := Records.addBooking_error (k := newBooking r now a p₀ ht)
      (Records.allocate_low hstate h0 hlow _)
    rw [← hp] at hrefused
    exact hexec ((hmake p₀ hp₀).trans (State.makeBooking_refused hb rfl rfl rfl ho hrefused))
  · intro sl rest p ho _ hfree hcount hbody hclaim hp hgrace made record
    have hprivileged : b.pool.floor < b.pool.freeCount ∨ decide (p = .executive) = true :=
      hclaim.imp_right fun h0 => decide_eq_true (Prio.eq_executive (hp.trans h0))
    obtain ⟨hstart, hstop, hnow, hlong, -, -⟩ := id htm
    obtain ⟨b1, front, back, hadd, hmade⟩ := Records.recordMade_of_kept (c := s.clk) (k := newBooking r now a p ht)
      (k' := record) hstate hcount hprivileged hfree hbody rfl rfl fun b1 hattrs =>
        Records.dayOf_newBooking hattrs (fun h hh => (hv.2.2.2 h hh).1) hnow hlong hgrace p
    have hdone := State.makeBooking_made (k := newBooking r now a p ht) hb rfl rfl rfl ho hadd
    generalize b1.updateBooking s.clk sl = b2 at hmade hdone
    refine ⟨b2, front, back, hexec ((hmake p hp).trans (hdone.trans ?_)), hmade.slot, hmade.others, hmade.freeList,
      hmade.freeCount, hmade.notices, hmade.split, hmade.room, hmade.before, hmade.after, hmade.rooms, hmade.kitchens,
      hmade.queues, hmade.marks⟩
    have hseats : b2.seatStatus r a.attendees = if (b.room r).attrs.seats < a.attendees then .warnSeats else .ok := by
      have hroom2 : b2.room r = { b.room r with chain := front ++ sl :: back } := hmade.room
      rw [Records.seatStatus, hroom2]
    have hcls : [record.cls.byte] = be 1 a.cls := by simp [record, be, Prio.byte, hp]
    have hexpiry : (record.holdExpiry.elim [] fun e => minuteBytes e) =
        ht.elim [] fun h => minuteBytes (now + h) := by
      cases ht <;> rfl
    have hpayload := Records.madePayload_eq (k₀ := newBooking r now a p ht) hmade.slot (show st ≤ 16777215 by omega)
      (show en ≤ 16777215 by omega)
    rw [hcls, hexpiry] at hpayload
    exact congrArg₂ (fun status items => (s.withRecs b2, Answer.now status items)) hseats hpayload

end Sys2Proof.Machine

/-! The conflict test: it finds no obstacle exactly when the turnarounds have passed and the gaps are kept (R55 to
R57). -/

namespace Sys2Proof.Machine

open Sys2Proof

/-! ## The obstacles to a candidate -/

section Obstacles

variable (b : Records) (now : Nat) (r : RoomNo) (aside : Option SlotNo) (newStart : Bool) (s e : Nat)

/-- The turnaround-until `t` of room `q` stands against a new start at `s` in room `r` (R56). -/
def Records.Waits (q : RoomNo) (t : Nat) : Prop :=
  newStart = true ∧ q ∈ b.conflictSet r ∧ (b.room q).turnaround = some t ∧ now < t ∧ s < t

/-- The booking `k` in slot `sl` of room `q`'s chain conflicts with [s, e) in room `r` (R55). -/
def Records.Blocks (q : RoomNo) (sl : SlotNo) (k : Booking) : Prop :=
  q ∈ b.conflictSet r ∧ sl ∈ (b.room q).chain ∧ (b.slot sl).body = .booking k ∧ aside ≠ some sl ∧ now < k.stop ∧
    ¬ (k.state = .held ∧ ∃ x, k.holdExpiry = some x ∧ x ≤ now) ∧ s < k.stop + b.gapOf r q ∧
    k.start < e + b.gapOf r q

theorem overlaps_iff (xs xe g : Nat) : overlaps s e xs xe g = true ↔ s < xe + g ∧ xs < e + g := by
  simp [overlaps]

theorem Booking.countsRetired_eq_false_iff (k : Booking) (now : Nat) :
    k.countsRetired now = false ↔
      now < k.stop ∧ ¬ (k.state = .held ∧ ∃ x, k.holdExpiry = some x ∧ x ≤ now) := by
  rw [← Bool.not_eq_true, k.countsRetired_iff, not_or, Nat.not_le]

/-- A booking conflicts exactly when it is met on a chain of the set and passes the test made of each booking met. -/
theorem Records.blocks_iff (q : RoomNo) (sl : SlotNo) (k : Booking) :
    b.Blocks now r aside s e q sl k ↔ q ∈ b.conflictSet r ∧ ⟨q, sl, k⟩ ∈ b.chainOf q ∧
      k.countsRetired now = false ∧ aside ≠ some sl ∧ overlaps s e k.start k.stop (b.gapOf r q) = true := by
  rw [Records.mem_chainOf, Booking.countsRetired_eq_false_iff, overlaps_iff]
  unfold Records.Blocks
  tauto

/-! ## Each half of the test (R56, R55) -/

theorem Records.turnaroundObstacle_eq_none_iff (set : List RoomNo) :
    b.turnaroundObstacle now s set = none ↔
      ∀ q ∈ set, ∀ t, (b.room q).turnaround = some t → ¬ (now < t ∧ s < t) := by
  unfold Records.turnaroundObstacle
  rw [List.findSome?_eq_none_iff]
  refine forall₂_congr fun q _ => ?_
  cases (b.room q).turnaround <;> simp

theorem Records.turnaroundObstacle_eq_some {set : List RoomNo} {o : Obstacle}
    (h : b.turnaroundObstacle now s set = some o) :
    ∃ q t, o = .turnaround q t ∧ q ∈ set ∧ (b.room q).turnaround = some t ∧ now < t ∧ s < t := by
  obtain ⟨q, hq, hfound⟩ := List.exists_of_findSome?_eq_some h
  cases ht : (b.room q).turnaround with
  | none => simp [ht] at hfound
  | some t =>
    simp only [ht, Option.ite_none_right_eq_some, Option.some.injEq] at hfound
    obtain ⟨hlate, rfl⟩ := hfound
    exact ⟨q, t, rfl, hq, ht, hlate⟩

/-- The turnaround conditions are judged for a new start alone (R56). -/
theorem Records.turnaroundPart_eq_none_iff :
    (if newStart then b.turnaroundObstacle now s (b.conflictSet r) else none) = none ↔
      ∀ q t, ¬ b.Waits now r newStart s q t := by
  unfold Records.Waits
  cases newStart with
  | false => simp
  | true =>
    rw [if_pos rfl, Records.turnaroundObstacle_eq_none_iff]
    exact ⟨fun h q t ⟨_, hq, ht, hlate⟩ => h q hq t ht hlate,
      fun h q hq t ht hlate => h q t ⟨rfl, hq, ht, hlate⟩⟩

theorem Records.turnaroundPart_eq_some {o : Obstacle}
    (h : (if newStart then b.turnaroundObstacle now s (b.conflictSet r) else none) = some o) :
    ∃ q t, o = .turnaround q t ∧ b.Waits now r newStart s q t := by
  obtain ⟨hnew, hfound⟩ := Option.ite_none_right_eq_some.mp h
  obtain ⟨q, t, ho, hwaits⟩ := b.turnaroundObstacle_eq_some now s hfound
  exact ⟨q, t, ho, hnew, hwaits⟩

theorem Records.bookingObstacle_eq_none_iff :
    b.bookingObstacle now r aside s e (b.conflictSet r) = none ↔ ∀ q sl k, ¬ b.Blocks now r aside s e q sl k := by
  simp only [Records.bookingObstacle, List.findSome?_eq_none_iff, ite_eq_right_iff, reduceCtorEq, imp_false,
    Records.blocks_iff, not_and]
  constructor
  · exact fun h q sl k hq hx => h q hq ⟨q, sl, k⟩ hx
  · rintro h q hq ⟨q', sl, k⟩ hx
    obtain rfl : q' = q := (Records.mem_chainOf.mp hx).1
    exact h q' sl k hq hx

theorem Records.bookingObstacle_eq_some {o : Obstacle}
    (h : b.bookingObstacle now r aside s e (b.conflictSet r) = some o) :
    ∃ q sl k, b.Blocks now r aside s e q sl k ∧
      o = .booking q (b.bookingHandle sl) k.start k.stop (b.gapOf r q) := by
  obtain ⟨q, hq, hroom⟩ := List.exists_of_findSome?_eq_some h
  obtain ⟨⟨q', sl, k⟩, hx, hfound⟩ := List.exists_of_findSome?_eq_some hroom
  obtain ⟨hblocks, ho⟩ := Option.ite_none_right_eq_some.mp hfound
  obtain rfl : q' = q := (Records.mem_chainOf.mp hx).1
  exact ⟨q', sl, k, (b.blocks_iff ..).mpr ⟨hq, hx, hblocks⟩, (Option.some.inj ho).symm⟩

/-! ## The whole test (R57) -/

/-- The turnaround conditions come first, the bookings after them (R57). -/
theorem Records.obstacle_eq_or :
    b.obstacle now r aside newStart s e =
      (if newStart then b.turnaroundObstacle now s (b.conflictSet r) else none).or
        (b.bookingObstacle now r aside s e (b.conflictSet r)) := by
  unfold Records.obstacle
  dsimp only
  split <;> rename_i h <;> rw [h] <;> rfl

end Obstacles

/-- Settles O31: the test is its two halves one after the other, each of which finds exactly what stands against the
candidate. -/
theorem conflictTestKeepsGap : Obligations.ConflictTestKeepsGap := by
  intro b now r aside newStart s e gap blocks waits
  refine ⟨?_, fun q t h => ?_, fun q h xs xe g hfound => ?_⟩
  · rw [Records.obstacle_eq_or, Option.or_eq_none_iff, Records.turnaroundPart_eq_none_iff,
      Records.bookingObstacle_eq_none_iff]
    exact Iff.rfl
  · rw [Records.obstacle_eq_or, Option.or_eq_some_iff] at h
    rcases h with h | ⟨-, h⟩
    · obtain ⟨q', t', ho, hwaits⟩ := b.turnaroundPart_eq_some now r newStart s h
      cases ho
      exact hwaits
    · obtain ⟨_, _, _, -, ho⟩ := b.bookingObstacle_eq_some now r aside s e h
      cases ho
  · rw [Records.obstacle_eq_or, Option.or_eq_some_iff] at hfound
    rcases hfound with hfound | ⟨hnone, hfound⟩
    · obtain ⟨_, _, ho, -⟩ := b.turnaroundPart_eq_some now r newStart s hfound
      cases ho
    · obtain ⟨q', sl, k, hblocks, ho⟩ := b.bookingObstacle_eq_some now r aside s e hfound
      cases ho
      exact ⟨(b.turnaroundPart_eq_none_iff now r newStart s).mp hnone, sl, k, hblocks, rfl, rfl, rfl, rfl⟩

end Sys2Proof.Machine

/-! The settlement of an order, state by state, and the place where a void joins its queue (R69, R137, R139). -/

namespace Sys2Proof.Machine

open Sys2Proof

/-! ## Promotion triggers and voids -/

/-- A kitchen that takes a promotion trigger begins PROMOTING, or is marked to begin again (R116). -/
theorem Kitchen.promote_eq (k : Kitchen) :
    k.promote = if k.pass = .idle then { k with pass := .promoting none, again := false }
      else { k with again := true } := by
  unfold Kitchen.promote
  split <;> rename_i h <;> simp [h]

theorem Records.triggersAct_iff (b : Records) (c : Clock) :
    b.triggersAct c = true ↔ b.pool.state = .ready ∧ c.state ≠ .unset := by
  simp [Records.triggersAct]

/-- A promotion trigger changes at most its kitchen (R116). -/
theorem Records.promotionTrigger_eq (b : Records) (c : Clock) (k : KitchenNo) :
    b.promotionTrigger c k = b.setKitchen k
      (if b.pool.state = .ready ∧ c.state ≠ .unset then (b.kitchen k).promote else b.kitchen k) := by
  simp only [Records.promotionTrigger, Records.triggersAct_iff]
  split
  · rfl
  · exact (b.setKitchen_self k).symm

/-- Where a void joins kitchen `k`'s queue, between `front` and `back`: behind the last void that waits; where none
waits, ahead of every ticket but the one in flight (R139). -/
def Records.VoidPlace (b : Records) (k : KitchenNo) (front back : List QueueEntry) : Prop :=
  (∀ e ∈ back, e.asVoid = false) ∧
    (∀ e, front.getLast? = some e → e.asVoid = true ∨ (front = [e] ∧ b.inFlightAtHead k e.slot = true)) ∧
    (front = [] → ∀ e, back.head? = some e → b.inFlightAtHead k e.slot = false)

theorem Records.joinVoid_split (b : Records) (k : KitchenNo) (sl : SlotNo) :
    ∃ front back : List QueueEntry, (b.queue k).entries = front ++ back ∧
      b.joinVoid k sl =
        b.setQueue k { b.queue k with entries := front ++ { slot := sl, asVoid := true } :: back } ∧
      b.VoidPlace k front back := by
  unfold Records.joinVoid
  dsimp only
  split <;> rename_i he
  · exact ⟨[], [], he, rfl, by simp, by simp, by simp⟩
  · rename_i e rest
    split <;> rename_i hflight
    · obtain ⟨front, back, hsplit, hjoined, hback, hlast⟩ := insertVoid_eq sl rest
      refine ⟨e :: front, back, by rw [he, hsplit]; rfl, by rw [hjoined]; rfl, hback, fun x hx => ?_, nofun⟩
      cases front with
      | nil =>
        obtain rfl : e = x := Option.some.inj hx
        exact .inr ⟨rfl, hflight⟩
      | cons y ys => exact .inl (hlast x (by rwa [List.getLast?_cons_cons] at hx))
    · obtain ⟨front, back, hsplit, hjoined, hback, hlast⟩ := insertVoid_eq sl (e :: rest)
      refine ⟨front, back, he.trans hsplit, by rw [hjoined], hback, fun x hx => .inl (hlast x hx), ?_⟩
      rintro rfl x hx
      rw [← List.nil_append back, ← hsplit] at hx
      obtain rfl : e = x := Option.some.inj hx
      exact Bool.eq_false_iff.mpr hflight

/-- The TICKET of the order in slot `sl` is in flight when its entry is the head and the frame sent for it was no VOID
(R137). -/
theorem Records.ticketInFlight_iff (b : Records) (k : KitchenNo) (sl : SlotNo) :
    b.ticketInFlight k sl = true ↔
      (b.queue k).entries.head?.map (fun e => e.slot) = some sl ∧
      (b.queue k).inFlight = some (b.orderHandle sl, false) := by
  unfold Records.ticketInFlight
  cases hf : (b.queue k).inFlight with
  | none => simp
  | some f =>
    cases he : (b.queue k).entries with
    | nil => simp [Records.inFlightAtHead, hf, he]
    | cons e rest =>
      rw [Bool.and_eq_true, Records.inFlightAtHead_iff hf he]
      simp [Prod.ext_iff, and_assoc]

/-! ## An order that is freed, and one made VOIDING -/

/-- Slot `sl` returned, as the settlement of its order leaves it (R16, R69). -/
structure Records.SettledFreed (b : Records) (t : Records × Settled) (sl : SlotNo) : Prop where
  freed : t.2 = .freed
  slot : t.1.slot sl = { gen := (b.slot sl).gen + 1, body := .free }
  freeList : t.1.pool.freeList = sl :: b.pool.freeList
  freeCount : t.1.pool.freeCount = b.pool.freeCount + 1

theorem Records.SettledFreed.of_pool {b b' : Records} {sl : SlotNo} (h : b'.pool = (b.returnSlot sl).pool) :
    b.SettledFreed (b', .freed) sl :=
  ⟨rfl, by simp only [Records.slot, h]; exact b.returnSlot_slot_same sl, by rw [h]; rfl, by rw [h]; rfl⟩

section States

variable {b : Records} {sl : SlotNo} {o : Order} (c : Clock) (ho : (b.slot sl).body = .order o)

include ho

theorem Records.settleOrder_waitlisted (hst : o.state = .waitlisted) :
    b.settleOrder c sl = ((b.leaveWaitlist o.kitchen sl).returnSlot sl, .freed) := by
  simp only [Records.settleOrder, Records.order?_eq_some.mpr ho, hst]

/-- A CONFIRMED order's shares are released, its slot is returned, and a promotion trigger is raised (R69, R114). -/
theorem Records.settleOrder_confirmed (hst : o.state = .confirmed) :
    b.settleOrder c sl = (((b.releaseShares c o).returnSlot sl).setKitchen o.kitchen
      (if b.pool.state = .ready ∧ c.state ≠ .unset then
        ((b.kitchen o.kitchen).subShares (c.minute / 30) o.shares).promote
      else (b.kitchen o.kitchen).subShares (c.minute / 30) o.shares), .freed) := by
  have hkitchen : ((b.releaseShares c o).returnSlot sl).kitchen o.kitchen =
      (b.kitchen o.kitchen).subShares (c.minute / 30) o.shares := b.setKitchen_kitchen_same _ _
  simp only [Records.settleOrder, Records.order?_eq_some.mpr ho, hst, Records.promotionTrigger_eq, hkitchen]
  rfl

theorem Records.settleOrder_inFlight (hst : o.state = .queued) (hf : b.ticketInFlight o.kitchen sl = true) :
    b.settleOrder c sl = (b.makeVoiding sl o, .voiding) := by
  simp only [Records.settleOrder, Records.order?_eq_some.mpr ho, hst, hf, if_true]

theorem Records.settleOrder_queued (hst : o.state = .queued) (hf : ¬ b.ticketInFlight o.kitchen sl = true) :
    b.settleOrder c sl = ((b.leaveQueue o.kitchen sl).returnSlot sl, .freed) := by
  simp only [Records.settleOrder, Records.order?_eq_some.mpr ho, hst, hf]
  rfl

theorem Records.settleOrder_withKitchen (hst : o.state = .ticketed ∨ o.state = .accepted) :
    b.settleOrder c sl = ((b.makeVoiding sl o).joinVoid o.kitchen sl, .voiding) := by
  rcases hst with hst | hst <;> simp only [Records.settleOrder, Records.order?_eq_some.mpr ho, hst]

theorem Records.settleOrder_over (hst : o.state = .done ∨ o.state = .lapsed) :
    b.settleOrder c sl = (b.returnSlot sl, .freed) := by
  rcases hst with hst | hst <;> simp only [Records.settleOrder, Records.order?_eq_some.mpr ho, hst]

theorem Records.settleOrder_voiding (hst : o.state = .voiding) : b.settleOrder c sl = (b, .voiding) := by
  simp only [Records.settleOrder, Records.order?_eq_some.mpr ho, hst]

/-- The settlement of an order concerns no kitchen but its own. -/
theorem Records.settleOrder_kitchen_other {p : KitchenNo} (hp : p ≠ o.kitchen) :
    (b.settleOrder c sl).1.kitchen p = b.kitchen p ∧ (b.settleOrder c sl).1.queue p = b.queue p := by
  have voided : o.state = .ticketed ∨ o.state = .accepted →
      (b.settleOrder c sl).1.kitchen p = b.kitchen p ∧ (b.settleOrder c sl).1.queue p = b.queue p := by
    intro hst
    obtain ⟨_, _, -, hjoined, -⟩ := (b.makeVoiding sl o).joinVoid_split o.kitchen sl
    rw [Records.settleOrder_withKitchen c ho hst, hjoined]
    exact ⟨rfl, Records.setQueue_queue_other _ _ hp⟩
  cases hst : o.state with
  | waitlisted =>
    rw [Records.settleOrder_waitlisted c ho hst]
    exact ⟨b.setKitchen_kitchen_other _ hp, rfl⟩
  | confirmed =>
    rw [Records.settleOrder_confirmed c ho hst]
    exact ⟨(Records.setKitchen_kitchen_other _ _ hp).trans (b.setKitchen_kitchen_other _ hp), rfl⟩
  | queued =>
    by_cases hf : b.ticketInFlight o.kitchen sl = true
    · rw [Records.settleOrder_inFlight c ho hst hf]
      exact ⟨rfl, rfl⟩
    · rw [Records.settleOrder_queued c ho hst hf]
      exact ⟨rfl, b.setQueue_queue_other _ hp⟩
  | ticketed => exact voided (.inl hst)
  | accepted => exact voided (.inr hst)
  | done => rw [Records.settleOrder_over c ho (.inl hst)]; exact ⟨rfl, rfl⟩
  | lapsed => rw [Records.settleOrder_over c ho (.inr hst)]; exact ⟨rfl, rfl⟩
  | voiding => rw [Records.settleOrder_voiding c ho hst]; exact ⟨rfl, rfl⟩

/-- An order with the kitchen becomes VOIDING without an owner, and its void joins the queue (R69, R139). -/
theorem Records.settleOrder_voided (hst : o.state = .ticketed ∨ o.state = .accepted) :
    ∃ front back : List QueueEntry, (b.queue o.kitchen).entries = front ++ back ∧
      b.settleOrder c sl = ((b.makeVoiding sl o).setQueue o.kitchen
        { b.queue o.kitchen with entries := front ++ { slot := sl, asVoid := true } :: back }, .voiding) ∧
      b.VoidPlace o.kitchen front back := by
  have hhead : ∀ y, (b.makeVoiding sl o).inFlightAtHead o.kitchen y = b.inFlightAtHead o.kitchen y := fun y => by
    have hgen : ((b.makeVoiding sl o).slot y).gen = (b.slot y).gen := by
      by_cases h : y = sl
      · subst h; rw [Records.makeVoiding, Records.setBody_slot_same]
      · exact congrArg Slot.gen (b.setBody_slot_other _ h)
    simp only [Records.inFlightAtHead, Records.orderHandle, hgen]
    rfl
  obtain ⟨front, back, hsplit, hjoined, hplace⟩ := (b.makeVoiding sl o).joinVoid_split o.kitchen sl
  simp only [Records.VoidPlace, hhead] at hplace
  exact ⟨front, back, hsplit, by rw [Records.settleOrder_withKitchen c ho hst, hjoined]; rfl, hplace⟩

end States

/-- Settles O39: what the settlement leaves is the same in every state; what it does to the order is read off state by
state. -/
theorem ordersSettledByState : Obligations.OrdersSettledByState := by
  intro b c sl o ho t q inFlight returned voiding
  obtain ⟨hrooms, hlines, hnotices⟩ := (b.settleOrder_settlesOnly c sl).orders
  refine ⟨hrooms, hlines, hnotices, fun y hy => b.settleOrder_slot_other c hy,
    fun p hp => Records.settleOrder_kitchen_other c ho hp, ?_⟩
  have hreturned : b.SettledFreed t sl → returned := fun h => ⟨h.freed, h.slot, h.freeList, h.freeCount⟩
  have hinFlight : b.ticketInFlight o.kitchen sl = true ↔ inFlight := b.ticketInFlight_iff o.kitchen sl
  have hvoiding : ∀ b' : Records, t = (b', .voiding) → b'.pool = (b.makeVoiding sl o).pool →
      b'.kitchens = b.kitchens → voiding := by
    intro b' ht hpool hkitchens
    refine ⟨by rw [ht], ?_, by rw [ht]; exact hkitchens⟩
    rw [ht]
    simp only [Records.slot, hpool]
    exact b.setBody_slot_same sl _
  have hover : o.state = .done ∨ o.state = .lapsed →
      returned ∧ t.1.kitchens = b.kitchens ∧ t.1.queues = b.queues := by
    intro hst
    have ht : t = _ := Records.settleOrder_over c ho hst
    exact ⟨hreturned (ht ▸ .of_pool rfl), by rw [ht]; rfl, by rw [ht]; rfl⟩
  cases hst : o.state with
  | waitlisted =>
    have ht : t = _ := Records.settleOrder_waitlisted c ho hst
    exact ⟨hreturned (ht ▸ .of_pool rfl), by rw [ht]; rfl, by rw [ht]; exact b.setKitchen_kitchen_same _ _⟩
  | confirmed =>
    have ht : t = _ := Records.settleOrder_confirmed c ho hst
    refine ⟨hreturned (ht ▸ .of_pool rfl), by rw [ht]; rfl, ?_⟩
    rw [ht]
    refine (Records.setKitchen_kitchen_same _ _ _).trans ?_
    rw [Kitchen.promote_eq]
  | queued =>
    refine ⟨fun hf => ?_, fun hf => ?_⟩
    · have ht : t = _ := Records.settleOrder_inFlight c ho hst (hinFlight.mpr hf)
      exact ⟨hvoiding _ ht rfl rfl, by rw [ht]; rfl⟩
    · have ht : t = _ := Records.settleOrder_queued c ho hst (mt hinFlight.mp hf)
      exact ⟨hreturned (ht ▸ .of_pool rfl), by rw [ht]; rfl, by rw [ht]; exact b.setQueue_queue_same _ _⟩
  | ticketed =>
    obtain ⟨front, back, hsplit, ht, hplace⟩ := Records.settleOrder_voided c ho (.inl hst)
    exact ⟨hvoiding _ ht rfl rfl, front, back, hsplit,
      (congrArg (fun u => u.1.queue o.kitchen) ht).trans (Records.setQueue_queue_same _ _ _), hplace⟩
  | accepted =>
    obtain ⟨front, back, hsplit, ht, hplace⟩ := Records.settleOrder_voided c ho (.inr hst)
    exact ⟨hvoiding _ ht rfl rfl, front, back, hsplit,
      (congrArg (fun u => u.1.queue o.kitchen) ht).trans (Records.setQueue_queue_same _ _ _), hplace⟩
  | done => exact hover (.inl hst)
  | lapsed => exact hover (.inr hst)
  | voiding => exact Records.settleOrder_voiding c ho hst

end Sys2Proof.Machine

/-! The booking day: what the steps of R70 make of one booking, and what bringing a room up to date leaves as it was
(R50, R54, R70 to R75, R91). -/

namespace Sys2Proof.Machine

open Sys2Proof

/-! ## What the booking day leaves beside the setup -/

/-- The settlement of an order leaves a slot that holds no order. -/
theorem Records.settleOrder_slot_of_none {b : Records} {z : SlotNo} (h : b.order? z = none) (c : Clock) (sl : SlotNo) :
    (b.settleOrder c sl).1.slot z = b.slot z := by
  by_cases e : z = sl
  · subst e; rw [Records.settleOrder_of_none h]
  · exact b.settleOrder_slot_other c e

theorem Records.settleAll_slot_of_none {b : Records} {z : SlotNo} (h : b.order? z = none) (c : Clock)
    (l : List SlotNo) : (b.settleAll c l).1.slot z = b.slot z := by
  induction l generalizing b with
  | nil => rfl
  | cons sl rest ih =>
    have hslot := Records.settleOrder_slot_of_none h c sl
    have hnone : (b.settleOrder c sl).1.order? z = none := by rw [Records.order?, hslot]; exact h
    rw [Records.settleAll_cons, ih hnone, hslot]

/-- From `b` to `b'` the FREE slots stand, and every room's last motion. -/
structure Records.DayKeeps (b b' : Records) : Prop where
  free : ∀ z : SlotNo, (b.slot z).body = .free → b'.slot z = b.slot z
  lastMotion : ∀ q : RoomNo, (b'.room q).lastMotion = (b.room q).lastMotion

namespace Records.DayKeeps

variable {b b' b'' : Records}

theorem refl (b : Records) : b.DayKeeps b := ⟨fun _ _ => rfl, fun _ => rfl⟩

theorem trans (h : b.DayKeeps b') (h' : b'.DayKeeps b'') : b.DayKeeps b'' :=
  ⟨fun z hz => (h'.free z (by rw [h.free z hz, hz])).trans (h.free z hz),
    fun q => (h'.lastMotion q).trans (h.lastMotion q)⟩

theorem foldl {α : Type} {f : Records → α → Records} (hf : ∀ (b : Records) (x : α), b.DayKeeps (f b x))
    (l : List α) (b : Records) : b.DayKeeps (l.foldl f b) := by
  induction l generalizing b with
  | nil => exact refl b
  | cons x xs ih => exact (hf b x).trans (ih _)

theorem of_rooms (hs : ∀ z : SlotNo, (b.slot z).body = .free → b'.slot z = b.slot z) (hr : b'.rooms = b.rooms) :
    b.DayKeeps b' :=
  ⟨hs, fun q => by simp only [Records.room, hr]⟩

end Records.DayKeeps

section DayKeeps

variable (b : Records)

theorem Records.setRoom_dayKeeps {r : RoomNo} {x : Room} (h : x.lastMotion = (b.room r).lastMotion) :
    b.DayKeeps (b.setRoom r x) := by
  refine ⟨fun _ _ => rfl, fun q => ?_⟩
  by_cases hq : q = r
  · subst hq; simpa using h
  · rw [b.setRoom_room_other _ hq]

theorem Records.clearTurnaround_dayKeeps (now : Nat) (r : RoomNo) : b.DayKeeps (b.clearTurnaround now r) := by
  rw [b.clearTurnaround_set]
  exact b.setRoom_dayKeeps rfl

theorem Records.setBody_dayKeeps {sl : SlotNo} (h : (b.slot sl).body ≠ .free) (x : SlotBody) :
    b.DayKeeps (b.setBody sl x) :=
  .of_rooms (fun _ hz => b.setBody_slot_other _ fun e => h (e ▸ hz)) rfl

theorem Records.settleAll_dayKeeps (c : Clock) (l : List SlotNo) : b.DayKeeps (b.settleAll c l).1 :=
  .of_rooms (fun z hz => Records.settleAll_slot_of_none (by rw [Records.order?, hz]) c l)
    (b.settleAll_settlesOnly c l).orders.rooms

theorem Records.returnSlot_dayKeeps {sl : SlotNo} (h : (b.slot sl).body ≠ .free) : b.DayKeeps (b.returnSlot sl) :=
  .of_rooms (fun _ hz => b.returnSlot_slot_other fun e => h (e ▸ hz)) rfl

theorem Records.markShowing_dayKeeps (r : RoomNo) : b.DayKeeps (b.markShowing r) := .of_rooms (fun _ _ => rfl) rfl

theorem Records.raiseRoom?_dayKeeps (r : RoomNo) (n : Option RoomNotice) : b.DayKeeps (b.raiseRoom? r n) := by
  cases n <;> exact .of_rooms (fun _ _ => rfl) rfl

theorem Records.unlink_dayKeeps (r : RoomNo) (sl : SlotNo) : b.DayKeeps (b.unlink r sl) := by
  refine .trans (b.setRoom_dayKeeps ?_) (Records.markShowing_dayKeeps _ _)
  rfl

variable {b} in
theorem Records.retire_dayKeeps {sl : SlotNo} {k₀ : Booking} (hk : (b.slot sl).body = .booking k₀) (c : Clock)
    (k : Booking) (why : Reason) : b.DayKeeps (b.retire c sl k why).1 := by
  have hheld : (((b.unlink k.room sl).settleAll c k.annex).1.slot sl).body ≠ .free := by
    rw [Records.settleAll_slot_booking (b := b.unlink k.room sl) hk c k.annex]
    exact fun h => SlotBody.noConfusion (hk.symm.trans h)
  refine ((b.unlink_dayKeeps _ _).trans (Records.settleAll_dayKeeps _ _ _)).trans
    ((Records.returnSlot_dayKeeps _ hheld).trans (.trans (Records.setRoom_dayKeeps _ ?_)
      (.trans (Records.markShowing_dayKeeps _ _) (Records.raiseRoom?_dayKeeps _ _ _))))
  rfl

theorem Records.updateBooking_dayKeeps (c : Clock) (sl : SlotNo) : b.DayKeeps (b.updateBooking c sl) := by
  unfold Records.updateBooking
  split
  · exact .refl b
  · rename_i k hk
    have hk := Records.booking?_eq_some.mp hk
    split
    · exact Records.retire_dayKeeps hk c _ _
    · split
      · exact .refl b
      · exact (b.setBody_dayKeeps (by rw [hk]; nofun) _).trans (Records.markShowing_dayKeeps _ _)

theorem Records.bringUp_dayKeeps (c : Clock) (r : RoomNo) : b.DayKeeps (b.bringUp c r) :=
  (b.clearTurnaround_dayKeeps _ _).trans (.foldl (fun b sl => b.updateBooking_dayKeeps c sl) _ _)

end DayKeeps

/-- Bringing a room up to date changes chains, turnaround-untils and last releases alone among the rooms' fields. -/
theorem Records.bringUp_room_frame (b : Records) (c : Clock) (r q : RoomNo) :
    { (b.bringUp c r).room q with
      chain := (b.room q).chain, turnaround := (b.room q).turnaround, lastRelease := (b.room q).lastRelease } =
      b.room q := by
  have hsetup := b.bringUp_sameSetup c r
  dsimp only
  rw [hsetup.attrs, hsetup.service, hsetup.memberships, (b.bringUp_dayKeeps c r).lastMotion]

/-- A room brought up to date: its turnaround-until is cleared, and each booking of its chain is brought up to date. -/
theorem Records.bringUp_eq_foldl (b : Records) (c : Clock) (r : RoomNo) :
    b.bringUp c r = (b.room r).chain.foldl (fun x sl => x.updateBooking c sl) (b.clearTurnaround c.minute r) := by
  have hchain : ((b.clearTurnaround c.minute r).room r).chain = (b.room r).chain := by
    rw [Records.clearTurnaround_room, if_pos rfl]
  unfold Records.bringUp
  dsimp only
  rw [hchain]

theorem Records.updateBooking_of_ne {b : Records} {sl : SlotNo} (h : ∀ k, (b.slot sl).body ≠ .booking k) (c : Clock) :
    b.updateBooking c sl = b := by
  have hnone : b.booking? sl = none :=
    Option.eq_none_iff_forall_ne_some.mpr fun k hk => h k (Records.booking?_eq_some.mp hk)
  unfold Records.updateBooking
  rw [hnone]

/-! ## The conditions that the day judges (R73 to R75) -/

/-- Some PANEL node that names a room of `rs` is in state `st`. -/
def Records.PanelIn (b : Records) (rs : List RoomNo) (st : NodeState) : Prop :=
  ∃ (l : LineNo) (n : NodeNo) (q : RoomNo), q ∈ rs ∧ ((b.line l).node n).kind = .panel q ∧
    ((b.line l).node n).state = st

theorem Records.somePanel_iff (b : Records) (rs : List RoomNo) (st : NodeState) :
    b.somePanel rs st = true ↔ b.PanelIn rs st := by
  simp only [Records.somePanel, List.any_eq_true, Vector.mem_toList_iff, Vector.mem_iff_getElem, Bool.and_eq_true,
    decide_eq_true_eq, Node.shows_iff]
  constructor
  · rintro ⟨_, ⟨l, hl, rfl⟩, _, ⟨n, hn, rfl⟩, ⟨q, hkind, hq⟩, hst⟩
    exact ⟨⟨l, hl⟩, ⟨n, hn⟩, q, hq, hkind, hst⟩
  · rintro ⟨l, n, q, hq, hkind, hst⟩
    exact ⟨_, ⟨l.val, l.isLt, rfl⟩, _, ⟨n.val, n.isLt, rfl⟩, ⟨q, hkind, hq⟩, hst⟩

/-- The panels watch room `r`: its own is ONLINE, or for a combined room one of its members' is and none is SILENT
(R73). -/
def Records.Watched (b : Records) (r : RoomNo) : Prop :=
  ((b.room r).attrs.members = none → b.PanelIn [r] .online) ∧
    ∀ ms, (b.room r).attrs.members = some ms → b.PanelIn ms .online ∧ ¬ b.PanelIn ms .silent

theorem Records.panelCondition_iff (b : Records) (r : RoomNo) : b.panelCondition r = true ↔ b.Watched r := by
  unfold Records.panelCondition Records.Watched
  cases (b.room r).attrs.members <;> simp [Records.somePanel_iff, ← Bool.not_eq_true]

/-- The grace of a booking is over: counted from its start, and from the last jump (R74). -/
def Clock.GraceOver (c : Clock) (a : RoomAttrs) (k : Booking) : Prop :=
  k.start + a.grace ≤ c.minute ∧ ∀ j, c.lastJump = some j → j.2 + a.grace ≤ c.minute

theorem graceEnded_iff (c : Clock) (a : RoomAttrs) (k : Booking) : graceEnded c a k = true ↔ c.GraceOver a k := by
  unfold graceEnded Clock.graceStart Clock.GraceOver
  cases c.lastJump with
  | none => simp
  | some j => simp; omega

theorem Records.le_quietMinutes_iff (b : Records) (now : Nat) (r : RoomNo) {limit : Nat} (h : limit ≤ 255) :
    limit ≤ b.quietMinutes now r ↔ ∀ m, b.lastMotionOf r = some m → limit ≤ now - m := by
  unfold Records.quietMinutes
  cases b.lastMotionOf r <;> simp [h]

/-- The four conditions of the vacate limit (R75). -/
def Records.VacateOver (b : Records) (c : Clock) (r : RoomNo) (k : Booking) : Prop :=
  (b.room r).attrs.vacate ≠ 0 ∧ b.Watched r ∧
    (∀ m, b.lastMotionOf r = some m → (b.room r).attrs.vacate ≤ c.minute - m) ∧
    k.start + (b.room r).attrs.vacate ≤ c.minute ∧
    ∀ m, k.checkInMinute = some m → m + (b.room r).attrs.vacate ≤ c.minute

theorem Records.vacateDue_iff {b : Records} {r : RoomNo} (h : (b.room r).attrs.vacate ≤ 255) (c : Clock)
    (k : Booking) : b.vacateDue c r k = true ↔ b.VacateOver c r k := by
  have hlater : max k.start (k.checkInMinute.getD k.start) + (b.room r).attrs.vacate ≤ c.minute ↔
      k.start + (b.room r).attrs.vacate ≤ c.minute ∧
        ∀ m, k.checkInMinute = some m → m + (b.room r).attrs.vacate ≤ c.minute := by
    cases k.checkInMinute with
    | none => simp
    | some m => simp; omega
  simp only [Records.vacateDue, Records.VacateOver, Bool.and_eq_true, decide_eq_true_eq,
    b.le_quietMinutes_iff c.minute r h, b.panelCondition_iff, hlater, and_assoc]

/-! ## The reported state (R72, R91) -/

section Reported

variable {c : Clock} {a : RoomAttrs} {k : Booking}

theorem reportedState_of_held (h : k.state = .held) : reportedState c a k = .held := by
  simp [reportedState, h]

theorem reportedState_of_early (h : k.state = .booked) (hlead : c.minute + a.lead < k.start) :
    reportedState c a k = .booked := by
  simp [reportedState, h, Nat.not_le.mpr hlead]

theorem reportedState_of_inUse (h : k.state = .inUse) : reportedState c a k = .inUse := by
  simp [reportedState, h]

/-- A booking that its lead makes ARRIVING, or that is so already, is IN_USE from its start when it is checked in. -/
theorem reportedState_of_arrived
    (h : k.state = .arriving ∨ (k.state = .booked ∧ k.start ≤ c.minute + a.lead)) :
    reportedState c a k = if k.checkedIn = true ∧ k.start ≤ c.minute then .inUse else .arriving := by
  rcases h with h | ⟨h, hlead⟩
  · simp [reportedState, h]
  · simp [reportedState, h, hlead]

end Reported

/-! ## The steps of the day (R70 to R75) -/

section Steps

variable {b : Records} {c : Clock} {k : Booking}

theorem Records.dayVacate_due (h : k.state = .inUse) (hv : (b.room k.room).attrs.vacate ≤ 255)
    (hdue : b.VacateOver c k.room k) : b.dayVacate c k = .retired k .vacated :=
  if_pos ⟨h, (Records.vacateDue_iff hv c k).mpr hdue⟩

theorem Records.dayVacate_kept (hv : (b.room k.room).attrs.vacate ≤ 255)
    (h : k.state = .inUse → ¬ b.VacateOver c k.room k) : b.dayVacate c k = .kept k :=
  if_neg fun ⟨hst, hdue⟩ => h hst ((Records.vacateDue_iff hv c k).mp hdue)

/-- The hold of a HELD booking has expired, no later than the booking's end (step 1 of R70). -/
def Booking.HoldOver (k : Booking) (now : Nat) : Prop :=
  k.state = .held ∧ ∃ e, k.holdExpiry = some e ∧ e ≤ now ∧ e ≤ k.stop

/-- The last jump passed over the end of the booking (R71). -/
def Clock.JumpedOver (c : Clock) (k : Booking) : Prop := ∃ j, c.lastJump = some j ∧ j.1 < k.stop ∧ k.stop ≤ j.2

theorem Clock.endReason_skipped (h : c.JumpedOver k) : c.endReason k = .skipped := by
  obtain ⟨j, hj, hover⟩ := h
  simp only [Clock.endReason, hj, if_pos hover]

theorem Clock.endReason_ended (h : ¬ c.JumpedOver k) : c.endReason k = .ended := by
  unfold Clock.endReason
  split <;> rename_i hj
  · exact if_neg fun hover => h ⟨_, hj, hover⟩
  · rfl

/-- The steps in their order: the hold, the end, and then the reported state with its grace and vacate limit. -/
theorem Records.dayOf_eq (b : Records) (c : Clock) (k : Booking) [Decidable (k.HoldOver c.minute)] :
    b.dayOf c k =
      if k.HoldOver c.minute then .retired k .holdExpired
      else if k.stop ≤ c.minute then .retired k (c.endReason k)
      else b.dayGrace c { k with state := reportedState c (b.room k.room).attrs k } := by
  unfold Records.dayOf
  refine if_congr ?_ rfl rfl
  cases hx : k.holdExpiry <;> simp [Booking.HoldOver, hx, and_assoc]

theorem Records.dayOf_holdExpired (h : k.HoldOver c.minute) : b.dayOf c k = .retired k .holdExpired := by
  classical rw [Records.dayOf_eq, if_pos h]

theorem Records.dayOf_ended (h : ¬ k.HoldOver c.minute) (hstop : k.stop ≤ c.minute) :
    b.dayOf c k = .retired k (c.endReason k) := by
  classical rw [Records.dayOf_eq, if_neg h, if_pos hstop]

end Steps

section Living

variable {b : Records} {c : Clock} {k : Booking} (hhold : ¬ k.HoldOver c.minute) (hstop : c.minute < k.stop)

include hhold hstop

/-- A booking that lives through steps 1 and 2 takes its reported state (steps 3 and 4 of R70). -/
theorem Records.dayOf_living {st : BookingState} (hst : reportedState c (b.room k.room).attrs k = st) :
    b.dayOf c k = b.dayGrace c { k with state := st } := by
  classical rw [Records.dayOf_eq, if_neg hhold, if_neg (Nat.not_le.mpr hstop), hst]

/-- A booking reported HELD or BOOKED stays as it is. -/
theorem Records.dayOf_waiting (hst : reportedState c (b.room k.room).attrs k = k.state)
    (hwaits : k.state = .held ∨ k.state = .booked) : b.dayOf c k = .kept k := by
  rw [Records.dayOf_living hhold hstop hst]
  rcases hwaits with h | h <;> exact (if_neg (by rw [h]; nofun)).trans (if_neg (by rw [h]; nofun))

/-- A booking reported ARRIVING that is checked in, or whose grace is not over, stays ARRIVING (R74). -/
theorem Records.dayOf_arriving (hst : reportedState c (b.room k.room).attrs k = .arriving)
    (hwaits : k.checkedIn = false → ¬ c.GraceOver (b.room k.room).attrs k) :
    b.dayOf c k = .kept { k with state := .arriving } := by
  rw [Records.dayOf_living hhold hstop hst]
  exact (if_neg fun ⟨_, hin, hgrace⟩ => hwaits hin ((graceEnded_iff ..).mp hgrace)).trans (if_neg nofun)

section GraceOver

variable (hst : reportedState c (b.room k.room).attrs k = .arriving) (hin : k.checkedIn = false)
  (hgrace : c.GraceOver (b.room k.room).attrs k)

include hst hin hgrace

/-- A booking that nobody checked in by the end of its grace is released where the room releases by itself and its
panels watch it, and is taken to be IN_USE otherwise (R74). -/
theorem Records.dayOf_graceOver :
    b.dayOf c k =
      if ((b.room k.room).attrs.autoRelease && b.panelCondition k.room) = true then
        .retired { k with state := .arriving } .noShow
      else b.dayVacate c { k with state := .inUse, checkedIn := false, checkInMinute := none } := by
  rw [Records.dayOf_living hhold hstop hst]
  exact if_pos ⟨rfl, hin, (graceEnded_iff ..).mpr hgrace⟩

theorem Records.dayOf_noShow (hauto : (b.room k.room).attrs.autoRelease = true) (hwatched : b.Watched k.room) :
    b.dayOf c k = .retired { k with state := .arriving } .noShow := by
  rw [Records.dayOf_graceOver hhold hstop hst hin hgrace]
  exact if_pos (Bool.and_eq_true_iff.mpr ⟨hauto, (b.panelCondition_iff _).mpr hwatched⟩)

theorem Records.dayOf_takenInUse (hno : ¬ ((b.room k.room).attrs.autoRelease = true ∧ b.Watched k.room)) :
    b.dayOf c k = b.dayVacate c { k with state := .inUse, checkedIn := false, checkInMinute := none } := by
  rw [Records.dayOf_graceOver hhold hstop hst hin hgrace]
  refine if_neg fun h => hno ?_
  obtain ⟨hauto, hpanel⟩ := Bool.and_eq_true_iff.mp h
  exact ⟨hauto, (b.panelCondition_iff _).mp hpanel⟩

end GraceOver

theorem Records.dayOf_inUse (hst : reportedState c (b.room k.room).attrs k = .inUse) :
    b.dayOf c k = b.dayVacate c { k with state := .inUse } := by
  rw [Records.dayOf_living hhold hstop hst]
  unfold Records.dayGrace
  exact if_neg nofun

end Living

/-! ## The booking brought up to date (R70) -/

section Update

variable {b : Records} {c : Clock} {sl : SlotNo} {k k' : Booking} (hk : (b.slot sl).body = .booking k)

include hk

theorem Records.updateBooking_of_retired {why : Reason} (h : b.dayOf c k = .retired k' why) :
    b.updateBooking c sl = (b.retire c sl k' why).1 := by
  simp only [Records.updateBooking, Records.booking?_eq_some.mpr hk, h]

theorem Records.updateBooking_of_kept (h : b.dayOf c k = .kept k') :
    (k' = k → b.updateBooking c sl = b) ∧
      (k' ≠ k → b.updateBooking c sl = (b.setBody sl (.booking k')).markShowing k.room) := by
  simp only [Records.updateBooking, Records.booking?_eq_some.mpr hk, h]
  exact ⟨fun h => if_pos h, fun h => if_neg h⟩

end Update

/-- Settles O40: a room is brought up to date by a fold over its chain; one booking is judged by the steps of the day in
their order. -/
theorem dayTableJudgesBooking : Obligations.DayTableJudgesBooking := by
  refine ⟨fun b c r => ?_, ?_⟩
  · have hsetup := b.bringUp_sameSetup c r
    refine ⟨⟨b.clearTurnaround c.minute r, b.clearTurnaround_eq _ _, fun q => ?_, b.bringUp_eq_foldl c r⟩,
      fun sl h => Records.updateBooking_of_ne h c, (b.bringUp_dayKeeps c r).free,
      ⟨hsetup.state, hsetup.floor, hsetup.horizon⟩, b.bringUp_room_frame c r, rfl⟩
    rw [Records.clearTurnaround_room]
    split <;> rename_i h
    · rw [h]
    · rfl
  intro b c sl k hk t now x retired kept panel watched vacate graceOver expired hvacate
  have hretired : ∀ {k' why}, b.dayOf c k = .retired k' why → retired k' why :=
    Records.updateBooking_of_retired hk
  have hkept : ∀ {k'}, b.dayOf c k = .kept k' → kept k' := Records.updateBooking_of_kept hk
  have hinUse : ∀ k' : Booking, k'.room = k.room → k'.state = .inUse → b.dayOf c k = b.dayVacate c k' →
      (vacate k' → retired k' .vacated) ∧ (¬ vacate k' → kept k') := by
    intro k' hroom hst hday
    have hlimit : (b.room k'.room).attrs.vacate ≤ 255 := hroom ▸ hvacate
    have hover : b.VacateOver c k'.room k' ↔ vacate k' := by rw [hroom]; exact Iff.rfl
    exact ⟨fun h => hretired (hday.trans (Records.dayVacate_due hst hlimit (hover.mpr h))),
      fun h => hkept (hday.trans (Records.dayVacate_kept hlimit fun _ => mt hover.mp h))⟩
  refine ⟨fun h => hretired (Records.dayOf_holdExpired h), fun hhold hstop => ⟨fun h => ?_, fun h => ?_⟩,
    fun hhold hstop => ?_⟩
  · exact hretired (Clock.endReason_skipped h ▸ Records.dayOf_ended hhold hstop)
  · exact hretired (Clock.endReason_ended h ▸ Records.dayOf_ended hhold hstop)
  refine ⟨fun h => ?_, fun h hearly => ?_, fun h => ?_, fun h => ?_⟩
  · exact hkept (Records.dayOf_waiting hhold hstop ((reportedState_of_held h).trans h.symm) (.inl h))
  · exact hkept (Records.dayOf_waiting hhold hstop ((reportedState_of_early h hearly).trans h.symm) (.inr h))
  · have harrived := reportedState_of_arrived h
    have harriving : ¬ (k.checkedIn = true ∧ k.start ≤ c.minute) →
        reportedState c (b.room k.room).attrs k = .arriving := fun hno => harrived.trans (if_neg hno)
    refine ⟨fun hin hahead => ?_, fun hin hgrace => ?_, fun hin hgrace => ?_⟩
    · refine hkept (Records.dayOf_arriving hhold hstop (harriving fun hb => ?_) fun hout => ?_)
      · exact Nat.not_le.mpr hahead hb.2
      · exact absurd (hin.symm.trans hout) nofun
    all_goals have hst := harriving fun hb => Bool.noConfusion (hin.symm.trans hb.1)
    · exact hkept (Records.dayOf_arriving hhold hstop hst fun _ => hgrace)
    · exact ⟨fun hauto hw => hretired (Records.dayOf_noShow hhold hstop hst hin hgrace hauto hw),
        fun hno => hinUse _ rfl rfl (Records.dayOf_takenInUse hhold hstop hst hin hgrace hno)⟩
  · refine hinUse _ rfl rfl (Records.dayOf_inUse hhold hstop ?_)
    rcases h with h | ⟨h, hin, hbegun⟩
    · exact reportedState_of_inUse h
    · exact (reportedState_of_arrived h).trans (if_pos ⟨hin, hbegun⟩)

end Sys2Proof.Machine

/-! FIND_ROOMS: the checks that begin a scan, the judgement of one room, and the end with the response
(R96 to R98). -/

namespace Sys2Proof.Machine

open Sys2Proof

/-! ## The checks of R96 -/

/-- The values of a FIND_ROOMS that R96 allows. -/
def FindValuesOk (a : FindArgs) : Prop :=
  1 ≤ a.seats ∧ a.seats ≤ 500 ∧ ∀ n, a.building = some n → n < 16

theorem findValuesOk_iff (a : FindArgs) :
    (decide (1 ≤ a.seats ∧ a.seats ≤ 500) && ((a.building.map fun n => decide (n < 16)).getD true)) = true ↔
      FindValuesOk a := by
  cases h : a.building <;> simp [FindValuesOk, h, and_assoc]

theorem Clock.findTimesOk_iff (c : Clock) (horizon : Nat) (a : FindArgs) :
    c.findTimesOk horizon a = true ↔
      a.start ≤ 16777215 ∧ a.stop ≤ 16777215 ∧ c.minute / 5 * 5 ≤ a.start / 5 * 5 ∧
      a.start / 5 * 5 + 15 ≤ (a.stop + 4) / 5 * 5 ∧ (a.stop + 4) / 5 * 5 ≤ a.start / 5 * 5 + 720 ∧
      a.start / 5 * 5 < c.minute + horizon * 1440 := by
  simp only [Clock.findTimesOk, newTimesOk, Bool.and_eq_true, decide_eq_true_eq, and_assoc]
  rfl

section Judge

variable {s : State} {a : FindArgs}

theorem State.judgeFind_badValue (h : ¬ FindValuesOk a) : s.judgeFind a = .error .badValue :=
  if_neg (mt (findValuesOk_iff a).mp h)

variable (hvalues : FindValuesOk a)
include hvalues

theorem State.judgeFind_badRoom (h : 384 ≤ a.fromRoom) : s.judgeFind a = .error .badRoom :=
  (if_pos ((findValuesOk_iff a).mpr hvalues)).trans (by rw [roomNo?_none h])

variable {r : RoomNo} (hroom : a.fromRoom = r.val)
include hroom

/-- The times are judged last, for a from room of the table. -/
theorem State.judgeFind_room : s.judgeFind a =
    if s.clk.findTimesOk s.recs.pool.horizon a then
      .ok { start := floor5 a.start, stop := ceil5 a.stop, building := a.building, seats := a.seats,
            combined := a.combined, next := r, found := [] }
    else .error .badTime :=
  (if_pos ((findValuesOk_iff a).mpr hvalues)).trans (by rw [hroom, roomNo?_val])

end Judge

section Begin

variable {s : State} {a : FindArgs} (hr : s.recs.pool.state = .ready) (hc : s.clk.state ≠ .unset)
include hr hc

theorem State.findRooms_refused {st : Status} (hj : s.judgeFind a = .error st) :
    s.findRooms a = (s, .now st []) := by
  rw [State.findRooms, State.gated_open hr hc, hj]; rfl

theorem State.findRooms_begins {x : Scan} (hj : s.judgeFind a = .ok x) :
    s.findRooms a = ({ s with scan := some x }, .later) := by
  rw [State.findRooms, State.gated_open hr hc, hj]

end Begin

/-! ## One room judged (R97) -/

section JudgeRoom

variable (b : Records) (now : Nat) (x : Scan) (r : RoomNo)

theorem Records.suits_iff :
    b.suits x r = true ↔
      ((b.room r).service = .inService ∧
        ∀ m ∈ (b.room r).attrs.members.getD [], (b.room m).service = .inService) ∧
      (x.combined = true ∨ (b.room r).attrs.members = none) ∧
      (∀ n, x.building = some n → (b.room r).attrs.building = n) ∧ x.seats ≤ (b.room r).attrs.seats := by
  simp only [Records.suits, Bool.and_eq_true, Bool.or_eq_true, decide_eq_true_eq, b.bookable_iff, Room.isCombined,
    Bool.not_eq_true', Option.isSome_eq_false_iff, Option.isNone_iff_eq_none, and_assoc]
  cases x.building <;> simp

variable {b r x}

theorem Records.judgeRoom_of_suits (h : b.suits x r = true) :
    b.judgeRoom now x r = (b.readTurnarounds now r,
      ((b.readTurnarounds now r).obstacle now r none true x.start x.stop).isNone) :=
  if_pos h

theorem Records.judgeRoom_of_not_suits (h : ¬ b.suits x r = true) : b.judgeRoom now x r = (b, false) := if_neg h

variable (b r x)

/-- A room is found when it suits and the conflict test meets no obstacle. -/
theorem Records.judgeRoom_found_iff :
    (b.judgeRoom now x r).2 = true ↔
      b.suits x r = true ∧ (b.judgeRoom now x r).1.obstacle now r none true x.start x.stop = none := by
  by_cases h : b.suits x r = true
  · rw [Records.judgeRoom_of_suits now h]
    exact Option.isNone_iff_eq_none.trans (and_iff_right h).symm
  · rw [Records.judgeRoom_of_not_suits now h]
    exact ⟨nofun, fun hs => absurd hs.1 h⟩

/-- The judgement touches the room table alone. -/
theorem Records.judgeRoom_eq :
    (b.judgeRoom now x r).1 = { b with rooms := (b.judgeRoom now x r).1.rooms } := by
  unfold Records.judgeRoom
  split
  · exact b.clearTurnarounds_eq now _
  · rfl

/-- The turnaround-until fields that the test meets at or before now become absent (R56). -/
theorem Records.judgeRoom_room (q : RoomNo) :
    (b.judgeRoom now x r).1.room q =
      if b.suits x r = true ∧ q ∈ b.conflictSet r then
        { b.room q with turnaround := (b.room q).turnaround.filter fun t => decide (now < t) }
      else b.room q := by
  by_cases h : b.suits x r = true
  · rw [Records.judgeRoom_of_suits now h, Records.readTurnarounds, Records.clearTurnarounds_room]
    simp only [h, true_and]
  · rw [Records.judgeRoom_of_not_suits now h, if_neg (mt And.left h)]

theorem Records.judgeRoom_sameSetup : b.SameSetup (b.judgeRoom now x r).1 := by
  unfold Records.judgeRoom
  split
  · exact b.readTurnarounds_sameSetup now r
  · exact .refl b

end JudgeRoom

/-! ## The scan goes on or ends (R97, R98) -/

theorem Records.foundPayload_items (b : Records) (x : Scan) (next : Option Nat) :
    b.foundPayload x next = minuteBytes x.start ++ minuteBytes x.stop ++ be 1 x.found.length ++
      x.found.flatMap (fun q => be 2 q.val ++ be 1 (b.room q).attrs.building ++ be 2 (b.room q).attrs.seats ++
        optBytes 1 ((b.room q).attrs.kitchen.map Fin.val) ++
        [if (b.room q).attrs.members.isSome then 1 else 0]) ++ optBytes 2 next := by
  simp only [Records.foundPayload, listBytes, List.append_assoc]
  rfl

/-- The items of R98 are read from attributes alone. -/
theorem Records.SameSetup.foundPayload_eq {b b' : Records} (h : b.SameSetup b') (x : Scan) (next : Option Nat) :
    b'.foundPayload x next = b.foundPayload x next := by
  simp only [Records.foundPayload, Room.isCombined, h.attrs]

section ScanOn

variable {s : State} {x : Scan}

theorem State.scanOn_next {r : RoomNo} (hr : r.val = x.next.val + 1) (h : x.found.length < 16) :
    s.scanOn x = { s with scan := some { x with next := r } } := by
  have hlt : x.next.val + 1 < 384 := hr ▸ r.isLt
  have hnext : (⟨x.next.val + 1, hlt⟩ : RoomNo) = r := Fin.ext hr.symm
  rw [State.scanOn, dif_pos hlt, if_pos h, hnext]

theorem State.scanOn_end {tag : Byte} {a : FindArgs} (hport : s.port.state = .executing (.findRooms tag a) true)
    (h : x.next.val = 383 ∨ 16 ≤ x.found.length) :
    s.scanOn x = ({ s with scan := none } : State).respond 66 tag .ok
      (s.recs.foundPayload x (if x.next.val = 383 then none else some (x.next.val + 1))) := by
  have hfinish : ∀ p, ({ s with scan := none } : State).finish .ok p =
      ({ s with scan := none } : State).respond 66 tag .ok p :=
    State.finish_executing (s := { s with scan := none }) hport .ok
  have hroom := x.next.isLt
  by_cases hlast : x.next.val = 383
  · rw [State.scanOn, dif_neg (by omega), if_pos hlast, hfinish]
  · rw [State.scanOn, dif_pos (by omega), if_neg (by omega), if_neg hlast, hfinish]

end ScanOn

/-- The rooms found once room `x.next` has been judged. -/
def Scan.foundAfter (x : Scan) (found : Bool) : List RoomNo := if found then x.found ++ [x.next] else x.found

theorem execFindRoomsScanStep_scanning {s : State} {x : Scan} (h : s.scan = some x) :
    execFindRoomsScanStep s =
      .next ((s.withRecs (s.recs.judgeRoom s.clk.minute x x.next).1).scanOn
        { x with found := x.foundAfter (s.recs.judgeRoom s.clk.minute x x.next).2 }) := by
  simp only [execFindRoomsScanStep, h, Scan.foundAfter]
  split <;> rfl

/-- Settles O44: FIND_ROOMS by the checks in their order, a scan step by the judgement of its room and by whether the
scan goes on. -/
theorem findRoomsScans : Obligations.FindRoomsScans := by
  intro tag a s now st en valuesOk timesOk
  refine ⟨fun hidle => ?_, fun hnone => ?_, fun x hx hport => ?_⟩
  · have htimes : s.clk.findTimesOk s.recs.pool.horizon a = true ↔ timesOk := s.clk.findTimesOk_iff _ a
    intro refused
    refine ⟨fun hr => State.serve_idle_now hidle (State.gated_notReady hr _),
      fun hr hc => State.serve_idle_now hidle (State.gated_unset hr hc _), fun hr hc => ?_⟩
    have judged : ∀ {e}, s.judgeFind a = .error e → refused e := fun hj =>
      State.serve_idle_now hidle (State.findRooms_refused hr hc hj)
    refine ⟨fun hv => judged (State.judgeFind_badValue hv), fun hv hn => judged (State.judgeFind_badRoom hv hn),
      fun hv hn ht => ?_, fun r hv hroom ht => ?_⟩
    · have hroom : a.fromRoom = (⟨a.fromRoom, hn⟩ : RoomNo).val := rfl
      exact judged ((State.judgeFind_room hv hroom).trans (if_neg (mt htimes.mp ht)))
    · have hj := (State.judgeFind_room hv hroom).trans (if_pos (htimes.mpr ht))
      exact State.serve_idle_later hidle (State.findRooms_begins hr hc hj)
  · show execFindRoomsScanStep s = _
    rw [execFindRoomsScanStep, hnone]
  · intro b y suits
    have hsuits : b.suits x x.next = true ↔ suits := b.suits_iff x x.next
    have hroom := b.judgeRoom_room now x x.next
    have hfound := (b.judgeRoom_found_iff now x x.next).trans (and_congr_left' hsuits)
    have hstep := execFindRoomsScanStep_scanning hx
    refine ⟨(b.judgeRoom now x x.next).1, x.foundAfter (b.judgeRoom now x x.next).2, b.judgeRoom_eq now x x.next,
      fun hno => ?_, fun q hq => ?_, fun hs q hq => ?_, fun hs ho => ?_, fun hno => ?_, fun r hr hlen => ?_,
      fun hend => ?_⟩
    · rw [Records.judgeRoom_of_not_suits now (mt hsuits.mp hno)]
    · rw [hroom, if_neg (mt And.right hq)]
    · rw [hroom, if_pos ⟨hsuits.mpr hs, hq⟩]
    · exact if_pos (hfound.mpr ⟨hs, ho⟩)
    · exact if_neg (mt hfound.mp hno)
    · exact hstep.trans (congrArg _ (State.scanOn_next hr hlen))
    · have hsetup := b.judgeRoom_sameSetup now x x.next
      have hover := State.scanOn_end (s := s.withRecs (b.judgeRoom now x x.next).1)
        (x := { x with found := x.foundAfter (b.judgeRoom now x x.next).2 }) hport hend
      have hpayload := fun x' n => (hsetup.foundPayload_eq x' n).trans (b.foundPayload_items x' n)
      exact hstep.trans (congrArg _ (hover.trans (congrArg _ (hpayload _ _))))

end Sys2Proof.Machine

/-! What the events of the day leave as it was: the settings of pool, notices, kitchens and lines, each kitchen's level and
terminal, and each node's kind and state (R29, R30, R100, R101, R146, R147, R181). -/

namespace Sys2Proof.Machine

open Sys2Proof

/-! ## The fixtures -/

/-- A kitchen's settings, its level with what it is formed from, its terminal, and whether its stamp counters lie within
their range (R100, R101). -/
structure Kitchen.Fixture where
  banks : Vector Nat 8
  opens : Nat
  closes : Nat
  fallback : Fin 8
  override : Option (Fin 8)
  reported : Option (Fin 8)
  terminal : Option (LineNo × NodeNo)
  online : Bool
  active : Fin 8
  stamped : Bool

def Kitchen.fixture (k : Kitchen) : Kitchen.Fixture :=
  { banks := k.banks, opens := k.opens, closes := k.closes, fallback := k.fallback, override := k.override,
    reported := k.reported, terminal := k.terminal, online := k.online, active := k.active,
    stamped := decide (k.admissions ≤ Config.maxStamp ∧ k.waits ≤ Config.maxStamp) }

/-- A line's settings, and the kind and state of each of its nodes (R146, R147). -/
structure Line.Fixture where
  running : Bool
  timeout : Nat
  refresh : Nat
  nodes : NodeNo → NodeKind × NodeState

def Line.fixture (l : Line) : Line.Fixture :=
  { running := l.running, timeout := l.timeout, refresh := l.refresh,
    nodes := fun n => ((l.node n).kind, (l.node n).state) }

/-- The fixtures of the records: what a line, a terminal or a configuring command alone changes. -/
structure Records.Fixtures where
  floor : Nat
  horizon : Nat
  masks : Vector Bool 18
  kitchens : KitchenNo → Kitchen.Fixture
  lines : LineNo → Line.Fixture

def Records.fixtures (b : Records) : Records.Fixtures :=
  { floor := b.pool.floor, horizon := b.pool.horizon, masks := b.notices.masks,
    kitchens := fun k => (b.kitchen k).fixture, lines := fun l => (b.line l).fixture }

theorem Records.fixtures_eq {b b' : Records} (hf : b'.pool.floor = b.pool.floor)
    (hh : b'.pool.horizon = b.pool.horizon) (hm : b'.notices.masks = b.notices.masks)
    (hk : ∀ k, (b'.kitchen k).fixture = (b.kitchen k).fixture)
    (hl : ∀ l, (b'.line l).fixture = (b.line l).fixture) : b'.fixtures = b.fixtures := by
  simp only [Records.fixtures, hf, hh, hm, funext hk, funext hl]

/-- A fold of operations that each leave the fixtures leaves them. -/
theorem Records.foldl_fixtures {α : Type} {f : Records → α → Records} (hf : ∀ (b : Records) (x : α),
    (f b x).fixtures = b.fixtures) (l : List α) (b : Records) : (l.foldl f b).fixtures = b.fixtures := by
  induction l generalizing b with
  | nil => rfl
  | cons x xs ih => exact (ih _).trans (hf b x)

/-! ## One kitchen, one line, the notices -/

theorem nextStamp_le_iff (n : Nat) : nextStamp n ≤ Config.maxStamp ↔ n ≤ Config.maxStamp := by
  unfold nextStamp; split <;> omega

section Kitchen

variable (k : Kitchen)

@[simp] theorem Kitchen.withRing_fixture (r : Vector RingEntry 336) :
    ({ k with ring := r } : Kitchen).fixture = k.fixture := rfl

@[simp] theorem Kitchen.subShares_fixture (w0 : Nat) (l : List (Nat × Nat)) :
    (k.subShares w0 l).fixture = k.fixture := by rw [(k.subShares_frame w0 l).1]; rfl

@[simp] theorem Kitchen.addShares_fixture (l : List (Nat × Nat)) : (k.addShares l).fixture = k.fixture := by
  rw [(k.addShares_frame l).1]; rfl

@[simp] theorem Kitchen.touchTested_fixture (l : List (Nat × Nat)) : (k.touchTested l).fixture = k.fixture := by
  rw [(k.touchTested_frame l).1]; rfl

@[simp] theorem Kitchen.promote_fixture : k.promote.fixture = k.fixture := by
  unfold Kitchen.promote; split <;> rfl

@[simp] theorem Kitchen.capacityTrigger_fixture (w0 : Nat) : (k.capacityTrigger w0).fixture = k.fixture := by
  unfold Kitchen.capacityTrigger; split <;> rfl

@[simp] theorem Kitchen.walkEnded_fixture : k.walkEnded.fixture = k.fixture := by
  unfold Kitchen.walkEnded; split <;> rfl

@[simp] theorem Kitchen.admitted_fixture (l : List (Nat × Nat)) :
    ({ k.addShares l with admissions := nextStamp k.admissions } : Kitchen).fixture = k.fixture := by
  rw [(k.addShares_frame l).1]
  simp only [Kitchen.fixture, nextStamp_le_iff]

@[simp] theorem Kitchen.waited_fixture (l : List SlotNo) :
    ({ k with waits := nextStamp k.waits, waitlist := l } : Kitchen).fixture = k.fixture := by
  simp only [Kitchen.fixture, nextStamp_le_iff]

@[simp] theorem Kitchen.passEnded_fixture : k.passEnded.fixture = k.fixture := rfl

@[simp] theorem Kitchen.ringEmptied_fixture : k.ringEmptied.fixture = k.fixture := rfl

end Kitchen

theorem Line.fixture_eq {l l' : Line} (hr : l'.running = l.running) (ht : l'.timeout = l.timeout)
    (hf : l'.refresh = l.refresh)
    (hn : ∀ n, (l'.node n).kind = (l.node n).kind ∧ (l'.node n).state = (l.node n).state) :
    l'.fixture = l.fixture := by
  have hnodes : ∀ n, ((l'.node n).kind, (l'.node n).state) = ((l.node n).kind, (l.node n).state) := fun n => by
    rw [(hn n).1, (hn n).2]
  simp only [Line.fixture, hr, ht, hf, funext hnodes]

section Line

variable (l : Line)

/-- The nodes of a line changed one by one, each keeping its kind and state. -/
theorem Line.mapNodes_fixture {f : Node → Node} (hf : ∀ x, (f x).kind = x.kind ∧ (f x).state = x.state) :
    ({ l with nodes := l.nodes.map f } : Line).fixture = l.fixture :=
  Line.fixture_eq rfl rfl rfl fun n => by simpa [Line.node] using hf l.nodes[n.val]

theorem Line.setNode_fixture {n : NodeNo} {x : Node} (hk : x.kind = (l.node n).kind)
    (hs : x.state = (l.node n).state) : (l.setNode n x).fixture = l.fixture :=
  Line.fixture_eq rfl rfl rfl fun m => by
    by_cases hm : m = n
    · subst hm; simpa using ⟨hk, hs⟩
    · rw [l.setNode_node_other _ hm]; exact ⟨rfl, rfl⟩

@[simp] theorem Line.beginVisit_fixture (n : NodeNo) (kind : FrameKind) (payload : List Byte) :
    (l.beginVisit n kind payload).fixture = l.fixture := rfl

@[simp] theorem Line.choose_fixture (fuel : Nat) : (Line.choose fuel l).1.fixture = l.fixture := by
  obtain ⟨j, -, hj, -⟩ := Line.choose_fst fuel l
  have hend : ∀ i, ((Line.endSweep^[i]) l).fixture = l.fixture := fun i => by
    induction i with
    | zero => rfl
    | succ i ih => rw [Function.iterate_succ_apply']; exact ih
  rw [hj, hend]

@[simp] theorem Line.chooseNext_fixture : l.chooseNext.1.fixture = l.fixture := by
  unfold Line.chooseNext
  split
  · exact l.choose_fixture 8
  · rfl

@[simp] theorem Line.visitEnded_fixture : l.visitEnded.fixture = l.fixture :=
  Line.chooseNext_fixture { l with visit := none }

@[simp] theorem Line.aged_fixture (now : Nat) : (l.aged now).fixture = l.fixture :=
  l.mapNodes_fixture fun x => by split <;> exact ⟨rfl, rfl⟩

@[simp] theorem Line.markPanels_fixture : l.markPanels.fixture = l.fixture :=
  l.mapNodes_fixture fun x => by split <;> exact ⟨rfl, rfl⟩

end Line

@[simp] theorem Notices.raise_masks (n : Notices) (x : RaisedNotice) : (n.raise x).masks = n.masks := by
  cases x <;> rfl

/-! ## The tables -/

section Tables

variable (b : Records)

/-- Rooms and queues, and the pool beside its floor and horizon, are no fixtures. -/
theorem Records.mk_fixtures {p : Pool} (hf : p.floor = b.pool.floor) (hh : p.horizon = b.pool.horizon)
    (r : Vector Room 384) (q : Vector TicketQueue 8) :
    ({ b with pool := p, rooms := r, queues := q } : Records).fixtures = b.fixtures :=
  Records.fixtures_eq hf hh rfl (fun _ => rfl) fun _ => rfl

theorem Records.setKitchen_fixtures {k : KitchenNo} {x : Kitchen} (hx : x.fixture = (b.kitchen k).fixture) :
    (b.setKitchen k x).fixtures = b.fixtures :=
  Records.fixtures_eq rfl rfl rfl (fun q => by
    by_cases hq : q = k
    · subst hq; simpa using hx
    · rw [b.setKitchen_kitchen_other _ hq]) fun _ => rfl

theorem Records.setLine_fixtures {l : LineNo} {x : Line} (hx : x.fixture = (b.line l).fixture) :
    (b.setLine l x).fixtures = b.fixtures :=
  Records.fixtures_eq rfl rfl rfl (fun _ => rfl) fun m => by
    by_cases hm : m = l
    · subst hm; simpa using hx
    · rw [b.setLine_line_other _ hm]

/-- Every line changed in the same way, keeping its fixture. -/
theorem Records.mapLines_fixtures {f : Line → Line} (hf : ∀ x, (f x).fixture = x.fixture) :
    ({ b with lines := b.lines.map f } : Records).fixtures = b.fixtures :=
  Records.fixtures_eq rfl rfl rfl (fun _ => rfl) fun l => by
    simpa [Records.line] using hf b.lines[l.val]

@[simp] theorem Records.setRoom_fixtures (r : RoomNo) (x : Room) : (b.setRoom r x).fixtures = b.fixtures := rfl

@[simp] theorem Records.setQueue_fixtures (k : KitchenNo) (x : TicketQueue) :
    (b.setQueue k x).fixtures = b.fixtures := rfl

@[simp] theorem Records.setBody_fixtures (sl : SlotNo) (x : SlotBody) : (b.setBody sl x).fixtures = b.fixtures := rfl

@[simp] theorem Records.returnSlot_fixtures (sl : SlotNo) : (b.returnSlot sl).fixtures = b.fixtures := rfl

@[simp] theorem Records.raise_fixtures (x : RaisedNotice) : (b.raise x).fixtures = b.fixtures :=
  Records.fixtures_eq rfl rfl (by simp) (fun _ => rfl) fun _ => rfl

@[simp] theorem Records.raiseRoom?_fixtures (r : RoomNo) (n : Option RoomNotice) :
    (b.raiseRoom? r n).fixtures = b.fixtures := by
  unfold Records.raiseRoom?
  split
  · exact b.raise_fixtures _
  · rfl

@[simp] theorem Records.markRooms_fixtures (rs : List RoomNo) : (b.markRooms rs).fixtures = b.fixtures :=
  b.mapLines_fixtures fun l => l.mapNodes_fixture fun x => by split <;> exact ⟨rfl, rfl⟩

@[simp] theorem Records.markShowing_fixtures (r : RoomNo) : (b.markShowing r).fixtures = b.fixtures :=
  b.markRooms_fixtures _

@[simp] theorem Records.markAllPanels_fixtures : b.markAllPanels.fixtures = b.fixtures :=
  b.mapLines_fixtures Line.markPanels_fixture

/-! ## Rooms and bookings -/

@[simp] theorem Records.clearTurnarounds_fixtures (now : Nat) (rs : List RoomNo) :
    (b.clearTurnarounds now rs).fixtures = b.fixtures := by rw [b.clearTurnarounds_eq]; rfl

@[simp] theorem Records.clearTurnaround_fixtures (now : Nat) (r : RoomNo) :
    (b.clearTurnaround now r).fixtures = b.fixtures := b.clearTurnarounds_fixtures now [r]

@[simp] theorem Records.readTurnarounds_fixtures (now : Nat) (r : RoomNo) :
    (b.readTurnarounds now r).fixtures = b.fixtures := b.clearTurnarounds_fixtures now _

@[simp] theorem Records.link_fixtures (r : RoomNo) (sl : SlotNo) (start : Nat) :
    (b.link r sl start).fixtures = b.fixtures := by simp [Records.link]

@[simp] theorem Records.unlink_fixtures (r : RoomNo) (sl : SlotNo) : (b.unlink r sl).fixtures = b.fixtures := by
  simp [Records.unlink]

@[simp] theorem Records.promotionTrigger_fixtures (c : Clock) (k : KitchenNo) :
    (b.promotionTrigger c k).fixtures = b.fixtures := by
  unfold Records.promotionTrigger
  split
  · exact b.setKitchen_fixtures (Kitchen.promote_fixture _)
  · rfl

@[simp] theorem Records.releaseShares_fixtures (c : Clock) (o : Order) : (b.releaseShares c o).fixtures = b.fixtures :=
  b.setKitchen_fixtures (Kitchen.subShares_fixture _ _ _)

@[simp] theorem Records.leaveWaitlist_fixtures (k : KitchenNo) (sl : SlotNo) :
    (b.leaveWaitlist k sl).fixtures = b.fixtures := b.setKitchen_fixtures rfl

@[simp] theorem Records.leaveQueue_fixtures (k : KitchenNo) (sl : SlotNo) :
    (b.leaveQueue k sl).fixtures = b.fixtures := rfl

@[simp] theorem Records.joinVoid_fixtures (k : KitchenNo) (sl : SlotNo) : (b.joinVoid k sl).fixtures = b.fixtures := by
  unfold Records.joinVoid
  dsimp only
  split
  · rfl
  · split <;> rfl

@[simp] theorem Records.settleOrder_fixtures (c : Clock) (sl : SlotNo) :
    (b.settleOrder c sl).1.fixtures = b.fixtures := by
  unfold Records.settleOrder
  split
  · rfl
  · split
    · simp
    · simp
    · split <;> simp [Records.makeVoiding]
    all_goals simp [Records.makeVoiding]

@[simp] theorem Records.settleAll_fixtures (c : Clock) (l : List SlotNo) :
    (b.settleAll c l).1.fixtures = b.fixtures := by
  induction l generalizing b with
  | nil => rfl
  | cons sl rest ih => rw [b.settleAll_cons, ih, b.settleOrder_fixtures]

@[simp] theorem Records.retire_fixtures (c : Clock) (sl : SlotNo) (k : Booking) (why : Reason) :
    (b.retire c sl k why).1.fixtures = b.fixtures := by simp [Records.retire]

@[simp] theorem Records.updateBooking_fixtures (c : Clock) (sl : SlotNo) :
    (b.updateBooking c sl).fixtures = b.fixtures := by
  unfold Records.updateBooking
  split
  · rfl
  · split
    · simp
    · split <;> simp

@[simp] theorem Records.bringUp_fixtures (c : Clock) (r : RoomNo) : (b.bringUp c r).fixtures = b.fixtures :=
  (Records.foldl_fixtures (fun b sl => b.updateBooking_fixtures c sl) _ _).trans (b.clearTurnaround_fixtures _ r)

@[simp] theorem Records.bringUpSet_fixtures (c : Clock) (r : RoomNo) : (b.bringUpSet c r).fixtures = b.fixtures :=
  Records.foldl_fixtures (fun b r => b.bringUp_fixtures c r) _ b

theorem Records.nameBooking_fixtures {b b' : Records} {c : Clock} {h : Handle} {x : Except Status (SlotNo × Booking)}
    (hn : b.nameBooking c h = (b', x)) : b'.fixtures = b.fixtures := by
  unfold Records.nameBooking at hn
  split at hn
  · cases hn; rfl
  · split at hn
    · cases hn; rfl
    · split at hn
      · cases hn; rfl
      · dsimp only at hn
        split at hn
        · split at hn <;> cases hn <;> exact b.bringUpSet_fixtures c _
        · cases hn; exact b.bringUpSet_fixtures c _

theorem Records.nameOrder_fixtures {b b' : Records} {c : Clock} {h : Handle} {closes : Bool}
    {x : Except Status (SlotNo × Order)} (hn : b.nameOrder c h closes = (b', x)) : b'.fixtures = b.fixtures := by
  unfold Records.nameOrder at hn
  split at hn
  · cases hn; rfl
  · split at hn
    · cases hn; rfl
    · split at hn
      · cases hn; rfl
      · dsimp only at hn
        split at hn <;> cases hn <;> exact b.bringUp_fixtures c _

@[simp] theorem Records.lowAfterAllocation_fixtures : b.lowAfterAllocation.fixtures = b.fixtures := by
  unfold Records.lowAfterAllocation
  split
  · exact (Records.raise_fixtures _ _).trans (b.mk_fixtures rfl rfl _ _)
  · rfl

theorem Records.allocate_fixtures {b b' : Records} {privileged : Bool} {body : SlotBody} {sl : SlotNo}
    (h : b.allocate privileged body = .ok (sl, b')) : b'.fixtures = b.fixtures := by
  obtain ⟨-, -, rest, -, -, rfl⟩ := Records.allocate_inv h
  exact (Records.lowAfterAllocation_fixtures _).trans (b.mk_fixtures rfl rfl _ _)

theorem Records.addBooking_fixtures {b b' : Records} {privileged : Bool} {k : Booking} {sl : SlotNo}
    (h : b.addBooking privileged k = .ok (sl, b')) : b'.fixtures = b.fixtures := by
  unfold Records.addBooking at h
  split at h
  · cases h
  · rename_i hall
    cases h
    exact (Records.link_fixtures _ _ _ _).trans (Records.allocate_fixtures hall)

@[simp] theorem Records.confirm_fixtures (c : Clock) (sl : SlotNo) (k : Booking) :
    (b.confirm c sl k).fixtures = b.fixtures := by
  simp [Records.confirm]

@[simp] theorem Records.applyAmend_fixtures (c : Clock) (sl : SlotNo) (k k' : Booking) :
    (b.applyAmend c sl k k').fixtures = b.fixtures := by
  have hmoved : (((b.unlink k.room sl).setBody sl (.booking k')).link k.room sl k'.start).fixtures = b.fixtures := by
    simp
  unfold Records.applyAmend
  extract_lets b1 b2
  have hb1 : b1.fixtures = b.fixtures := by
    simp only [b1]
    split
    · exact hmoved
    · exact b.setBody_fixtures _ _
  have hb2 : b2.fixtures = b.fixtures := by
    simp only [b2]
    split
    · exact hb1
    · exact (b1.markShowing_fixtures _).trans hb1
  split
  · exact (b2.updateBooking_fixtures c sl).trans hb2
  · exact hb2

@[simp] theorem Records.checkInAt_fixtures (now : Nat) (x : Seen) : (b.checkInAt now x).fixtures = b.fixtures := by
  simp [Records.checkInAt]

@[simp] theorem Records.motionCheckIn_fixtures (now : Nat) (r : RoomNo) :
    (b.motionCheckIn now r).fixtures = b.fixtures := by
  unfold Records.motionCheckIn
  split
  · split <;> simp
  · rfl

@[simp] theorem Records.panelCheckIn_fixtures (c : Clock) (r : RoomNo) :
    (b.panelCheckIn c r).1.fixtures = b.fixtures := by
  unfold Records.panelCheckIn
  split <;> split <;> simp

@[simp] theorem Records.extendBooking_fixtures (c : Clock) (q : RoomNo) (sl : SlotNo) (k : Booking) :
    (b.extendBooking c q sl k).1.fixtures = b.fixtures := by
  unfold Records.extendBooking
  split
  · split
    · rfl
    · split <;> simp
  · rfl

@[simp] theorem Records.panelExtend_fixtures (c : Clock) (r : RoomNo) :
    (b.panelExtend c r).1.fixtures = b.fixtures := by
  have hrest : ∀ l, (b.bringUpAll c l).fixtures = b.fixtures := fun l =>
    Records.foldl_fixtures (fun b r => b.bringUp_fixtures c r) l b
  unfold Records.panelExtend
  split
  · rfl
  · split
    · rfl
    · dsimp only
      split
      · split <;> simp [hrest]
      · simp [hrest]

@[simp] theorem Records.panelRelease_fixtures (c : Clock) (r : RoomNo) :
    (b.panelRelease c r).1.fixtures = b.fixtures := by
  unfold Records.panelRelease
  split
  · rfl
  · split <;> simp

@[simp] theorem Records.panelWalkUp_fixtures (c : Clock) (r : RoomNo) :
    (b.panelWalkUp c r).1.fixtures = b.fixtures := by
  unfold Records.panelWalkUp
  split
  · rfl
  · dsimp only
    split
    · rfl
    · split
      · simp
      · split
        · simp
        · rename_i hadd
          simp [Records.addBooking_fixtures hadd]

theorem Records.panelRequest_fixtures {act : Records → Records × PanelResult}
    (hact : ∀ b : Records, (act b).1.fixtures = b.fixtures) (c : Clock) (r : RoomNo) :
    (b.panelRequest c r act).1.fixtures = b.fixtures := by
  unfold Records.panelRequest
  split
  · split
    · rfl
    · split <;> simp [hact]
  · rfl

@[simp] theorem Records.closeStep_fixtures (c : Clock) (r : RoomNo) : (b.closeStep c r).fixtures = b.fixtures := by
  unfold Records.closeStep Records.closeDone
  dsimp only
  split
  · simp
  · split <;> simp

@[simp] theorem Records.setService_fixtures (r : RoomNo) (st : Service) :
    (b.setService r st).fixtures = b.fixtures := by
  unfold Records.setService
  split <;> simp

@[simp] theorem Records.judgeRoom_fixtures (now : Nat) (x : Scan) (r : RoomNo) :
    (b.judgeRoom now x r).1.fixtures = b.fixtures := by
  unfold Records.judgeRoom
  split <;> simp

/-! ## Kitchens -/

@[simp] theorem Records.dispatchAll_fixtures (c : Clock) (l : List (SlotNo × Order)) :
    (b.dispatchAll c l).1.fixtures = b.fixtures := by
  induction l generalizing b with
  | nil => rfl
  | cons x rest ih => exact (ih (b.dispatchOne c x)).trans (by simp [Records.dispatchOne, Records.joinTicket])

@[simp] theorem Records.dispatch_fixtures (c : Clock) (k : KitchenNo) : (b.dispatch c k).fixtures = b.fixtures := by
  have h := b.dispatchAll_fixtures c (b.dispatchable k c.w0)
  unfold Records.dispatch
  split <;> rename_i e <;> rw [e] at h
  · simpa using h
  · exact h

@[simp] theorem Records.lapse_fixtures (sl : SlotNo) (o : Order) : (b.lapse sl o).fixtures = b.fixtures := by
  simp [Records.lapse]

@[simp] theorem Records.lapseAll_fixtures (w0 : Nat) (l : List SlotNo) :
    (b.lapseAll w0 l).fixtures = b.fixtures := by
  refine Records.foldl_fixtures (fun b sl => ?_) l b
  split
  · split <;> simp
  · rfl

@[simp] theorem Records.roll_fixtures (c : Clock) (k : KitchenNo) (o n : Nat) :
    (b.roll c k o n).fixtures = b.fixtures := by
  have hrolled : (b.setKitchen k ((b.kitchen k).rolled c.w0)).fixtures = b.fixtures := b.setKitchen_fixtures rfl
  unfold Records.roll
  split
  · rfl
  · dsimp only
    split <;> simp [hrolled]

@[simp] theorem Records.joinWaitlist_fixtures (sl : SlotNo) (o : Order) (why : WaitReason) :
    (b.joinWaitlist sl o why).fixtures = b.fixtures :=
  (Records.setKitchen_fixtures _ (Kitchen.waited_fixture _ _)).trans (b.setBody_fixtures _ _)

@[simp] theorem Records.setPass_fixtures (k : KitchenNo) (p : PassState) : (b.setPass k p).fixtures = b.fixtures :=
  b.setKitchen_fixtures rfl

@[simp] theorem Records.shed_fixtures (c : Clock) (x : SlotNo × Order) : (b.shed c x).fixtures = b.fixtures := by
  simp [Records.shed]

@[simp] theorem Records.shedWindow_fixtures (c : Clock) (k : KitchenNo) (w : Nat) :
    (b.shedWindow c k w).fixtures = b.fixtures := by
  have hread : (b.setKitchen k { ((b.kitchen k).touch w) with pass := .shedding w }).fixtures = b.fixtures :=
    b.setKitchen_fixtures rfl
  unfold Records.shedWindow
  dsimp only
  split
  · simp [hread]
  · split <;> simp [hread]

@[simp] theorem Records.sheddingStep_fixtures (c : Clock) (k : KitchenNo) (cursor : Nat) :
    (b.sheddingStep c k cursor).fixtures = b.fixtures := by
  have hmark : (b.setKitchen k { (b.kitchen k) with restart := false }).fixtures = b.fixtures :=
    b.setKitchen_fixtures rfl
  unfold Records.sheddingStep
  extract_lets kit from0 w b1
  split
  · exact (b1.setKitchen_fixtures (k := k) (x := (b1.kitchen k).newWalk) rfl).trans hmark
  · exact (b1.shedWindow_fixtures c k w).trans hmark

@[simp] theorem Records.admitOrder_fixtures (sl : SlotNo) (o : Order) (x : Load) :
    (b.admitOrder sl o x).fixtures = b.fixtures :=
  (Records.setBody_fixtures _ _ _).trans (b.setKitchen_fixtures (Kitchen.admitted_fixture _ _))

@[simp] theorem Records.readTested_fixtures (k : KitchenNo) (l : List (Nat × Nat)) :
    (b.setKitchen k ((b.kitchen k).touchTested l)).fixtures = b.fixtures :=
  b.setKitchen_fixtures (Kitchen.touchTested_fixture _ _)

@[simp] theorem Records.examine_fixtures (c : Clock) (menu : Vector MenuClass 16) (sl : SlotNo) (o : Order) :
    (b.examine c menu sl o).fixtures = b.fixtures := by
  unfold Records.examine
  split
  · simp
  · dsimp only
    split <;> simp [Records.promote]

@[simp] theorem Records.promotingStep_fixtures (c : Clock) (menu : Vector MenuClass 16) (k : KitchenNo)
    (cursor : Option WaitPlace) : (b.promotingStep c menu k cursor).fixtures = b.fixtures := by
  unfold Records.promotingStep
  dsimp only
  split
  · exact b.setKitchen_fixtures rfl
  · split
    · exact b.setKitchen_fixtures (Kitchen.walkEnded_fixture _)
    · simp

/-! ## Orders and tickets -/

@[simp] theorem Records.admitOrWait_fixtures (sl : SlotNo) (o : Order) (x : Load) :
    (b.admitOrWait sl o x).fixtures = b.fixtures := by
  have hagain : (b.setKitchen o.kitchen { (b.kitchen o.kitchen) with again := true }).fixtures = b.fixtures :=
    b.setKitchen_fixtures rfl
  unfold Records.admitOrWait
  dsimp only
  split
  · split <;> simp
  · simp [hagain]

theorem Records.createOrder_fixtures {b b' : Records} {owner sl : SlotNo} {k : Booking} {o : Order} {x : Load}
    (h : b.createOrder owner k o x = .ok (sl, b')) : b'.fixtures = b.fixtures := by
  unfold Records.createOrder at h
  split at h
  · cases h
  · rename_i hall
    cases h
    simp [Records.allocate_fixtures hall]

theorem Records.amendOrderTo_fixtures {b b' : Records} {c : Clock} {sl : SlotNo} {o o' : Order} {x : Load}
    (h : b.amendOrderTo c sl o o' x = some b') : b'.fixtures = b.fixtures := by
  have hload : (b.setKitchen o.kitchen
      (((b.kitchen o.kitchen).subShares c.w0 o.shares).addShares x.shares)).fixtures = b.fixtures :=
    b.setKitchen_fixtures (by simp)
  unfold Records.amendOrderTo Records.replaceLoad at h
  dsimp only at h
  split at h
  · cases h; simp
  · split at h <;> cases h
    split <;> simp [hload]

@[simp] theorem Records.leaveAnnex_fixtures (sl : SlotNo) (o : Order) : (b.leaveAnnex sl o).fixtures = b.fixtures := by
  unfold Records.leaveAnnex
  split <;> simp

@[simp] theorem Records.setInFlight_fixtures (k : KitchenNo) (f : Option (Handle × Bool)) :
    (b.setInFlight k f).fixtures = b.fixtures := rfl

@[simp] theorem Records.settleAnswer_fixtures (k : KitchenNo) : (b.settleAnswer k).fixtures = b.fixtures := by
  unfold Records.settleAnswer
  dsimp only
  split
  · simp
  · split <;> simp
  · split
    · simp
    · split <;> simp

@[simp] theorem Records.settleLoss_fixtures (k : KitchenNo) : (b.settleLoss k).fixtures = b.fixtures := by
  unfold Records.settleLoss
  dsimp only
  split
  · simp
  · simp
  · split <;> simp

@[simp] theorem Records.takeReport_fixtures (k : KitchenNo) (x : Report) :
    (b.takeReport k x).fixtures = b.fixtures := by
  unfold Records.takeReport
  split
  · rfl
  · split
    · rfl
    · split
      · split
        · rfl
        · dsimp only
          split <;> simp
      · rfl

@[simp] theorem Records.terminalAnswered_fixtures (k : KitchenNo) (payload : List Byte) :
    (b.terminalAnswered k payload).fixtures = b.fixtures :=
  (Records.foldl_fixtures (fun b x => b.takeReport_fixtures k x) _ _).trans (b.settleAnswer_fixtures k)

@[simp] theorem Records.clearOrder_fixtures (c : Clock) (sl : SlotNo) : (b.clearOrder c sl).fixtures = b.fixtures := by
  unfold Records.clearOrder
  split <;> simp

@[simp] theorem Records.clearSlot_fixtures (c : Clock) (sl : SlotNo) : (b.clearSlot c sl).1.fixtures = b.fixtures := by
  unfold Records.clearSlot Records.clearBooking
  split
  · rfl
  · simp [Records.foldl_fixtures fun (b : Records) o => b.clearOrder_fixtures c o]
  · split <;> simp

/-! ## Lines -/

@[simp] theorem Records.raiseBack_fixtures (x : Node) : (b.raiseBack x).fixtures = b.fixtures := by
  unfold Records.raiseBack
  split
  · split <;> simp
  · rfl

@[simp] theorem Records.raiseSilent_fixtures (x : Node) : (b.raiseSilent x).fixtures = b.fixtures := by
  unfold Records.raiseSilent
  split
  · split <;> simp
  · rfl

@[simp] theorem Records.settleFrame_fixtures (l : LineNo) (v : Visit) : (b.settleFrame l v).fixtures = b.fixtures := by
  unfold Records.settleFrame
  dsimp only
  split
  · rfl
  · split
    · exact b.setLine_fixtures (Line.setNode_fixture _ rfl rfl)
    · rfl
  · simp

theorem Records.startVisit_fixtures (c : Clock) {l : LineNo} {ln : Line} (hln : ln.fixture = (b.line l).fixture)
    (n : NodeNo) : (b.startVisit c l ln n).fixtures = b.fixtures := by
  have hvisit : ∀ frame payload, (ln.beginVisit n frame payload).fixture = (b.line l).fixture := fun _ _ => hln
  unfold Records.startVisit
  split
  · rfl
  · split
    · unfold Records.startPage
      refine (Records.setLine_fixtures _ ?_).trans (b.clearTurnarounds_fixtures _ _)
      rw [Line.beginVisit_fixture, ln.setNode_fixture (by rfl) (by rfl), b.clearTurnarounds_eq]
      exact hln
    · exact b.setLine_fixtures (hvisit _ _)
  · exact (Records.setLine_fixtures _ (hvisit _ _)).trans rfl

/-! ## The pool and the clock -/

@[simp] theorem Records.clockEnd_fixtures (v : Nat) : (b.clockEnd v).fixtures = b.fixtures := by
  unfold Records.clockEnd
  split
  · simp
  · rfl

@[simp] theorem Records.beginClear_fixtures : b.beginClear.fixtures = b.fixtures :=
  (Records.markAllPanels_fixtures _).trans (Records.fixtures_eq rfl rfl rfl
    (fun k => by simp [Records.kitchen]) fun _ => rfl)

@[simp] theorem Records.completeClear_fixtures : b.completeClear.fixtures = b.fixtures :=
  (Records.markAllPanels_fixtures _).trans (Records.fixtures_eq rfl rfl rfl
    (fun k => by simp [Records.kitchen]) fun _ => rfl)


end Tables

end Sys2Proof.Machine

/-! The commands that change a fixture, each with what it makes of the records; every other command leaves the menu class
table and the fixtures as they were. -/

namespace Sys2Proof.Machine

open Sys2Proof

/-! ## The commands that change a fixture -/

/-- The records that a command other than HARD_RESET which may change a fixture can leave. The events of a line and of a
terminal, and RESTART_LINE, are listed for any command, since they change nothing that is configured. -/
inductive State.Stirs (s : State) : Instr → Records → Prop
  | reserve {tag : Byte} {v floor : Nat} :
    s.Stirs (.setReserve tag v) ({ s.recs with pool := { s.recs.pool with floor := floor } } : Records).judgeFloor
  | horizon {tag : Byte} {days : Nat} :
    s.Stirs (.setHorizon tag days) { s.recs with pool := { s.recs.pool with horizon := days } }
  | masks {tag : Byte} {m : Vector Byte 18} {n : Notices} : s.Stirs (.setNoticeMask tag m) { s.recs with notices := n }
  | banks {tag : Byte} {n : Nat} {k : KitchenNo} {banks : Vector Nat 8} (h : ∀ c ∈ banks.toList, c ≤ 4095) :
    s.Stirs (.writeBanks tag n banks) (s.recs.changeKitchen s.clk k { (s.recs.kitchen k) with banks := banks })
  | hours {tag : Byte} {n o c v : Nat} {k : KitchenNo} {f : Fin 8} (h : hoursOk o c = true) :
    s.Stirs (.writeKitchen tag n o c v)
      (s.recs.reformLevel s.clk k { (s.recs.kitchen k) with opens := o, closes := c, fallback := f })
  | staffing {tag : Byte} {n : Nat} {v : Option Nat} {k : KitchenNo} {level : Option (Fin 8)} :
    s.Stirs (.setStaffing tag n v) (s.recs.reformLevel s.clk k { (s.recs.kitchen k) with override := level })
  | answered {i : Instr} {l : LineNo} {v : Visit} {payload : List Byte} (h : (s.recs.line l).visit = some v) :
    s.Stirs i (s.recs.goodAnswer s.clk l v payload)
  | lost {i : Instr} {l : LineNo} {v : Visit} : s.Stirs i (s.recs.loss s.clk l v)
  | reported {i : Instr} {k : KitchenNo} {level : Fin 8} (h : s.recs.terminalOnline k = true) :
    s.Stirs i (s.recs.terminalReported s.clk k level)
  | unheard {i : Instr} {k : KitchenNo} : s.Stirs i (s.recs.terminalLost s.clk k)
  | restarted {i : Instr} {l : LineNo} :
    s.Stirs i ((s.recs.clearLine s.clk l).setLine l ((s.recs.clearLine s.clk l).line l).sweepAnew)
  | entered {tag : Byte} {n st tm rf timeout refresh : Nat} {l : LineNo} {run : Bool} :
    s.Stirs (.setLine tag n st tm rf)
      ((s.setLine l ((s.recs.line l).configuredWith timeout refresh)).enterLine l run).recs
  | wired {tag : Byte} {line node kind target : Nat} {l : LineNo} {n : NodeNo} {k : NodeKind}
    (h : s.recs.judgeNode l n kind target = .ok k) :
    s.Stirs (.writeNode tag line node kind target) (s.recs.writeNode s.clk l n k)

/-- Command `i` leaves the menu class table, and leaves the fixtures or is one of those that change one. -/
def State.Steps (s : State) (i : Instr) (t : State) : Prop :=
  t.menu = s.menu ∧ (t.recs.fixtures = s.recs.fixtures ∨ s.Stirs i t.recs)

theorem State.RecsOnly.menu {s t : State} (h : s.RecsOnly t) : t.menu = s.menu := by rw [h]; rfl

/-! ## Server commands -/

/-- A server command changes menu and records as its owner does, or not at all. -/
theorem State.serve_steps {s t : State} {cmd : Instr} {act : State → State × Answer}
    (hact : s.Steps cmd (act s).1) (h : s.serve cmd act = .next t) : s.Steps cmd t := by
  rcases State.serve_cases h with rfl | ⟨-, ⟨_, _, _, _, rfl⟩ | ⟨-, rfl⟩⟩
  · exact ⟨rfl, .inl rfl⟩
  · exact hact
  · exact hact

theorem State.serve_quiet {s t : State} {cmd : Instr} {act : State → State × Answer} (honly : s.RecsOnly (act s).1)
    (hact : (act s).1.recs.fixtures = s.recs.fixtures) (h : s.serve cmd act = .next t) : s.Steps cmd t :=
  State.serve_steps ⟨honly.menu, .inl hact⟩ h

/-- A server command whose owner only reads. -/
theorem State.serve_self {s t : State} {cmd : Instr} {act : State → State × Answer} (hact : (act s).1 = s)
    (h : s.serve cmd act = .next t) : s.Steps cmd t :=
  State.serve_steps (act := act) (by rw [hact]; exact ⟨rfl, .inl rfl⟩) h

theorem State.gated_fixtures {s : State} {k : State × Answer} (h : k.1.recs.fixtures = s.recs.fixtures) :
    (s.gated k).1.recs.fixtures = s.recs.fixtures := by
  unfold State.gated
  split
  · split
    · rfl
    · exact h
  · rfl

@[simp] theorem Records.withAttrs_fixtures (b : Records) (r : RoomNo) (x : RoomAttrs) :
    (b.withAttrs r x).fixtures = b.fixtures := by rw [b.withAttrs_eq]; rfl

theorem Records.writeRoom_fixtures (b : Records) (r : RoomNo) (x : RoomAttrs) :
    (b.writeRoom r x).fixtures = b.fixtures := by simp [Records.writeRoom]

theorem Records.removeRoom_fixtures (b : Records) (r : RoomNo) : (b.removeRoom r).fixtures = b.fixtures := by
  simp [Records.removeRoom]

section Acts

variable (s : State)

theorem State.setClock_steps (i : Instr) (v : Nat) : s.Steps i (s.setClock v).1 := by
  have hself : s.Steps i s := ⟨rfl, .inl rfl⟩
  unfold State.setClock
  dsimp only
  split
  · exact hself
  · split
    · exact ⟨rfl, .inl (by simp [State.startClock])⟩
    · split
      · exact hself
      · split
        · exact hself
        · exact ⟨rfl, .inl (by simp [State.jumpTo, State.advanceTo])⟩
    · split <;> exact hself

theorem State.setReserve_steps (tag : Byte) (v : Nat) : s.Steps (.setReserve tag v) (s.setReserve v).1 := by
  unfold State.setReserve
  split
  · exact ⟨rfl, .inl rfl⟩
  · exact ⟨rfl, .inr .reserve⟩

theorem State.setHorizon_steps (tag : Byte) (days : Nat) : s.Steps (.setHorizon tag days) (s.setHorizon days).1 := by
  unfold State.setHorizon
  split
  · exact ⟨rfl, .inr .horizon⟩
  · exact ⟨rfl, .inl rfl⟩

theorem State.setNoticeMask_steps (tag : Byte) (m : Vector Byte 18) :
    s.Steps (.setNoticeMask tag m) (s.setNoticeMask m).1 := by
  unfold State.setNoticeMask
  split
  · exact ⟨rfl, .inr .masks⟩
  · exact ⟨rfl, .inl rfl⟩

theorem State.clearAll_steps (i : Instr) : s.Steps i s.clearAll.1 := by
  unfold State.clearAll
  split
  · exact ⟨rfl, .inl (by simp)⟩
  · exact ⟨rfl, .inl rfl⟩

theorem State.findRooms_steps (i : Instr) (a : FindArgs) : s.Steps i (s.findRooms a).1 := by
  unfold State.findRooms State.gated
  split
  · split
    · exact ⟨rfl, .inl rfl⟩
    · split <;> exact ⟨rfl, .inl rfl⟩
  · exact ⟨rfl, .inl rfl⟩

theorem State.writeRoom_fixtures (a : WriteRoomArgs) : (s.writeRoom a).1.recs.fixtures = s.recs.fixtures := by
  rcases s.writeRoom_recs a with e | ⟨r, x, -, e⟩ <;> rw [e]
  exact s.recs.writeRoom_fixtures r x

theorem State.writeRoomRemove_fixtures (n : Nat) : (s.writeRoomRemove n).1.recs.fixtures = s.recs.fixtures := by
  rcases s.writeRoomRemove_recs n with e | ⟨r, e⟩ <;> rw [e]
  exact s.recs.removeRoom_fixtures r

theorem State.readRoom_fixtures (room : Nat) : (s.readRoom room).1.recs.fixtures = s.recs.fixtures := by
  unfold State.readRoom
  split
  · rfl
  · simp

theorem State.setRoomService_fixtures (inService : Bool) (room : Nat) :
    (s.setRoomService inService room).1.recs.fixtures = s.recs.fixtures := by
  unfold State.setRoomService
  split
  · rfl
  · simp

theorem State.closeAndCancel_fixtures (room : Nat) : (s.closeAndCancel room).1.recs.fixtures = s.recs.fixtures := by
  unfold State.closeAndCancel
  split
  · rfl
  · split
    · rfl
    · simp

theorem State.makeBooking_fixtures (k : Booking) : (s.makeBooking k).1.recs.fixtures = s.recs.fixtures := by
  unfold State.makeBooking
  dsimp only
  split
  · simp
  · split
    · simp [refuse]
    · rename_i hadd
      simp [Records.addBooking_fixtures hadd]

theorem State.bookOrHold_fixtures (a : BookArgs) (holdTime : Option Nat) :
    (s.bookOrHold a holdTime).1.recs.fixtures = s.recs.fixtures := by
  refine State.gated_fixtures ?_
  split
  · rfl
  · exact s.makeBooking_fixtures _

theorem State.confirm_fixtures (h : Handle) (cls : Option Nat) :
    (s.confirm h cls).1.recs.fixtures = s.recs.fixtures := by
  refine State.gated_fixtures ?_
  split <;> rename_i hn <;> have hname := Records.nameBooking_fixtures hn
  · exact hname
  · split
    · exact hname
    · simpa using hname

theorem State.amendTo_fixtures (b : Records) (sl : SlotNo) (k k' : Booking) :
    (s.amendTo b sl k k').1.recs.fixtures = b.fixtures := by
  unfold State.amendTo
  dsimp only
  split
  · split <;> simp
  · split <;> simp

theorem State.amend_fixtures (a : AmendArgs) : (s.amend a).1.recs.fixtures = s.recs.fixtures := by
  refine State.gated_fixtures ?_
  split <;> rename_i hn <;> have hname := Records.nameBooking_fixtures hn
  · exact hname
  · split
    · exact hname
    · exact (s.amendTo_fixtures ..).trans hname

theorem State.cancel_fixtures (h : Handle) : (s.cancel h).1.recs.fixtures = s.recs.fixtures := by
  refine State.gated_fixtures ?_
  split <;> rename_i hn <;> have hname := Records.nameBooking_fixtures hn
  · exact hname
  · simpa using hname

theorem State.readWindow_fixtures (kitchen window : Nat) :
    (s.readWindow kitchen window).1.recs.fixtures = s.recs.fixtures := by
  unfold State.readWindow
  split
  · rfl
  · split
    · exact s.recs.setKitchen_fixtures rfl
    · rfl

theorem State.order_fixtures (h : Handle) (menuClass heads delivery : Nat) :
    (s.order h menuClass heads delivery).1.recs.fixtures = s.recs.fixtures := by
  refine State.gated_fixtures ?_
  split <;> rename_i hn <;> have hname := Records.nameBooking_fixtures hn
  · exact hname
  · split
    · exact hname
    · split
      · exact hname
      · rename_i hcreate
        exact (Records.createOrder_fixtures hcreate).trans hname

theorem State.amendOrder_fixtures (a : AmendOrderArgs) : (s.amendOrder a).1.recs.fixtures = s.recs.fixtures := by
  refine State.gated_fixtures ?_
  split <;> rename_i hn <;> have hname := Records.nameOrder_fixtures hn
  · exact hname
  · split
    · exact hname
    · split
      · exact hname
      · split
        · exact hname
        · rename_i hto
          exact (Records.amendOrderTo_fixtures hto).trans hname

theorem State.cancelOrder_fixtures (h : Handle) : (s.cancelOrder h).1.recs.fixtures = s.recs.fixtures := by
  refine State.gated_fixtures ?_
  split <;> rename_i hn <;> have hname := Records.nameOrder_fixtures hn
  · exact hname
  · simpa using hname

theorem Notices.empty_masks (n : Notices) (t : NoticeTarget) : (n.empty t).masks = n.masks := by cases t <;> rfl

theorem State.readNotices_fixtures (indicator number : Nat) :
    (s.readNotices indicator number).1.recs.fixtures = s.recs.fixtures := by
  unfold State.readNotices
  split
  · rfl
  · exact Records.fixtures_eq rfl rfl (Notices.empty_masks _ _) (fun _ => rfl) fun _ => rfl

/-! ## Kitchens, lines and nodes configured -/

theorem State.writeBanks_steps (tag : Byte) (n : Nat) (banks : Vector Nat 8) :
    s.Steps (.writeBanks tag n banks) (s.writeBanks n banks).1 := by
  unfold State.writeBanks
  split
  · exact ⟨rfl, .inl rfl⟩
  · split
    · rename_i h
      exact ⟨rfl, .inr (.banks (by simpa only [List.all_eq_true, decide_eq_true_eq] using h))⟩
    · exact ⟨rfl, .inl rfl⟩

theorem State.writeKitchen_steps (tag : Byte) (n o c f : Nat) :
    s.Steps (.writeKitchen tag n o c f) (s.writeKitchen n o c f).1 := by
  unfold State.writeKitchen
  split
  · exact ⟨rfl, .inl rfl⟩
  · split
    · exact ⟨rfl, .inl rfl⟩
    · split
      · rename_i h
        exact ⟨rfl, .inr (.hours h)⟩
      · exact ⟨rfl, .inl rfl⟩

theorem State.setStaffing_steps (tag : Byte) (n : Nat) (v : Option Nat) :
    s.Steps (.setStaffing tag n v) (s.setStaffing n v).1 := by
  unfold State.setStaffing
  split
  · exact ⟨rfl, .inl rfl⟩
  · split
    · exact ⟨rfl, .inl rfl⟩
    · exact ⟨rfl, .inr .staffing⟩

theorem State.setLineTo_steps (tag : Byte) (n st tm rf : Nat) :
    s.Steps (.setLine tag n st tm rf) (s.setLineTo n st tm rf).1 := by
  refine ⟨(State.setLineTo_recsOnly ..).menu, ?_⟩
  unfold State.setLineTo
  split
  · exact .inl rfl
  · split
    · exact .inr .entered
    · exact .inl rfl

theorem State.restartLine_steps (tag : Byte) (n : Nat) : s.Steps (.restartLine tag n) (s.restartLine n).1 := by
  refine ⟨(State.restartLine_recsOnly ..).menu, ?_⟩
  unfold State.restartLine
  split
  · exact .inl rfl
  · exact .inr .restarted

theorem State.writeNode_steps (tag : Byte) (line node kind target : Nat) :
    s.Steps (.writeNode tag line node kind target) (s.writeNode line node kind target).1 := by
  refine ⟨(State.writeNode_recsOnly ..).menu, ?_⟩
  unfold State.writeNode
  split
  · exact .inl rfl
  · split
    · exact .inl rfl
    · rename_i h
      exact .inr (.wired h)

/-! ## The part's own steps -/

theorem State.commandWrite_menu (bytes : List Byte) : (s.commandWrite bytes).menu = s.menu := by
  unfold State.commandWrite State.judgeWrite
  split
  · split <;> rfl
  · rfl
  · rfl

theorem State.readOut_menu (a : ReadOutArgs) : (s.readOut a).menu = s.menu := by
  unfold State.readOut
  split
  · rfl
  · dsimp only
    split <;> rfl

theorem State.transact_steps (i : Instr) (bytes : List Byte) : s.Steps i (s.transact bytes) := by
  refine ⟨?_, .inl (by rw [s.transact_recs])⟩
  unfold State.transact
  split
  · rfl
  · split
    · exact s.commandWrite_menu _
    · split
      · exact s.readOut_menu _
      · rfl

theorem State.lineFrame_steps (i : Instr) (l : LineNo) (frame : List Byte) : s.Steps i (s.lineFrame l frame) := by
  unfold State.lineFrame
  split
  · exact ⟨rfl, .inl rfl⟩
  · rename_i hv
    dsimp only
    split
    · exact ⟨rfl, .inr (.answered hv)⟩
    · exact ⟨rfl, .inr .lost⟩

theorem State.takeMotion_quiet (x : PanelHandoff) :
    (s.takeMotion x).menu = s.menu ∧ (s.takeMotion x).recs.fixtures = s.recs.fixtures := by
  unfold State.takeMotion
  split
  · split <;> exact ⟨rfl, rfl⟩
  · exact ⟨rfl, rfl⟩
  · exact ⟨rfl, rfl⟩

theorem State.takeMotionCheckIn_quiet (x : PanelHandoff) :
    (s.takeMotionCheckIn x).menu = s.menu ∧ (s.takeMotionCheckIn x).recs.fixtures = s.recs.fixtures := by
  unfold State.takeMotionCheckIn
  split
  · exact ⟨rfl, by simp⟩
  · exact ⟨rfl, rfl⟩

theorem State.takeRequest_quiet {act : Records → Clock → RoomNo → Records × PanelResult}
    (hact : ∀ (b : Records) c r, (act b c r).1.fixtures = b.fixtures) (x : PanelHandoff) :
    (State.takeRequest act s x).menu = s.menu ∧ (State.takeRequest act s x).recs.fixtures = s.recs.fixtures :=
  ⟨rfl, s.recs.panelRequest_fixtures (fun b => hact b _ _) _ _⟩

theorem State.finish_menu (st : Status) (p : List Byte) : (s.finish st p).menu = s.menu := by
  unfold State.finish; split <;> rfl

theorem State.scanOn_menu (x : Scan) : (s.scanOn x).menu = s.menu := by
  unfold State.scanOn
  split
  · split
    · rfl
    · exact State.finish_menu ..
  · exact State.finish_menu ..

end Acts

theorem State.takePanel_steps {s t : State} {i : Instr} {l : LineNo} {n : NodeNo} {want : PanelItem → Bool}
    {act : State → PanelHandoff → State} (hact : ∀ s x, (act s x).menu = s.menu ∧
      (act s x).recs.fixtures = s.recs.fixtures)
    (h : s.takePanel l n want act = .next t) : s.Steps i t := by
  unfold State.takePanel at h
  split at h
  · cases h; exact ⟨rfl, .inl rfl⟩
  · split at h <;> cases h
    · rename_i x rest _ _
      obtain ⟨hmenu, hfixtures⟩ := hact { s with mail := { s.mail with panel := rest } } x
      exact ⟨hmenu, .inl hfixtures⟩
    · exact ⟨rfl, .inl rfl⟩

/-! ## Every command -/

/-- A command that changes the menu class table, or a fixture in another way than `State.Stirs` says, is HARD_RESET or
WRITE_MENU_CLASS. -/
theorem exec_steps {i : Instr} {s t : State} (h : exec i s = .next t) :
    s.Steps i t ∨ i = .hardReset ∨ ∃ tag c w u l, i = .writeMenuClass tag c w u l := by
  have hself : s.Steps i s := ⟨rfl, .inl rfl⟩
  by_cases hwrite : i = .hardReset ∨ ∃ tag c w u l, i = .writeMenuClass tag c w u l
  · exact .inr hwrite
  left
  cases i with
  | hardReset => exact absurd (.inl rfl) hwrite
  | writeMenuClass tag c w u l => exact absurd (.inr ⟨tag, c, w, u, l, rfl⟩) hwrite
  | poolInitComplete =>
    simp only [exec, execPoolInitComplete] at h
    split at h <;> cases h
    · exact ⟨rfl, .inl rfl⟩
    · exact hself
  | elapsedSecond =>
    simp only [exec, execElapsedSecond] at h
    split at h
    · cases h; exact ⟨rfl, .inl rfl⟩
    · cases h; exact ⟨rfl, .inl rfl⟩
    · split at h
      · cases h; exact ⟨rfl, .inl rfl⟩
      · split at h <;> cases h
        · exact ⟨rfl, .inl rfl⟩
        · exact ⟨rfl, .inl (s.recs.clockEnd_fixtures _)⟩
  | secondPulse l =>
    simp only [exec, execSecondPulse] at h
    split at h <;> cases h
    · exact hself
    · exact ⟨rfl, .inl (s.recs.setLine_fixtures (Line.aged_fixture _ _))⟩
  | bkeMinuteAdvance =>
    simp only [exec, execBkeMinuteAdvance] at h
    split at h <;> cases h <;> exact ⟨rfl, .inl rfl⟩
  | minuteWalkStep =>
    simp only [exec, execMinuteWalkStep] at h
    split at h <;> cases h
    · exact hself
    · exact ⟨rfl, .inl (s.recs.bringUp_fixtures _ _)⟩
  | windowRoll k =>
    simp only [exec, execWindowRoll] at h
    split at h <;> cases h
    · exact hself
    · exact ⟨rfl, .inl (s.recs.roll_fixtures _ _ _ _)⟩
  | sheddingStep k =>
    simp only [exec, execSheddingStep] at h
    split at h <;> cases h
    · exact ⟨rfl, .inl (s.recs.sheddingStep_fixtures _ _ _)⟩
    · exact hself
    · exact hself
  | promotingStep k =>
    simp only [exec, execPromotingStep] at h
    split at h <;> cases h
    · exact ⟨rfl, .inl (s.recs.promotingStep_fixtures _ _ _ _)⟩
    · exact hself
    · exact hself
  | closeWalkStep r =>
    simp only [exec, execCloseWalkStep] at h
    split at h <;> cases h
    · exact ⟨rfl, .inl (s.recs.closeStep_fixtures _ _)⟩
    · exact hself
  | clearSlotVisit =>
    simp only [exec, execClearSlotVisit] at h
    split at h
    · cases h; exact hself
    · cases h; exact hself
    · split at h <;> cases h
      · exact hself
      · exact ⟨rfl, .inl (s.recs.clearSlot_fixtures _ _)⟩
  | clearAllComplete =>
    simp only [exec, execClearAllComplete] at h
    split at h
    · cases h; exact hself
    · cases h; exact hself
    · split at h <;> cases h
      · exact hself
      · exact ⟨State.finish_menu .., .inl (by rw [State.finish_recs]; exact s.recs.completeClear_fixtures)⟩
  | findRoomsScanStep =>
    simp only [exec, execFindRoomsScanStep] at h
    split at h <;> cases h
    · exact hself
    · exact ⟨State.scanOn_menu .., .inl (by rw [State.scanOn_recs]; exact s.recs.judgeRoom_fixtures _ _ _)⟩
  | visitStart l =>
    have hline := (s.recs.line l).chooseNext_fixture
    simp only [exec, execVisitStart] at h
    split at h
    · split at h <;> cases h
      · rename_i hchoose
        rw [hchoose] at hline
        exact ⟨rfl, .inl (s.recs.startVisit_fixtures _ hline _)⟩
      · exact hself
    · cases h; exact hself
  | panelAnswer l frame => cases h; exact s.lineFrame_steps _ l frame
  | terminalAnswer l frame => cases h; exact s.lineFrame_steps _ l frame
  | badAnswer l frame => cases h; exact s.lineFrame_steps _ l frame
  | frameDiscarded l frame => cases h; exact s.lineFrame_steps _ l frame
  | visitTimeout l =>
    simp only [exec, execVisitTimeout] at h
    split at h <;> cases h
    · exact hself
    · exact ⟨rfl, .inr .lost⟩
  | motionReport l n => exact State.takePanel_steps State.takeMotion_quiet h
  | motionCheckIn l n =>
    exact State.takePanel_steps (want := fun x => decide (x = .motionCheckIn)) State.takeMotionCheckIn_quiet h
  | checkIn l n => exact State.takePanel_steps (State.takeRequest_quiet · Records.panelCheckIn_fixtures) h
  | extend l n => exact State.takePanel_steps (State.takeRequest_quiet · Records.panelExtend_fixtures) h
  | release l n => exact State.takePanel_steps (State.takeRequest_quiet · Records.panelRelease_fixtures) h
  | walkUp l n => exact State.takePanel_steps (State.takeRequest_quiet · Records.panelWalkUp_fixtures) h
  | requestResult l n =>
    have htakes : ∀ (x : Node) r, (x.takes r).kind = x.kind ∧ (x.takes r).state = x.state := fun x r => by
      unfold Node.takes; split <;> exact ⟨rfl, rfl⟩
    simp only [exec, execRequestResult] at h
    split at h <;> cases h
    · exact hself
    · exact ⟨rfl, .inl (s.recs.setLine_fixtures (Line.setNode_fixture _ (htakes _ _).1 (htakes _ _).2))⟩
  | terminalReport a =>
    cases h
    split
    · rename_i hon; exact ⟨rfl, .inr (.reported hon)⟩
    · exact hself
  | terminalLoss k => cases h; exact ⟨rfl, .inr .unheard⟩
  | noticeRaise n => cases h; exact ⟨rfl, .inl (s.recs.raise_fixtures n)⟩
  | commandWrite bytes => cases h; exact s.transact_steps _ _
  | overrun bytes => cases h; exact s.transact_steps _ _
  | ignoredTransaction bytes => cases h; exact s.transact_steps _ _
  | readOut a => cases h; exact ⟨s.readOut_menu a, .inl (by rw [s.readOut_recs])⟩
  | setClock tag v => exact State.serve_steps (s.setClock_steps _ v) h
  | readClock tag => exact State.serve_self (act := fun s => (s, .now .ok s.clk.readPayload)) rfl h
  | poolStatus tag => exact State.serve_self (act := fun s => (s, .now .ok s.recs.poolPayload)) rfl h
  | noticeSummary tag => exact State.serve_self (act := fun s => (s, .now .ok s.recs.notices.summary)) rfl h
  | setReserve tag floor => exact State.serve_steps (s.setReserve_steps tag floor) h
  | setHorizon tag days => exact State.serve_steps (s.setHorizon_steps tag days) h
  | clearAll tag => exact State.serve_steps (s.clearAll_steps _) h
  | findRooms tag a => exact State.serve_steps (s.findRooms_steps _ a) h
  | writeRoom tag a => exact State.serve_quiet (State.writeRoom_recsOnly ..) (s.writeRoom_fixtures a) h
  | writeRoomRemove tag n =>
    exact State.serve_quiet (State.writeRoomRemove_recsOnly ..) (s.writeRoomRemove_fixtures n) h
  | readRoom tag room => exact State.serve_quiet (State.readRoom_recsOnly ..) (s.readRoom_fixtures room) h
  | setRoomService tag up room =>
    exact State.serve_quiet (State.setRoomService_recsOnly ..) (s.setRoomService_fixtures up room) h
  | closeAndCancel tag room =>
    exact State.serve_quiet (State.closeAndCancel_recsOnly ..) (s.closeAndCancel_fixtures room) h
  | hold tag a ht => exact State.serve_quiet (State.bookOrHold_recsOnly ..) (s.bookOrHold_fixtures a (some ht)) h
  | book tag a => exact State.serve_quiet (State.bookOrHold_recsOnly ..) (s.bookOrHold_fixtures a none) h
  | confirm tag g cls => exact State.serve_quiet (State.confirm_recsOnly ..) (s.confirm_fixtures g cls) h
  | amend tag a => exact State.serve_quiet (State.amend_recsOnly ..) (s.amend_fixtures a) h
  | cancel tag g => exact State.serve_quiet (State.cancel_recsOnly ..) (s.cancel_fixtures g) h
  | readBooking tag g => exact State.serve_self (s.readBooking_self g) h
  | lookupAt tag room m => exact State.serve_self (s.lookupAt_self room m) h
  | listRoom tag room n a => exact State.serve_self (s.listRoom_self room n a) h
  | writeBanks tag k banks => exact State.serve_steps (s.writeBanks_steps tag k banks) h
  | writeKitchen tag k o c f => exact State.serve_steps (s.writeKitchen_steps tag k o c f) h
  | setStaffing tag k level => exact State.serve_steps (s.setStaffing_steps tag k level) h
  | readKitchen tag k => exact State.serve_self (s.readKitchen_self k) h
  | readWindow tag k w => exact State.serve_quiet (State.readWindow_recsOnly ..) (s.readWindow_fixtures k w) h
  | order tag g m n d => exact State.serve_quiet (State.order_recsOnly ..) (s.order_fixtures g m n d) h
  | amendOrder tag a => exact State.serve_quiet (State.amendOrder_recsOnly ..) (s.amendOrder_fixtures a) h
  | cancelOrder tag g => exact State.serve_quiet (State.cancelOrder_recsOnly ..) (s.cancelOrder_fixtures g) h
  | readOrder tag g => exact State.serve_self (s.readOrder_self g) h
  | setLine tag l st m r => exact State.serve_steps (s.setLineTo_steps tag l st m r) h
  | restartLine tag l => exact State.serve_steps (s.restartLine_steps tag l) h
  | writeNode tag l n k g => exact State.serve_steps (s.writeNode_steps tag l n k g) h
  | readNode tag l n => exact State.serve_self (s.readNode_self l n) h
  | readNotices tag i n => exact State.serve_quiet (State.readNotices_recsOnly ..) (s.readNotices_fixtures i n) h
  | setNoticeMask tag m => exact State.serve_steps (s.setNoticeMask_steps tag m) h

end Sys2Proof.Machine

/-! Kitchens stay lawful through every step (R100, R101, R104), and what configures them and the lines stands but for
the command that writes it. -/

namespace Sys2Proof.Machine

open Sys2Proof

/-! ## What is configured -/

/-- The configured items of the records: each has one command that writes it. -/
structure Records.Config where
  floor : Nat
  horizon : Nat
  masks : Vector Bool 18
  banks : KitchenNo → Vector Nat 8
  hours : KitchenNo → Nat × Nat × Fin 8
  override : KitchenNo → Option (Fin 8)
  terminal : KitchenNo → Option (LineNo × NodeNo)
  lines : LineNo → Bool × Nat × Nat
  kind : LineNo → NodeNo → NodeKind

def Records.Fixtures.config (x : Records.Fixtures) : Records.Config :=
  { floor := x.floor, horizon := x.horizon, masks := x.masks
    banks := fun k => (x.kitchens k).banks
    hours := fun k => ((x.kitchens k).opens, (x.kitchens k).closes, (x.kitchens k).fallback)
    override := fun k => (x.kitchens k).override
    terminal := fun k => (x.kitchens k).terminal
    lines := fun l => ((x.lines l).running, (x.lines l).timeout, (x.lines l).refresh)
    kind := fun l n => ((x.lines l).nodes n).1 }

def Records.config (b : Records) : Records.Config := b.fixtures.config

theorem Records.config_of_fixtures {b b' : Records} (h : b'.fixtures = b.fixtures) : b'.config = b.config :=
  congrArg Records.Fixtures.config h

/-! ## One table entry written -/

section Written

variable (b : Records) (c : Clock) (k : KitchenNo) (x : Kitchen)

/-- The configuration with that of kitchen `k` taken from the record `x`. -/
def Records.Config.withKitchen (y : Records.Config) (k : KitchenNo) (x : Kitchen) : Records.Config :=
  { y with
    banks := Function.update y.banks k x.banks
    hours := Function.update y.hours k (x.opens, x.closes, x.fallback)
    override := Function.update y.override k x.override
    terminal := Function.update y.terminal k x.terminal }

theorem Records.setKitchen_config : (b.setKitchen k x).config = b.config.withKitchen k x := by
  have hitem : ∀ {α : Type} (f : Kitchen → α),
      (fun q => f ((b.setKitchen k x).kitchen q)) = Function.update (fun q => f (b.kitchen q)) k (f x) := fun f => by
    funext q
    by_cases hq : q = k
    · subst hq; simp
    · simp [b.setKitchen_kitchen_other _ hq, hq]
  simp only [Records.Config.withKitchen, Records.config, Records.Fixtures.config, Records.fixtures, Kitchen.fixture,
    Records.setKitchen_pool, Records.setKitchen_notices, Records.setKitchen_line, hitem Kitchen.banks,
    hitem Kitchen.override, hitem Kitchen.terminal, hitem fun x => (x.opens, x.closes, x.fallback)]

/-- What the trigger of a capacity change writes is no fixture (R116). -/
theorem Records.changeKitchen_fixtures : (b.changeKitchen c k x).fixtures = (b.setKitchen k x).fixtures := by
  unfold Records.changeKitchen
  split
  · rw [← b.setKitchen_setKitchen k x]
    exact (b.setKitchen k x).setKitchen_fixtures (by simp)
  · rfl

theorem Records.reformLevel_fixtures : (b.reformLevel c k x).fixtures =
    (b.setKitchen k { x with active := x.formLevel }).fixtures := by
  unfold Records.reformLevel
  dsimp only
  split
  · exact b.changeKitchen_fixtures c k _
  · exact (Records.raise_fixtures _ _).trans (b.changeKitchen_fixtures c k _)

theorem Records.changeKitchen_config : (b.changeKitchen c k x).config = b.config.withKitchen k x :=
  (Records.config_of_fixtures (b.changeKitchen_fixtures c k x)).trans (b.setKitchen_config k x)

theorem Records.reformLevel_config : (b.reformLevel c k x).config = b.config.withKitchen k x :=
  (Records.config_of_fixtures (b.reformLevel_fixtures c k x)).trans (b.setKitchen_config k _)

@[simp] theorem Records.update_banks : Function.update b.config.banks k (b.kitchen k).banks = b.config.banks :=
  Function.update_eq_self k b.config.banks

@[simp] theorem Records.update_hours : Function.update b.config.hours k
    ((b.kitchen k).opens, (b.kitchen k).closes, (b.kitchen k).fallback) = b.config.hours :=
  Function.update_eq_self k b.config.hours

@[simp] theorem Records.update_override :
    Function.update b.config.override k (b.kitchen k).override = b.config.override :=
  Function.update_eq_self k b.config.override

@[simp] theorem Records.update_terminal :
    Function.update b.config.terminal k (b.kitchen k).terminal = b.config.terminal :=
  Function.update_eq_self k b.config.terminal

theorem Records.terminalReported_config (level : Fin 8) : (b.terminalReported c k level).config = b.config := by
  simp [Records.terminalReported, Records.reformLevel_config, Records.Config.withKitchen, Kitchen.reportedAt]

theorem Records.terminalLost_config : (b.terminalLost c k).config = b.config := by
  simp [Records.terminalLost, Records.reformLevel_config, Records.Config.withKitchen, Kitchen.lost]

/-- The configuration with that of line `l` taken from the record `x`. -/
def Records.Config.withLine (y : Records.Config) (l : LineNo) (x : Line) : Records.Config :=
  { y with
    lines := Function.update y.lines l (x.running, x.timeout, x.refresh)
    kind := Function.update y.kind l fun n => (x.node n).kind }

theorem Records.setLine_config (l : LineNo) (ln : Line) : (b.setLine l ln).config = b.config.withLine l ln := by
  have hitem : ∀ {α : Type} (f : Line → α),
      (fun m => f ((b.setLine l ln).line m)) = Function.update (fun m => f (b.line m)) l (f ln) := fun f => by
    funext m
    by_cases hm : m = l
    · subst hm; simp
    · simp [b.setLine_line_other _ hm, hm]
  simp only [Records.Config.withLine, Records.config, Records.Fixtures.config, Records.fixtures, Line.fixture,
    Records.setLine_pool, Records.setLine_notices, Records.setLine_kitchen,
    hitem fun x => (x.running, x.timeout, x.refresh), hitem fun x n => (x.node n).kind]

/-- A line written without a change of the kind of a node. -/
theorem Records.setLine_config_kind {l : LineNo} {ln : Line}
    (hkind : ∀ n, (ln.node n).kind = ((b.line l).node n).kind) : (b.setLine l ln).config =
      { b.config with lines := Function.update b.config.lines l (ln.running, ln.timeout, ln.refresh) } := by
  rw [b.setLine_config, Records.Config.withLine, funext hkind]
  exact congrArg (fun k => { b.config with
    lines := Function.update b.config.lines l (ln.running, ln.timeout, ln.refresh), kind := k })
    (Function.update_eq_self l b.config.kind)

/-- A line written without a change of its settings. -/
theorem Records.setLine_config_lines {l : LineNo} {ln : Line}
    (hset : (ln.running, ln.timeout, ln.refresh) = ((b.line l).running, (b.line l).timeout, (b.line l).refresh)) :
    (b.setLine l ln).config =
      { b.config with kind := Function.update b.config.kind l fun n => (ln.node n).kind } := by
  rw [b.setLine_config, Records.Config.withLine, hset]
  exact congrArg (fun x => { b.config with
    lines := x, kind := Function.update b.config.kind l fun n => (ln.node n).kind })
    (Function.update_eq_self l b.config.lines)

/-- A line written without a change of its settings or of the kind of a node. -/
theorem Records.setLine_config_same {l : LineNo} {ln : Line}
    (hset : (ln.running, ln.timeout, ln.refresh) = ((b.line l).running, (b.line l).timeout, (b.line l).refresh))
    (hkind : ∀ n, (ln.node n).kind = ((b.line l).node n).kind) : (b.setLine l ln).config = b.config := by
  rw [b.setLine_config_kind hkind, hset]
  exact congrArg (fun x => { b.config with lines := x }) (Function.update_eq_self l b.config.lines)

end Written

/-! ## The laws of a kitchen (R100, R101) -/

/-- A kitchen's settings and stamp counters within their ranges (R100). -/
def Kitchen.InRange (k : Kitchen) : Prop :=
  (∀ c ∈ k.banks.toList, c ≤ 4095) ∧ k.opens % 30 = 0 ∧ k.closes % 30 = 0 ∧ k.opens ≤ k.closes ∧ k.closes ≤ 1440 ∧
  k.admissions ≤ Config.maxStamp ∧ k.waits ≤ Config.maxStamp

theorem Kitchen.Lawful.inRange {k : Kitchen} (h : k.Lawful) : k.InRange := by
  obtain ⟨hbanks, hopens, hcloses, hle, hday, hadmissions, hwaits, -⟩ := h
  exact ⟨hbanks, hopens, hcloses, hle, hday, hadmissions, hwaits⟩

/-- A kitchen within the ranges whose active level is the one formed is lawful (R101). -/
theorem Kitchen.InRange.lawful {k : Kitchen} (h : k.InRange) (hactive : k.active = k.formLevel) : k.Lawful := by
  obtain ⟨hbanks, hopens, hcloses, hle, hday, hadmissions, hwaits⟩ := h
  rw [k.formLevel_eq] at hactive
  refine ⟨hbanks, hopens, hcloses, hle, hday, hadmissions, hwaits, fun v hv => ?_, fun v hv hon hr => ?_,
    fun hv hor => ?_⟩
  · simpa [hv] using hactive
  · simpa [hv, hon, hr] using hactive
  · rcases hor with hoff | hnone
    · simpa [hv, hoff] using hactive
    · simpa [hv, hnone] using hactive

/-- The laws of a kitchen speak of its fixture alone. -/
theorem Kitchen.Lawful.of_fixture {k k' : Kitchen} (e : k'.fixture = k.fixture) (h : k.Lawful) : k'.Lawful := by
  obtain ⟨hbanks, hopens, hcloses, hle, hday, hadmissions, hwaits, hlevel⟩ := h
  simp only [Kitchen.fixture, Kitchen.Fixture.mk.injEq] at e
  obtain ⟨e1, e2, e3, e4, e5, e6, -, e8, e9, hstamps⟩ := e
  have hstamped : k'.admissions ≤ Config.maxStamp ∧ k'.waits ≤ Config.maxStamp :=
    of_decide_eq_true (hstamps.trans (decide_eq_true ⟨hadmissions, hwaits⟩))
  unfold Kitchen.Lawful
  rw [e1, e2, e3, e4, e5, e6, e8, e9]
  exact ⟨hbanks, hopens, hcloses, hle, hday, hstamped.1, hstamped.2, hlevel⟩

/-- Every kitchen is lawful. -/
def Records.KitchensLawful (b : Records) : Prop := ∀ k : KitchenNo, (b.kitchen k).Lawful

theorem Records.KitchensLawful.of_fixtures {b b' : Records} (e : b'.fixtures = b.fixtures) (h : b.KitchensLawful) :
    b'.KitchensLawful := fun k =>
  (h k).of_fixture (congrFun (congrArg Records.Fixtures.kitchens e) k)

section Reformed

variable {b : Records} (h : b.KitchensLawful)
include h

theorem Records.KitchensLawful.setKitchen (k : KitchenNo) {x : Kitchen} (hx : x.Lawful) :
    (b.setKitchen k x).KitchensLawful := fun q => by
  by_cases hq : q = k
  · subst hq; simpa using hx
  · rw [b.setKitchen_kitchen_other _ hq]; exact h q

/-- Forming the level again makes a kitchen within its ranges lawful. -/
theorem Records.KitchensLawful.reformLevel (c : Clock) (k : KitchenNo) {x : Kitchen} (hx : x.InRange) :
    (b.reformLevel c k x).KitchensLawful :=
  .of_fixtures (b.reformLevel_fixtures c k x) (h.setKitchen k (Kitchen.InRange.lawful hx rfl))

theorem Records.KitchensLawful.terminalReported (c : Clock) (k : KitchenNo) (level : Fin 8) :
    (b.terminalReported c k level).KitchensLawful :=
  h.reformLevel c k (h k).inRange

theorem Records.KitchensLawful.terminalLost (c : Clock) (k : KitchenNo) : (b.terminalLost c k).KitchensLawful :=
  h.reformLevel c k (h k).inRange

theorem Records.KitchensLawful.setLine (l : LineNo) (x : Line) : (b.setLine l x).KitchensLawful := h

end Reformed

/-! ## The events of a line -/

/-- From `b` to `b'` what is configured stands, and lawful kitchens stay lawful. -/
structure Records.LevelsMove (b b' : Records) : Prop where
  config : b'.config = b.config
  lawful : b.KitchensLawful → b'.KitchensLawful

namespace Records.LevelsMove

variable {b b' b'' : Records}

theorem of_fixtures (e : b'.fixtures = b.fixtures) : b.LevelsMove b' :=
  ⟨Records.config_of_fixtures e, .of_fixtures e⟩

theorem trans (h : b.LevelsMove b') (h' : b'.LevelsMove b'') : b.LevelsMove b'' :=
  ⟨h'.config.trans h.config, h'.lawful ∘ h.lawful⟩

theorem setLine (b : Records) {l : LineNo} {x : Line}
    (hset : (x.running, x.timeout, x.refresh) = ((b.line l).running, (b.line l).timeout, (b.line l).refresh))
    (hkind : ∀ n, (x.node n).kind = ((b.line l).node n).kind) : b.LevelsMove (b.setLine l x) :=
  ⟨b.setLine_config_same hset hkind, fun h => h.setLine l x⟩

/-- One node of a line changed without a change of its kind. -/
theorem setNode (b : Records) {l : LineNo} {n : NodeNo} {y : Node} (hy : y.kind = ((b.line l).node n).kind) :
    b.LevelsMove (b.setLine l ((b.line l).setNode n y)) :=
  .setLine b rfl fun m => by
    by_cases hm : m = n
    · subst hm; simpa using hy
    · rw [Line.setNode_node_other _ _ hm]

theorem terminalReported (b : Records) (c : Clock) (k : KitchenNo) (level : Fin 8) :
    b.LevelsMove (b.terminalReported c k level) :=
  ⟨b.terminalReported_config c k level, fun h => h.terminalReported c k level⟩

theorem terminalLost (b : Records) (c : Clock) (k : KitchenNo) : b.LevelsMove (b.terminalLost c k) :=
  ⟨b.terminalLost_config c k, fun h => h.terminalLost c k⟩

theorem foldl {α : Type} {f : Records → α → Records} (hf : ∀ (b : Records) (x : α), b.LevelsMove (f b x))
    (l : List α) (b : Records) : b.LevelsMove (l.foldl f b) := by
  induction l generalizing b with
  | nil => exact of_fixtures rfl
  | cons x xs ih => exact (hf b x).trans (ih _)

end Records.LevelsMove

section LineEvents

variable (b : Records) (c : Clock) (l : LineNo) (v : Visit)

theorem Records.lossOf_levelsMove (x : Node) : b.LevelsMove (b.lossOf c x) := by
  unfold Records.lossOf
  split
  · split
    · exact .terminalLost b c _
    · exact .of_fixtures rfl
  · exact .of_fixtures rfl

theorem Records.goodAnswer_levelsMove (payload : List Byte) : b.LevelsMove (b.goodAnswer c l v payload) := by
  unfold Records.goodAnswer
  extract_lets ln x y b1 b2
  have hkind : y.kind = x.kind := by
    simp only [y]; split <;> rfl
  have h1 : b.LevelsMove b1 := (Records.LevelsMove.setNode b hkind).trans (.of_fixtures (Records.raiseBack_fixtures _ _))
  have h2 : b1.LevelsMove b2 := by
    simp only [b2]
    split
    · exact .of_fixtures rfl
    · exact .of_fixtures rfl
    · exact .trans (.of_fixtures (b1.terminalAnswered_fixtures _ _)) (.terminalReported _ c _ _)
  exact (h1.trans h2).trans (.of_fixtures (Records.setLine_fixtures _ (Line.visitEnded_fixture _)))

theorem Records.loss_levelsMove : b.LevelsMove (b.loss c l v) := by
  have h1 : b.LevelsMove (b.settleFrame l v) := .of_fixtures (b.settleFrame_fixtures l v)
  unfold Records.loss
  extract_lets b1 ln x b2
  have h2 : b1.LevelsMove b2 :=
    (Records.LevelsMove.setNode b1 (y := x.missed) rfl).trans
      (.trans (.of_fixtures (Records.raiseSilent_fixtures _ x)) (Records.lossOf_levelsMove _ c x))
  exact (h1.trans h2).trans (.of_fixtures (Records.setLine_fixtures _ (Line.visitEnded_fixture _)))

theorem Records.clearLine_levelsMove : b.LevelsMove (b.clearLine c l) := by
  unfold Records.clearLine
  extract_lets b1 lost
  have h1 : b.LevelsMove b1 := by
    simp only [b1]
    split
    · exact .of_fixtures (b.settleFrame_fixtures l _)
    · exact .of_fixtures rfl
  have hkind : ∀ n, ((b1.line l).cleared.node n).kind = ((b1.line l).node n).kind := fun n => by
    simp [Line.cleared, Line.node, Node.restarted]
  exact h1.trans ((Records.LevelsMove.setLine b1 (x := (b1.line l).cleared) rfl hkind).trans
    (.foldl (fun b k => .terminalLost b c k) lost _))

end LineEvents

/-! ## Kitchens and menu through every step -/

@[simp] theorem Records.judgeFloor_kitchens (b : Records) : b.judgeFloor.kitchens = b.kitchens := by
  unfold Records.judgeFloor
  dsimp only
  split
  · rfl
  · split <;> rfl

@[simp] theorem Records.judgeFloor_lines (b : Records) : b.judgeFloor.lines = b.lines := by
  unfold Records.judgeFloor
  dsimp only
  split
  · rfl
  · split <;> rfl

@[simp] theorem Records.judgeFloor_config (b : Records) : b.judgeFloor.config = b.config := by
  unfold Records.judgeFloor
  dsimp only
  split
  · exact Records.config_of_fixtures (Records.raise_fixtures _ _)
  · split <;> rfl

theorem hoursOk_iff (o c : Nat) : hoursOk o c = true ↔ o % 30 = 0 ∧ c % 30 = 0 ∧ o ≤ c ∧ c ≤ 1440 := by
  simp [hoursOk, and_assoc]

theorem Records.KitchensLawful.changeKitchen {b : Records} (h : b.KitchensLawful) (c : Clock) (k : KitchenNo)
    {x : Kitchen} (hx : x.Lawful) : (b.changeKitchen c k x).KitchensLawful :=
  .of_fixtures (b.changeKitchen_fixtures c k x) (h.setKitchen k hx)

/-- SET_LINE moves no kitchen but those whose terminal is lost. -/
theorem State.enterLine_kitchensLawful {s : State} (h : s.recs.KitchensLawful) (l : LineNo) (run : Bool) :
    (s.enterLine l run).recs.KitchensLawful := by
  unfold State.enterLine
  dsimp only
  split
  · exact h
  · exact h
  · exact h
  · exact (s.recs.clearLine_levelsMove s.clk l).lawful h

theorem State.Stirs.kitchensLawful {s : State} {i : Instr} {b : Records} (hb : s.Stirs i b)
    (h : s.recs.KitchensLawful) : b.KitchensLawful := by
  cases hb with
  | reserve => exact fun k => by simpa [Records.kitchen] using h k
  | horizon => exact h
  | masks => exact h
  | @banks _ _ k _ hbanks =>
    obtain ⟨-, hrest⟩ := h k
    exact h.changeKitchen _ _ ⟨hbanks, hrest⟩
  | @hours _ _ _ _ _ k _ hhours =>
    obtain ⟨hbanks, -, -, -, -, hstamps⟩ := (h k).inRange
    obtain ⟨hopens, hcloses, hle, hday⟩ := (hoursOk_iff _ _).mp hhours
    exact h.reformLevel _ _ ⟨hbanks, hopens, hcloses, hle, hday, hstamps⟩
  | @staffing _ _ _ k => exact h.reformLevel _ _ (h k).inRange
  | answered => exact (s.recs.goodAnswer_levelsMove ..).lawful h
  | lost => exact (s.recs.loss_levelsMove ..).lawful h
  | reported => exact h.terminalReported _ _ _
  | unheard => exact h.terminalLost _ _
  | @restarted _ l => exact (s.recs.clearLine_levelsMove s.clk l).lawful h
  | @entered _ _ _ _ _ tm rf l run =>
    have hset : (s.setLine l ((s.recs.line l).configuredWith tm rf)).recs.KitchensLawful := h
    exact State.enterLine_kitchensLawful hset l run
  | @wired _ _ _ _ _ l n kind =>
    have hname : ∀ {b : Records} (_ : b.KitchensLawful) kind t, (b.nameTerminal s.clk kind t).KitchensLawful :=
      fun hb kind t => by
        unfold Records.nameTerminal
        split
        · exact hb
        · exact hb
        · exact hb.reformLevel _ _ (hb _).inRange
    unfold Records.writeNode
    dsimp only
    split
    · exact hname (h.setLine _ _) _ _
    · exact hname (hname (h.setLine _ _) _ _) _ _

theorem State.writeMenuClass_menu (s : State) (cls weight setup lead : Nat)
    (h : ∀ c : Fin 16, s.menu[c.val].Lawful) (c : Fin 16) :
    ((s.writeMenuClass cls weight setup lead).1.menu[c.val]).Lawful := by
  unfold State.writeMenuClass
  split
  · exact h c
  · split
    · rename_i hvalues
      by_cases hc : (‹Fin 16› : Fin 16).val = c.val
      · simpa [hc, MenuClass.Lawful] using hvalues
      · simpa [hc] using h c
    · exact h c

/-- A step of the part is the step of the command at the front of the queue, or none. -/
theorem step_exec {s t : State} (h : step s = .next t) : t = s ∨ ∃ i rest, exec i { s with pending := rest } = .next t := by
  unfold step at h
  split at h
  · cases h; exact .inl rfl
  · exact .inr ⟨_, _, h⟩

theorem exec_keeps_kitchens {i : Instr} {s t : State} (h : exec i s = .next t) :
    (s.recs.KitchensLawful → t.recs.KitchensLawful) ∧
    ((∀ c : Fin 16, s.menu[c.val].Lawful) → ∀ c : Fin 16, t.menu[c.val].Lawful) := by
  rcases exec_steps h with ⟨hmenu, hrecs⟩ | rfl | ⟨tag, c, w, u, l, rfl⟩
  · refine ⟨fun hk => ?_, fun hm => hmenu ▸ hm⟩
    rcases hrecs with e | hb
    · exact .of_fixtures e hk
    · exact hb.kitchensLawful hk
  · cases h
    refine ⟨fun _ k => ?_, fun _ c => ?_⟩
    · exact Records.reset_kitchen k ▸ Kitchen.reset_lawful
    · simpa [State.reset] using MenuClass.reset_lawful
  · have hserve : s.serve (.writeMenuClass tag c w u l) (State.writeMenuClass c w u l) = .next t := h
    refine ⟨fun hk => ?_, fun hm => ?_⟩
    · rcases State.serve_recs hserve with e | e <;> rw [e]
      · exact hk
      · rwa [s.writeMenuClass_recs]
    · rcases State.serve_cases hserve with rfl | ⟨-, ⟨_, _, _, _, rfl⟩ | ⟨-, rfl⟩⟩
      · exact hm
      · exact s.writeMenuClass_menu c w u l hm
      · exact s.writeMenuClass_menu c w u l hm

/-- Settles O9: `exec_steps`, with the laws of a kitchen read from its fixture. -/
theorem stepKeepsKitchensLawful : Obligations.StepKeepsKitchensLawful := by
  intro s t h
  rcases step_exec h with rfl | ⟨i, rest, h⟩
  · exact ⟨id, id⟩
  · have hkeep := exec_keeps_kitchens h
    exact hkeep

end Sys2Proof.Machine

/-! Each configured item has one writer (R29 to R31, R100, R104, R146, R147, R181). -/

namespace Sys2Proof.Machine

open Sys2Proof

/-! ## What each command writes -/

/-- The configuration `x` with the items that command `i` writes taken from `y`. -/
def Records.Config.written (x y : Records.Config) : Instr → Records.Config
  | .setReserve _ _ => { x with floor := y.floor }
  | .setHorizon _ _ => { x with horizon := y.horizon }
  | .setNoticeMask _ _ => { x with masks := y.masks }
  | .writeBanks _ _ _ => { x with banks := y.banks }
  | .writeKitchen _ _ _ _ _ => { x with hours := y.hours }
  | .setStaffing _ _ _ => { x with override := y.override }
  | .setLine _ _ _ _ _ => { x with lines := y.lines }
  | .writeNode _ _ _ _ _ => { x with terminal := y.terminal, kind := y.kind }
  | _ => x

theorem Records.Config.written_self (x : Records.Config) (i : Instr) : x.written x i = x := by
  cases i <;> rfl

/-- What SET_LINE's entry into a state writes of the configuration. -/
theorem State.enterLine_config (s : State) (l : LineNo) (run : Bool) :
    (s.enterLine l run).recs.config = { s.recs.config with lines := (s.enterLine l run).recs.config.lines } := by
  have hset : ∀ {b : Records} {x : Line}, (∀ n, (x.node n).kind = ((b.line l).node n).kind) →
      (b.setLine l x).config = { b.config with lines := (b.setLine l x).config.lines } := fun {b x} h => by
    rw [b.setLine_config_kind h]
  unfold State.enterLine
  dsimp only
  split
  · rfl
  · rfl
  · exact hset fun _ => rfl
  · have h := hset (b := s.recs.clearLine s.clk l)
      (x := { (s.recs.clearLine s.clk l).line l with running := false }) fun _ => rfl
    rwa [(s.recs.clearLine_levelsMove s.clk l).config] at h

theorem Records.nameTerminal_config (b : Records) (c : Clock) (kind : NodeKind) (t : Option (LineNo × NodeNo)) :
    (b.nameTerminal c kind t).config =
      { b.config with terminal := fun k => if kind = .terminal k then t else b.config.terminal k } := by
  cases kind with
  | unused => simp [Records.nameTerminal]
  | panel r => simp [Records.nameTerminal]
  | terminal k =>
    have hupdate : (fun q => if NodeKind.terminal k = .terminal q then t else b.config.terminal q) =
        Function.update b.config.terminal k t := by
      funext q
      by_cases hq : q = k
      · subst hq; simp
      · simp [hq, Ne.symm hq]
    rw [hupdate]
    simp [Records.nameTerminal, Records.reformLevel_config, Records.Config.withKitchen, Kitchen.withTerminal]

/-- WRITE_NODE writes the kind of its node, and the terminal fields of the kitchens that the old and the new kind
name (R151). -/
theorem Records.writeNode_config (b : Records) (c : Clock) (l : LineNo) (n : NodeNo) (kind : NodeKind) :
    (b.writeNode c l n kind).config = { b.config with
      terminal := fun k => if kind = .terminal k then some (l, n)
        else if ((b.line l).node n).kind = .terminal k then none else b.config.terminal k
      kind := fun l' n' => if l' = l ∧ n' = n then kind else ((b.line l').node n').kind } := by
  have hnode : (b.setLine l ((b.line l).setNode n (Node.written kind))).config = { b.config with
      kind := fun l' n' => if l' = l ∧ n' = n then kind else ((b.line l').node n').kind } := by
    refine (b.setLine_config_lines (by rfl)).trans (congrArg (fun k => { b.config with kind := k }) ?_)
    funext l' n'
    by_cases hl : l' = l
    · subst hl
      by_cases hn : n' = n
      · subst hn; simp [Node.written]
      · simp [hn, Line.setNode_node_other _ _ hn]
    · simp [hl]; rfl
  unfold Records.writeNode
  dsimp only
  split
  · rename_i hold
    have hterm : (fun k => if kind = .terminal k then some (l, n)
        else if ((b.line l).node n).kind = .terminal k then none else b.config.terminal k) =
        fun k => if kind = .terminal k then some (l, n) else b.config.terminal k := by
      funext k
      rw [hold]
      split <;> rfl
    rw [hterm, Records.nameTerminal_config, hnode]
  · rw [Records.nameTerminal_config, Records.nameTerminal_config, hnode]

theorem State.Stirs.config {s : State} {i : Instr} {b : Records} (h : s.Stirs i b) :
    b.config = s.recs.config.written b.config i := by
  have hsame : ∀ {b' : Records}, b'.config = s.recs.config → b'.config = s.recs.config.written b'.config i := fun e => by
    rw [e, Records.Config.written_self]
  cases h with
  | reserve => rw [Records.judgeFloor_config]; rfl
  | horizon => rfl
  | masks => rfl
  | banks => simp [Records.changeKitchen_config, Records.Config.written, Records.Config.withKitchen]
  | hours => simp [Records.reformLevel_config, Records.Config.written, Records.Config.withKitchen]
  | staffing => simp [Records.reformLevel_config, Records.Config.written, Records.Config.withKitchen]
  | answered => exact hsame (s.recs.goodAnswer_levelsMove ..).config
  | lost => exact hsame (s.recs.loss_levelsMove ..).config
  | reported => exact hsame (s.recs.terminalReported_config ..)
  | unheard => exact hsame (s.recs.terminalLost_config ..)
  | @restarted _ l =>
    refine hsame ((Records.setLine_config_same _ ?_ fun n => ?_).trans (s.recs.clearLine_levelsMove s.clk l).config)
    · unfold Line.sweepAnew; split <;> rfl
    · unfold Line.sweepAnew; split <;> rfl
  | @entered _ _ _ _ _ tm rf l run =>
    have hmarked : (s.setLine l ((s.recs.line l).configuredWith tm rf)).recs.config =
        { s.recs.config with lines := (s.setLine l ((s.recs.line l).configuredWith tm rf)).recs.config.lines } := by
      have h := s.recs.setLine_config_kind (l := l) (ln := (s.recs.line l).configuredWith tm rf) fun n => by
        simp only [Line.configuredWith, Line.node, Vector.getElem_map]
        split <;> rfl
      exact h.trans (by rw [show (s.setLine l _).recs.config = _ from h])
    rw [State.enterLine_config, hmarked]
    rfl
  | wired => rw [Records.writeNode_config]; rfl

/-- A command other than HARD_RESET writes the configured items of its own, if it has any. -/
theorem exec_config {i : Instr} {s t : State} (hreset : i ≠ .hardReset) (h : exec i s = .next t) :
    t.recs.config = s.recs.config.written t.recs.config i := by
  rcases exec_steps h with ⟨-, e | hb⟩ | rfl | ⟨tag, c, w, u, l, rfl⟩
  · rw [Records.config_of_fixtures e, Records.Config.written_self]
  · exact hb.config
  · exact absurd rfl hreset
  · rcases State.serve_recs (act := State.writeMenuClass c w u l) h with e | e
    · rw [e]; rfl
    · rw [e, s.writeMenuClass_recs]; rfl

theorem exec_menu {i : Instr} {s t : State} (hreset : i ≠ .hardReset)
    (hmenu : ∀ tag c w u l, i ≠ .writeMenuClass tag c w u l) (h : exec i s = .next t) : t.menu = s.menu := by
  rcases exec_steps h with ⟨hmenu, -⟩ | e | ⟨tag, c, w, u, l, e⟩
  · exact hmenu
  · exact absurd e hreset
  · exact absurd e (hmenu _ _ _ _ _)

section OwnItem

variable (x y : Records.Config) {i : Instr}

theorem Records.Config.written_floor (h : ∀ tag f, i ≠ .setReserve tag f) : (x.written y i).floor = x.floor := by
  unfold Records.Config.written
  split
  case h_1 => exact absurd rfl (h _ _)
  all_goals rfl

theorem Records.Config.written_horizon (h : ∀ tag d, i ≠ .setHorizon tag d) :
    (x.written y i).horizon = x.horizon := by
  unfold Records.Config.written
  split
  case h_2 => exact absurd rfl (h _ _)
  all_goals rfl

theorem Records.Config.written_masks (h : ∀ tag m, i ≠ .setNoticeMask tag m) : (x.written y i).masks = x.masks := by
  unfold Records.Config.written
  split
  case h_3 => exact absurd rfl (h _ _)
  all_goals rfl

theorem Records.Config.written_banks (h : ∀ tag k b, i ≠ .writeBanks tag k b) : (x.written y i).banks = x.banks := by
  unfold Records.Config.written
  split
  case h_4 => exact absurd rfl (h _ _ _)
  all_goals rfl

theorem Records.Config.written_hours (h : ∀ tag k o c f, i ≠ .writeKitchen tag k o c f) :
    (x.written y i).hours = x.hours := by
  unfold Records.Config.written
  split
  case h_5 => exact absurd rfl (h _ _ _ _ _)
  all_goals rfl

theorem Records.Config.written_override (h : ∀ tag k v, i ≠ .setStaffing tag k v) :
    (x.written y i).override = x.override := by
  unfold Records.Config.written
  split
  case h_6 => exact absurd rfl (h _ _ _)
  all_goals rfl

theorem Records.Config.written_lines (h : ∀ tag l st m r, i ≠ .setLine tag l st m r) :
    (x.written y i).lines = x.lines := by
  unfold Records.Config.written
  split
  case h_7 => exact absurd rfl (h _ _ _ _ _)
  all_goals rfl

theorem Records.Config.written_kind (h : ∀ tag l n k g, i ≠ .writeNode tag l n k g) :
    (x.written y i).kind = x.kind ∧ (x.written y i).terminal = x.terminal := by
  unfold Records.Config.written
  split
  case h_8 => exact absurd rfl (h _ _ _ _ _)
  all_goals exact ⟨rfl, rfl⟩

end OwnItem

/-- Settles O17: `exec_config` for the items of the records, `exec_menu` for the menu, `exec_naming` for the rooms. -/
theorem configurationHasOneWriter : Obligations.ConfigurationHasOneWriter := by
  intro i s t hreset h
  have hconfig := exec_config hreset h
  have item : ∀ {α : Type} (f : Records.Config → α), f (s.recs.config.written t.recs.config i) = f s.recs.config →
      f t.recs.config = f s.recs.config := fun f e => (congrArg f hconfig).trans e
  refine ⟨fun hw => exec_menu hreset hw h, fun hw => ?_, fun hw => ?_, fun hw => ?_, fun hw hr r => ?_,
    fun hw k => ?_, fun hw k => ?_, fun hw k => ?_, fun hw l => ?_, fun hw l n => ?_⟩
  · exact item Records.Config.floor (Records.Config.written_floor _ _ hw)
  · exact item Records.Config.horizon (Records.Config.written_horizon _ _ hw)
  · exact item Records.Config.masks (Records.Config.written_masks _ _ hw)
  · exact ((Records.naming_eq_iff _ _).mp (exec_naming hreset hw hr h) r).1
  · exact congrFun (item Records.Config.banks (Records.Config.written_banks _ _ hw)) k
  · have hhours := congrFun (item Records.Config.hours (Records.Config.written_hours _ _ hw)) k
    simpa [Records.config, Records.Fixtures.config, Records.fixtures, Kitchen.fixture] using hhours
  · exact congrFun (item Records.Config.override (Records.Config.written_override _ _ hw)) k
  · have hlines := congrFun (item Records.Config.lines (Records.Config.written_lines _ _ hw)) l
    simpa [Records.config, Records.Fixtures.config, Records.fixtures, Line.fixture] using hlines
  · exact congrFun (congrFun (item Records.Config.kind (Records.Config.written_kind _ _ hw).1) l) n

end Sys2Proof.Machine

/-! The node table through every step: targets stay unique, terminal fields name their nodes, and a kitchen is online only
with its node (R102, R147, R149, R151, R158). -/

namespace Sys2Proof.Machine

open Sys2Proof

/-! ## A kitchen online with its node (R149, R158) -/

/-- Some TERMINAL node of kitchen `k` is ONLINE on a RUNNING line. -/
def Records.Heard (b : Records) (k : KitchenNo) : Prop :=
  ∃ (l : LineNo) (n : NodeNo), (b.line l).running = true ∧ ((b.line l).node n).kind = .terminal k ∧
    ((b.line l).node n).state = .online

/-- Every kitchen with terminal online yes is heard, but those of the list `out`, whose loss is still to be taken. -/
def Records.OnlineBut (b : Records) (out : List KitchenNo) : Prop :=
  ∀ k : KitchenNo, k ∉ out → (b.kitchen k).online = true → b.Heard k

theorem Records.onlineLawful_iff (b : Records) : b.OnlineLawful ↔ b.OnlineBut [] := by
  simp [Records.OnlineLawful, Records.OnlineBut, Records.Heard]

theorem Records.heard_of_fixtures {b b' : Records} (e : b'.fixtures = b.fixtures) {k : KitchenNo} (h : b.Heard k) :
    b'.Heard k := by
  obtain ⟨l, n, hrun, hkind, hstate⟩ := h
  have hl : (b'.line l).fixture = (b.line l).fixture := congrFun (congrArg Records.Fixtures.lines e) l
  have hn := congrFun (congrArg Line.Fixture.nodes hl) n
  exact ⟨l, n, (congrArg Line.Fixture.running hl).trans hrun, (congrArg Prod.fst hn).trans hkind,
    (congrArg Prod.snd hn).trans hstate⟩

section Online

variable {b b' : Records} {out : List KitchenNo} (h : b.OnlineBut out)
include h

theorem Records.OnlineBut.of_fixtures (e : b'.fixtures = b.fixtures) : b'.OnlineBut out := fun k hk hon =>
  Records.heard_of_fixtures e
    (h k hk ((congrArg Kitchen.Fixture.online (congrFun (congrArg Records.Fixtures.kitchens e) k)).symm.trans hon))

/-- Kitchens unchanged, and the kitchens outside `out'` heard as they were. -/
theorem Records.OnlineBut.of_heard {out' : List KitchenNo} (hk : b'.kitchens = b.kitchens)
    (hheard : ∀ k, k ∉ out' → k ∉ out ∧ (b.Heard k → b'.Heard k)) : b'.OnlineBut out' := fun k hout hon => by
  obtain ⟨hkept, himp⟩ := hheard k hout
  exact himp (h k hkept (by simpa [Records.kitchen, hk] using hon))

/-- A kitchen replaced by one that is online only when it is heard. -/
theorem Records.OnlineBut.reformLevel (c : Clock) {k : KitchenNo} {x : Kitchen} {out' : List KitchenNo}
    (hout : ∀ q, q ∉ out' → q ≠ k → q ∉ out) (hx : x.online = true → k ∉ out' → b.Heard k) :
    (b.reformLevel c k x).OnlineBut out' := by
  have hset : (b.setKitchen k { x with active := x.formLevel }).OnlineBut out' := fun q hq hon => by
    by_cases hqk : q = k
    · subst hqk
      rw [Records.setKitchen_kitchen_same] at hon
      exact hx hon hq
    · rw [b.setKitchen_kitchen_other _ hqk] at hon
      exact h q (hout q hq hqk) hon
  exact hset.of_fixtures (b.reformLevel_fixtures c k x)

theorem Records.OnlineBut.terminalReported (c : Clock) {k : KitchenNo} (hk : b.Heard k) (level : Fin 8) :
    (b.terminalReported c k level).OnlineBut out :=
  h.reformLevel c (fun _ hq _ => hq) fun _ _ => hk

theorem Records.OnlineBut.nameTerminal (c : Clock) (kind : NodeKind) (t : Option (LineNo × NodeNo)) :
    (b.nameTerminal c kind t).OnlineBut out := by
  unfold Records.nameTerminal
  split
  · exact h
  · exact h
  · exact h.reformLevel c (fun _ hq _ => hq) fun hon hout => h _ hout hon

end Online

/-- A loss taken takes its kitchen off the list. -/
theorem Records.OnlineBut.terminalLost {b : Records} {k : KitchenNo} {out : List KitchenNo}
    (h : b.OnlineBut (k :: out)) (c : Clock) : (b.terminalLost c k).OnlineBut out :=
  h.reformLevel c (fun q hq hqk => by simp [hq, hqk]) fun hon => nomatch hon

theorem Records.OnlineBut.losses {b : Records} {lost : List KitchenNo} (h : b.OnlineBut lost) (c : Clock) :
    (lost.foldl (fun x k => x.terminalLost c k) b).OnlineBut [] := by
  induction lost generalizing b with
  | nil => exact h
  | cons k rest ih => exact ih (h.terminalLost c)

/-- A line written: the kitchens heard on it, but those of `out`, are still heard. -/
theorem Records.heard_setLine {b : Records} {l : LineNo} {x : Line} {k : KitchenNo} (h : b.Heard k)
    (hx : ∀ n, (b.line l).running = true → ((b.line l).node n).kind = .terminal k →
      ((b.line l).node n).state = .online →
      x.running = true ∧ (x.node n).kind = .terminal k ∧ (x.node n).state = .online) : (b.setLine l x).Heard k := by
  obtain ⟨m, n, hrun, hkind, hstate⟩ := h
  refine ⟨m, n, ?_⟩
  by_cases hm : m = l
  · subst hm; rw [Records.setLine_line_same]; exact hx n hrun hkind hstate
  · rw [b.setLine_line_other _ hm]; exact ⟨hrun, hkind, hstate⟩

theorem Node.onlineTerminal_iff (x : Node) (k : KitchenNo) :
    x.onlineTerminal = some k ↔ x.kind = .terminal k ∧ x.state = .online := by
  unfold Node.onlineTerminal
  split
  · rename_i e; simp [e]
  · rename_i e; simp [e]
  · rename_i e
    by_cases hs : x.state = .online <;> simp [e, hs]

section LineEvents

variable {b : Records} {c : Clock} {l : LineNo} {v : Visit}

theorem Records.OnlineBut.goodAnswer (h : b.OnlineBut []) (hrun : (b.line l).running = true) (payload : List Byte) :
    (b.goodAnswer c l v payload).OnlineBut [] := by
  unfold Records.goodAnswer
  extract_lets ln x y b1 b2
  have hy : y.kind = x.kind ∧ y.state = .online := by
    simp only [y]; split <;> exact ⟨rfl, rfl⟩
  have hset : (b.setLine l (ln.setNode v.node y)).OnlineBut [] := h.of_heard rfl fun k _ => ⟨by simp, fun hk =>
    Records.heard_setLine hk fun n hr hkind hstate => by
      refine ⟨hr, ?_⟩
      by_cases hn : n = v.node
      · subst hn
        rw [Line.setNode_node_same]
        exact ⟨hy.1.trans hkind, hy.2⟩
      · rw [Line.setNode_node_other _ _ hn]
        exact ⟨hkind, hstate⟩⟩
  have h1 : b1.OnlineBut [] := hset.of_fixtures (Records.raiseBack_fixtures _ x)
  have h2 : b2.OnlineBut [] := by
    simp only [b2]
    split
    · exact h1
    · exact h1
    · rename_i k hkind
      have hfix : (b1.terminalAnswered k payload).fixtures = (b.setLine l (ln.setNode v.node y)).fixtures :=
        (b1.terminalAnswered_fixtures k payload).trans (Records.raiseBack_fixtures _ x)
      have hheard : (b.setLine l (ln.setNode v.node y)).Heard k := by
        refine ⟨l, v.node, ?_⟩
        rw [Records.setLine_line_same, Line.setNode_node_same]
        exact ⟨hrun, hy.1.trans hkind, hy.2⟩
      exact (hset.of_fixtures hfix).terminalReported c (Records.heard_of_fixtures hfix hheard) _
  exact h2.of_fixtures (Records.setLine_fixtures _ (Line.visitEnded_fixture _))

theorem Records.OnlineBut.lossOf {x : Node} (h : b.OnlineBut (if x.misses = 2 then x.onlineTerminal.toList else [])) :
    (b.lossOf c x).OnlineBut [] := by
  unfold Records.lossOf
  split
  · rename_i hmisses
    rw [if_pos hmisses] at h
    split
    · rename_i k hk
      rw [hk] at h
      exact h.terminalLost c
    · rename_i hk
      rwa [hk] at h
  · rename_i hmisses
    rwa [if_neg hmisses] at h

theorem Records.OnlineBut.loss (h : b.OnlineBut []) : (b.loss c l v).OnlineBut [] := by
  have h1 := h.of_fixtures (b.settleFrame_fixtures l v)
  unfold Records.loss
  extract_lets b1 ln x b2
  have hset : (b1.setLine l (ln.setNode v.node x.missed)).OnlineBut
      (if x.misses = 2 then x.onlineTerminal.toList else []) := h1.of_heard rfl fun k hk => ⟨by simp, fun hheard =>
    Records.heard_setLine hheard fun n hr hkind hstate => by
      refine ⟨hr, ?_⟩
      by_cases hn : n = v.node
      · subst hn
        have hmisses : x.misses ≠ 2 := fun e => by
          have hterm : x.onlineTerminal = some k := (x.onlineTerminal_iff k).mpr ⟨hkind, hstate⟩
          simp [e, hterm] at hk
        rw [Line.setNode_node_same, Node.missed, if_neg hmisses]
        exact ⟨hkind, hstate⟩
      · rw [Line.setNode_node_other _ _ hn]
        exact ⟨hkind, hstate⟩⟩
  exact (hset.of_fixtures (Records.raiseSilent_fixtures _ x)).lossOf.of_fixtures
    (Records.setLine_fixtures _ (Line.visitEnded_fixture _))

theorem Records.OnlineBut.clearLine (h : b.OnlineBut []) : (b.clearLine c l).OnlineBut [] := by
  unfold Records.clearLine
  extract_lets b1 lost
  have e1 : b1.fixtures = b.fixtures := by
    simp only [b1]
    split
    · exact b.settleFrame_fixtures l _
    · rfl
  have hlost : ∀ n k, ((b1.line l).node n).kind = .terminal k → ((b1.line l).node n).state = .online → k ∈ lost :=
    fun n k hkind hstate => by
      have hn := congrFun (congrArg Line.Fixture.nodes (congrFun (congrArg Records.Fixtures.lines e1) l)) n
      refine List.mem_filterMap.mpr ⟨(b.line l).node n, Vector.mem_toList_iff.mpr (Vector.getElem_mem _), ?_⟩
      exact (Node.onlineTerminal_iff _ _).mpr
        ⟨(congrArg Prod.fst hn).symm.trans hkind, (congrArg Prod.snd hn).symm.trans hstate⟩
  have hset : (b1.setLine l (b1.line l).cleared).OnlineBut lost :=
    (h.of_fixtures e1).of_heard rfl fun k hk => ⟨by simp, fun hheard =>
      Records.heard_setLine hheard fun n _ hkind hstate => absurd (hlost n k hkind hstate) hk⟩
  exact hset.losses c

/-- The losses of a line cleared touch no line. -/
theorem Records.losses_lines (lost : List KitchenNo) (b : Records) :
    (lost.foldl (fun x k => x.terminalLost c k) b).lines = b.lines := by
  induction lost generalizing b with
  | nil => rfl
  | cons k rest ih =>
    refine (ih _).trans ?_
    obtain ⟨-, -, -, -, heq⟩ := b.reformLevel_replaced c k (b.kitchen k).lost
    exact (congrArg Records.lines heq :)

theorem Records.clearLine_state (b : Records) (c : Clock) (l : LineNo) (n : NodeNo) :
    (((b.clearLine c l).line l).node n).state = .unknown := by
  unfold Records.clearLine
  extract_lets b1 lost
  rw [Records.line, Records.losses_lines]
  show (((b1.setLine l (b1.line l).cleared).line l).node n).state = .unknown
  simp [Line.cleared, Line.node, Node.restarted]

end LineEvents

theorem State.enterLine_online {s : State} (h : s.recs.OnlineBut []) (l : LineNo) (run : Bool) :
    (s.enterLine l run).recs.OnlineBut [] := by
  unfold State.enterLine
  dsimp only
  split
  · exact h
  · exact h
  · exact h.of_heard rfl fun k _ => ⟨by simp, fun hk =>
      Records.heard_setLine hk fun n _ hkind hstate => ⟨rfl, hkind, hstate⟩⟩
  · have hclear := h.clearLine (c := s.clk) (l := l)
    exact hclear.of_heard rfl fun k _ => ⟨by simp, fun hk => Records.heard_setLine hk fun n _ _ hstate => by
      nomatch (s.recs.clearLine_state s.clk l n).symm.trans hstate⟩

theorem Records.configuredWith_heard {b : Records} {k : KitchenNo} (h : b.Heard k) (l : LineNo) (timeout refresh : Nat) :
    (b.setLine l ((b.line l).configuredWith timeout refresh)).Heard k :=
  Records.heard_setLine h fun n hrun hkind hstate => by
    refine ⟨hrun, ?_⟩
    simp only [Line.configuredWith, Line.node, Vector.getElem_map]
    split <;> exact ⟨hkind, hstate⟩

theorem Records.heard_of_terminalOnline {b : Records} {k : KitchenNo} (h : b.terminalOnline k = true) : b.Heard k := by
  unfold Records.terminalOnline at h
  split at h
  · simp only [Bool.and_eq_true, decide_eq_true_eq] at h
    obtain ⟨hrun, hkind, hstate⟩ := h
    exact ⟨_, _, hrun, hkind, hstate⟩
  · cases h

/-! ## WRITE_NODE checked (R151) -/

theorem Records.nodeKindOf_panel {b : Records} {kind target : Nat} {r : RoomNo}
    (h : b.nodeKindOf kind target = .ok (.panel r)) : (b.room r).attrs.members = none := by
  unfold Records.nodeKindOf at h
  split at h
  · split at h
    · cases h
    · split at h
      · rename_i hroom
        cases h
        simpa [Room.isCombined] using (Bool.and_eq_true_iff.mp hroom).2
      · cases h
  · split at h
    · split at h <;> cases h
    · cases h

theorem Records.namedElsewhere_false {b : Records} {l : LineNo} {n : NodeNo} {kind : NodeKind}
    (h : b.namedElsewhere l n kind = false) (hused : kind ≠ .unused) (l' : LineNo) (n' : NodeNo)
    (hkind : ((b.line l').node n').kind = kind) : l' = l ∧ n' = n := by
  simp only [Records.namedElsewhere, Bool.and_eq_false_iff, decide_eq_false_iff_not, not_not, List.any_eq_false,
    List.mem_finRange, forall_const, Bool.not_eq_true] at h
  rcases h with h | h
  · exact absurd h hused
  · rcases h l' n' with h | h
    · exact absurd hkind h
    · simpa using h

/-- What a WRITE_NODE that passes the checks has found. -/
theorem Records.judgeNode_ok {b : Records} {l : LineNo} {n : NodeNo} {kind target : Nat} {k : NodeKind}
    (h : b.judgeNode l n kind target = .ok k) : (b.line l).running = false ∧
      (k ≠ .unused → ∀ l' n', ((b.line l').node n').kind = k → l' = l ∧ n' = n) ∧
      ∀ r, k = .panel r → (b.room r).attrs.members = none := by
  unfold Records.judgeNode at h
  split at h
  · cases h
  · rename_i hline
    split at h
    · cases h
    · rename_i hkind
      split at h
      · cases h
      · rename_i hfree
        cases h
        have hrun := firstRefusal_eq_none.mp hline (!(b.line l).running, .lineRunning) (by simp)
        have hnamed := firstRefusal_eq_none.mp hfree (!b.namedElsewhere l n k, .nodeInUse) (by simp)
        refine ⟨by simpa using hrun, Records.namedElsewhere_false (by simpa using hnamed), ?_⟩
        rintro r rfl
        exact Records.nodeKindOf_panel hkind

theorem Records.OnlineBut.writeNode {b : Records} (h : b.OnlineBut []) {l : LineNo} (hrun : (b.line l).running = false)
    (c : Clock) (n : NodeNo) (kind : NodeKind) : (b.writeNode c l n kind).OnlineBut [] := by
  have hset : (b.setLine l ((b.line l).setNode n (Node.written kind))).OnlineBut [] :=
    h.of_heard rfl fun k _ => ⟨by simp, fun hk =>
      Records.heard_setLine hk fun _ hon => by rw [hrun] at hon; cases hon⟩
  unfold Records.writeNode
  dsimp only
  split
  · exact hset.nameTerminal c _ _
  · exact (hset.nameTerminal c _ _).nameTerminal c _ _

/-! ## Every command -/

theorem Records.OnlineBut.of_tables {b b' : Records} (h : b.OnlineBut []) (hk : b'.kitchens = b.kitchens)
    (hl : b'.lines = b.lines) : b'.OnlineBut [] :=
  h.of_heard hk fun k _ => ⟨by simp, fun ⟨l, n, hheard⟩ => ⟨l, n, by simpa only [Records.line, hl] using hheard⟩⟩

theorem State.Stirs.online {s : State} {i : Instr} {b : Records} (hb : s.Stirs i b)
    (hlines : ∀ l : LineNo, (s.recs.line l).Lawful) (h : s.recs.OnlineBut []) : b.OnlineBut [] := by
  cases hb with
  | reserve => exact h.of_tables (Records.judgeFloor_kitchens _) (Records.judgeFloor_lines _)
  | horizon => exact h.of_tables rfl rfl
  | masks => exact h.of_tables rfl rfl
  | @banks _ _ k banks =>
    have hset : (s.recs.setKitchen k { (s.recs.kitchen k) with banks := banks }).OnlineBut [] := fun q hq hon => by
      by_cases hqk : q = k
      · subst hqk
        exact h q hq (by simpa using hon)
      · rw [Records.setKitchen_kitchen_other _ _ hqk] at hon
        exact h q hq hon
    exact hset.of_fixtures (Records.changeKitchen_fixtures ..)
  | @hours _ _ _ _ _ k => exact h.reformLevel s.clk (fun _ hq _ => hq) fun hon hk => h k hk hon
  | @staffing _ _ _ k => exact h.reformLevel s.clk (fun _ hq _ => hq) fun hon hk => h k hk hon
  | @answered _ l v payload hv =>
    obtain ⟨-, -, -, -, -, hidle, -⟩ := hlines l
    refine h.goodAnswer ?_ payload
    by_contra hrun
    rw [hidle (by simpa using hrun)] at hv
    cases hv
  | lost => exact h.loss
  | reported hk => exact h.terminalReported s.clk (Records.heard_of_terminalOnline hk) _
  | unheard => exact Records.OnlineBut.terminalLost (fun q _ hon => h q (by simp) hon) s.clk
  | @restarted _ l =>
    refine (h.clearLine (c := s.clk) (l := l)).of_fixtures (Records.setLine_fixtures _ ?_)
    unfold Line.sweepAnew
    split <;> rfl
  | @entered _ _ _ _ _ tm rf l run =>
    have hset : (s.setLine l ((s.recs.line l).configuredWith tm rf)).recs.OnlineBut [] :=
      h.of_heard (b' := s.recs.setLine l _) rfl fun k _ =>
        ⟨by simp, fun hk => Records.configuredWith_heard hk l tm rf⟩
    exact State.enterLine_online hset l run
  | wired hk => exact h.writeNode (Records.judgeNode_ok hk).1 s.clk _ _

/-- A command keeps every room a node shows plain (R33, R147), HARD_RESET apart. -/
theorem exec_plain {i : Instr} {s t : State} (hreset : i ≠ .hardReset) (h : exec i s = .next t) {r : RoomNo}
    (hpanel : s.recs.panelNames r = true) (hplain : (s.recs.room r).attrs.members = none) :
    (t.recs.room r).attrs.members = none := by
  have of_naming : ∀ {b : Records}, t.recs.naming = b.naming → (b.room r).attrs.members = none →
      (t.recs.room r).attrs.members = none := fun e hb => by
    rw [((Records.naming_eq_iff _ _).mp e r).1]; exact hb
  by_cases hwrite : ∃ tag a, i = .writeRoom tag a
  · obtain ⟨tag, a, rfl⟩ := hwrite
    rcases State.serve_recs (act := State.writeRoom a) h with e | e
    · rwa [e]
    · rcases s.writeRoom_recs a with e' | ⟨q, x, hjudge, e'⟩
      · rwa [e, e']
      · refine of_naming ((congrArg Records.naming (e.trans e')).trans (Records.writeRoom_naming _ q x)) ?_
        rw [Records.withAttrs_room]
        obtain ⟨-, -, -, -, -, -, hattrs⟩ := Records.judgeWriteRoom_ok hjudge
        by_cases hr : r = q
        · subst hr
          have hfree := firstRefusal_eq_none.mp hattrs (_, .nodeInUse) List.mem_cons_self
          simpa [hpanel] using hfree
        · simpa [hr] using hplain
  by_cases hremove : ∃ tag n, i = .writeRoomRemove tag n
  · obtain ⟨tag, n, rfl⟩ := hremove
    rcases State.serve_recs (act := State.writeRoomRemove n) h with e | e
    · rwa [e]
    · rcases s.writeRoomRemove_recs n with e' | ⟨q, e'⟩
      · rwa [e, e']
      · refine of_naming ((congrArg Records.naming (e.trans e')).trans (Records.removeRoom_naming _ q)) ?_
        rw [Records.withAttrs_room]
        by_cases hr : r = q
        · simp [hr, RoomAttrs.reset]
        · simpa [hr] using hplain
  · exact of_naming (exec_naming hreset (fun tag a e => hwrite ⟨tag, a, e⟩) (fun tag n e => hremove ⟨tag, n, e⟩) h)
      hplain

/-- The laws of the node table, of who names what (R102, R147, R151). -/
def Records.Wired (b : Records) : Prop := b.NodesLawful ∧ b.TerminalsLawful

/-- The wiring read from the configuration and the rooms. -/
theorem Records.Wired.of_config {b b' : Records} (h : b.Wired) (hkind : b'.config.kind = b.config.kind)
    (hterminal : b'.config.terminal = b.config.terminal)
    (hplain : ∀ r, b.panelNames r = true → (b.room r).attrs.members = none → (b'.room r).attrs.members = none) :
    b'.Wired := by
  have hk : ∀ l n, ((b'.line l).node n).kind = ((b.line l).node n).kind := fun l n => congrFun (congrFun hkind l) n
  have ht : ∀ k, (b'.kitchen k).terminal = (b.kitchen k).terminal := congrFun hterminal
  obtain ⟨⟨hunique, hrooms⟩, hterminals⟩ := h
  refine ⟨⟨fun l l' n n' => ?_, fun l n r hpanel => ?_⟩, fun k l n => ?_⟩
  · rw [hk, hk]; exact hunique l l' n n'
  · rw [hk] at hpanel
    exact hplain r ((b.panelNames_iff r).mpr ⟨l, n, hpanel⟩) (hrooms l n r hpanel)
  · rw [ht, hk]; exact hterminals k l n

theorem State.writeNode_recs (s : State) (line node kind target : Nat) :
    (s.writeNode line node kind target).1.recs = s.recs ∨ ∃ l n k, s.recs.judgeNode l n kind target = .ok k ∧
      (s.writeNode line node kind target).1.recs = s.recs.writeNode s.clk l n k := by
  unfold State.writeNode
  split
  · exact .inl rfl
  · split
    · exact .inl rfl
    · rename_i hjudge; exact .inr ⟨_, _, _, hjudge, rfl⟩

/-- A node written as R151 checks it keeps the wiring. -/
theorem Records.Wired.writeNode {b : Records} (h : b.Wired) {l : LineNo} {n : NodeNo} {kind target : Nat}
    {k : NodeKind} (hjudge : b.judgeNode l n kind target = .ok k) (c : Clock)
    (hplain : ∀ r, ((b.writeNode c l n k).room r).attrs.members = (b.room r).attrs.members) :
    (b.writeNode c l n k).Wired := by
  obtain ⟨⟨hunique, hrooms⟩, hterminals⟩ := h
  obtain ⟨-, hfree, hpanels⟩ := Records.judgeNode_ok hjudge
  have hconfig := b.writeNode_config c l n k
  have hkind : ∀ l' n', (((b.writeNode c l n k).line l').node n').kind =
      if l' = l ∧ n' = n then k else ((b.line l').node n').kind := fun l' n' =>
    congrFun (congrFun (congrArg Records.Config.kind hconfig) l') n'
  have hterm : ∀ q, ((b.writeNode c l n k).kitchen q).terminal = if k = .terminal q then some (l, n)
      else if ((b.line l).node n).kind = .terminal q then none else (b.kitchen q).terminal := fun q =>
    congrFun (congrArg Records.Config.terminal hconfig) q
  refine ⟨⟨fun l1 l2 n1 n2 hused hsame => ?_, fun l1 n1 r hpanel => ?_⟩, fun q l1 n1 => ?_⟩
  · rw [hkind] at hused
    rw [hkind, hkind] at hsame
    by_cases h1 : l1 = l ∧ n1 = n <;> by_cases h2 : l2 = l ∧ n2 = n
    · exact ⟨h1.1.trans h2.1.symm, h1.2.trans h2.2.symm⟩
    · rw [if_pos h1] at hused hsame
      rw [if_neg h2] at hsame
      exact absurd (hfree hused l2 n2 hsame.symm) h2
    · rw [if_neg h1] at hused hsame
      rw [if_pos h2] at hsame
      exact absurd (hfree (hsame ▸ hused) l1 n1 hsame) h1
    · rw [if_neg h1] at hused hsame
      rw [if_neg h2] at hsame
      exact hunique l1 l2 n1 n2 hused hsame
  · rw [hplain]
    rw [hkind] at hpanel
    by_cases h1 : l1 = l ∧ n1 = n
    · rw [if_pos h1] at hpanel; exact hpanels r hpanel
    · rw [if_neg h1] at hpanel; exact hrooms l1 n1 r hpanel
  · rw [hkind, hterm]
    by_cases hq : k = .terminal q
    · rw [if_pos hq, Option.some.injEq, Prod.mk.injEq]
      by_cases h1 : l1 = l ∧ n1 = n
      · simp [h1, hq]
      · rw [if_neg h1]
        exact ⟨fun e => absurd ⟨e.1.symm, e.2.symm⟩ h1, fun e => absurd (hfree (by simp [hq]) l1 n1 (e.trans hq.symm)) h1⟩
    · rw [if_neg hq]
      by_cases h1 : l1 = l ∧ n1 = n
      · obtain ⟨rfl, rfl⟩ := h1
        simp only [and_self, if_true, hq, iff_false]
        by_cases hold : ((b.line l1).node n1).kind = .terminal q
        · simp [hold]
        · rw [if_neg hold]
          exact fun e => hold ((hterminals q l1 n1).mp e)
      · rw [if_neg h1]
        by_cases hold : ((b.line l).node n).kind = .terminal q
        · rw [if_pos hold]
          refine ⟨nofun, fun e => absurd (hunique l1 l n1 n (by simp [e]) (e.trans hold.symm)) h1⟩
        · rw [if_neg hold]
          exact hterminals q l1 n1

/-- Neither the node nor the level of a kitchen is an item of a room. -/
theorem Records.reformLevel_rooms (b : Records) (c : Clock) (k : KitchenNo) (x : Kitchen) :
    (b.reformLevel c k x).rooms = b.rooms := by
  obtain ⟨-, -, -, -, heq⟩ := b.reformLevel_replaced c k x
  exact (congrArg Records.rooms heq :)

theorem Records.nameTerminal_rooms (b : Records) (c : Clock) (kind : NodeKind) (t : Option (LineNo × NodeNo)) :
    (b.nameTerminal c kind t).rooms = b.rooms := by
  unfold Records.nameTerminal
  split
  · rfl
  · rfl
  · exact b.reformLevel_rooms c _ _

theorem Records.writeNode_rooms (b : Records) (c : Clock) (l : LineNo) (n : NodeNo) (kind : NodeKind) :
    (b.writeNode c l n kind).rooms = b.rooms := by
  unfold Records.writeNode
  dsimp only
  rw [Records.nameTerminal_rooms]
  split
  · rfl
  · exact Records.nameTerminal_rooms ..

theorem exec_keeps_wired {i : Instr} {s t : State} (h : exec i s = .next t) (hw : s.recs.Wired) : t.recs.Wired := by
  by_cases hreset : i = .hardReset
  · subst hreset; cases h
    exact ⟨Records.reset_nodesLawful, Records.reset_terminalsLawful⟩
  have hsame : t.recs.config.kind = s.recs.config.kind ∧ t.recs.config.terminal = s.recs.config.terminal →
      t.recs.Wired := fun ⟨hk, ht⟩ => hw.of_config hk ht fun r => exec_plain hreset h
  by_cases hwrite : ∃ tag l n k g, i = .writeNode tag l n k g
  · obtain ⟨tag, line, node, kind, target, rfl⟩ := hwrite
    have hserve : s.serve _ (State.writeNode line node kind target) = .next t := h
    rcases State.serve_recs hserve with e | e
    · exact e ▸ hw
    · rcases s.writeNode_recs line node kind target with e' | ⟨l, n, k, hjudge, e'⟩ <;> rw [e, e']
      · exact hw
      · exact hw.writeNode hjudge s.clk fun r => by simp only [Records.room, Records.writeNode_rooms]
  · have hkept := Records.Config.written_kind s.recs.config t.recs.config (i := i)
      fun tag l n k g e => hwrite ⟨tag, l, n, k, g, e⟩
    have hconfig := exec_config hreset h
    exact hsame ⟨(congrArg Records.Config.kind hconfig).trans hkept.1,
      (congrArg Records.Config.terminal hconfig).trans hkept.2⟩

theorem exec_keeps_online {i : Instr} {s t : State} (h : exec i s = .next t)
    (hlines : ∀ l : LineNo, (s.recs.line l).Lawful) (hon : s.recs.OnlineBut []) : t.recs.OnlineBut [] := by
  rcases exec_steps h with ⟨-, e | hb⟩ | rfl | ⟨tag, c, w, u, l, rfl⟩
  · exact hon.of_fixtures e
  · exact hb.online hlines hon
  · cases h
    exact (Records.onlineLawful_iff _).mp Records.reset_onlineLawful
  · rcases State.serve_recs (act := State.writeMenuClass c w u l) h with e | e <;> rw [e]
    · exact hon
    · rwa [s.writeMenuClass_recs]

/-- Settles O13: the wiring by `exec_config`, the terminals online by the commands of `State.Stirs`. -/
theorem stepKeepsNodeTable : Obligations.StepKeepsNodeTable := by
  intro s t hnodes hterminals h
  rcases step_exec h with rfl | ⟨i, rest, h⟩
  · exact ⟨hnodes, hterminals, fun _ hon => hon⟩
  · obtain ⟨hnodes', hterminals'⟩ := exec_keeps_wired h ⟨hnodes, hterminals⟩
    refine ⟨hnodes', hterminals', fun hlines hon => ?_⟩
    rw [Records.onlineLawful_iff] at hon ⊢
    exact exec_keeps_online h hlines hon

end Sys2Proof.Machine

/-! The load arithmetic (R105 to R108). -/

namespace Sys2Proof.Machine

open Sys2Proof

/-- Stages 2 and 3, window by window. -/
theorem spread_eq (units lead wd : Nat) : spread units lead wd = (List.range lead).map fun i : Nat =>
    ((wd : Int) - (lead : Int) + (i : Int), units / lead + if lead ≤ i + units % lead then 1 else 0) := by
  have hlist : (do let i ← List.range lead; pure (i : Int)) = (List.range lead).map fun i : Nat => (i : Int) :=
    List.flatMap_pure_eq_map ..
  rw [spread, hlist, List.map_map]
  refine List.map_congr_left fun i _ => ?_
  have hwhen : ((lead : Int) - ((units % lead : Nat) : Int) ≤ (i : Int)) ↔ lead ≤ i + units % lead := by omega
  simp only [Function.comp_apply]
  push_cast at hwhen
  simp only [hwhen]

/-- The sum of `lead` windows of `base` units of which the latest `more` have one more. -/
theorem sum_base_remainder {lead more : Nat} (base : Nat) (h : more ≤ lead) :
    ((List.range lead).map fun i => base + if lead ≤ i + more then 1 else 0).sum = lead * base + more := by
  have hsplit : List.range lead = List.range (lead - more) ++ (List.range more).map (lead - more + ·) := by
    rw [← List.range_add, Nat.sub_add_cancel h]
  have hearly : (List.range (lead - more)).map (fun i => base + if lead ≤ i + more then 1 else 0) =
      (List.range (lead - more)).map fun _ => base := List.map_congr_left fun i hi => by
    have hi := List.mem_range.mp hi
    rw [if_neg (by omega), Nat.add_zero]
  have hlate : ((List.range more).map (lead - more + ·)).map (fun i => base + if lead ≤ i + more then 1 else 0) =
      (List.range more).map fun _ => base + 1 := by
    rw [List.map_map]
    exact List.map_congr_left fun i _ => by simp only [Function.comp_apply]; rw [if_pos (by omega)]
  rw [hsplit, List.map_append, hearly, hlate]
  simp only [List.sum_append, List.map_const', List.length_range, List.sum_replicate, smul_eq_mul]
  obtain ⟨d, rfl⟩ := Nat.exists_eq_add_of_le h
  rw [Nat.add_sub_cancel_left]
  ring

theorem spread_sum (units wd : Nat) {lead : Nat} (h : 1 ≤ lead) :
    ((spread units lead wd).map fun x => x.2).sum = units := by
  rw [spread_eq, List.map_map]
  exact (sum_base_remainder _ (Nat.mod_lt _ h).le).trans (Nat.div_add_mod ..)

/-! ## The late drop (R108) -/

theorem lateDrop_none_iff (w0 : Nat) (prep : List (Int × Nat)) :
    lateDrop w0 prep = none ↔ ∀ x ∈ prep, x.1 ≤ (w0 : Int) := by
  unfold lateDrop
  dsimp only
  split
  · rename_i heq
    simpa using heq
  · rename_i heq
    simp only [reduceCtorEq, false_iff]
    intro hall
    rw [List.filter_eq_nil_iff.mpr fun x hx => by simpa using hall x hx] at heq
    cases heq

/-- Stage 4 keeps the sum. -/
theorem lateDrop_sum {w0 : Nat} {prep : List (Int × Nat)} {l : List (Nat × Nat)} (h : lateDrop w0 prep = some l) :
    (l.map Prod.snd).sum = (prep.map Prod.snd).sum := by
  have hparts : (prep.map Prod.snd).sum = ((prep.filter fun x => decide (x.1 ≤ (w0 : Int))).map fun x => x.2).sum +
      ((prep.filter fun x => decide ((w0 : Int) < x.1)).map Prod.snd).sum := by
    clear h
    induction prep with
    | nil => rfl
    | cons x prep ih =>
      by_cases hx : x.1 ≤ (w0 : Int)
      · simp [hx, ih, Nat.add_assoc]
      · simp [hx, ih, not_le.mp hx, Nat.add_left_comm]
  unfold lateDrop at h
  dsimp only at h
  split at h
  · cases h
  · rename_i w u rest heq
    cases h
    have hsnd : ((prep.filter fun x => decide ((w0 : Int) < x.1)).map Prod.snd).sum = u + (rest.map Prod.snd).sum := by
      have e := congrArg (fun l => (l.map Prod.snd).sum) heq
      simpa [List.map_map, Function.comp_def] using e
    rw [hparts, hsnd]
    simp only [List.map_cons, List.sum_cons]
    omega

/-- Stage 4 leaves the units of every window that remains but the earliest. -/
theorem lateDrop_later {w0 : Nat} {prep : List (Int × Nat)} {l : List (Nat × Nat)} (h : lateDrop w0 prep = some l)
    {p : Nat × Nat} (hp : p ∈ l) (hlater : p.1 ≠ (l.head?.map Prod.fst).getD 0) :
    ∃ x ∈ prep, (w0 : Int) < x.1 ∧ x.1.toNat = p.1 ∧ x.2 = p.2 := by
  unfold lateDrop at h
  dsimp only at h
  split at h
  · cases h
  · rename_i w u rest heq
    cases h
    have hrest : p ∈ (w, u) :: rest := by
      rcases List.mem_cons.mp hp with rfl | hp
      · exact absurd rfl hlater
      · exact List.mem_cons_of_mem _ hp
    rw [← heq] at hrest
    obtain ⟨x, hx, rfl⟩ := List.mem_map.mp hrest
    obtain ⟨hmem, hlt⟩ := List.mem_filter.mp hx
    exact ⟨x, hmem, of_decide_eq_true hlt, rfl, rfl⟩

/-- The windows that stage 4 leaves run from the later of the next window and the first prep window to the one before
the delivery window. -/
theorem lateDrop_spread_windows {units lead wd w0 : Nat} {l : List (Nat × Nat)}
    (h : lateDrop w0 (spread units lead wd) = some l) :
    l.map Prod.fst = List.range' (max (w0 + 1) (wd - lead)) (wd - max (w0 + 1) (wd - lead)) := by
  have hsorted : (l.map Prod.fst).Pairwise (· < ·) := by
    rw [lateDrop_windows h]
    refine List.pairwise_map.mpr (List.Pairwise.imp_of_mem (fun {y z} hy _ hyz => ?_)
      ((spread_sorted _ _ _).filter _))
    have hy0 := of_decide_eq_true (List.mem_filter.mp hy).2
    omega
  refine List.Perm.eq_of_pairwise (le := (· < ·)) (fun _ _ _ _ hab hba => absurd hba (Nat.lt_asymm hab)) hsorted
    List.pairwise_lt_range' ?_
  refine (List.perm_ext_iff_of_nodup (hsorted.imp Nat.ne_of_lt) List.nodup_range').mpr fun w => ?_
  have hspread : ∀ x : Int, x ∈ (spread units lead wd).map Prod.fst ↔ ∃ i < lead, (wd : Int) - lead + (i : Int) = x :=
    fun x => by simp [spread_windows]
  rw [lateDrop_windows h, List.mem_range'_1]
  simp only [List.mem_map, List.mem_filter, decide_eq_true_eq]
  constructor
  · rintro ⟨x, ⟨hx, hlt⟩, rfl⟩
    obtain ⟨i, hi, e⟩ := (hspread x.1).mp (List.mem_map_of_mem hx)
    omega
  · intro hw
    obtain ⟨x, hx, e⟩ := List.mem_map.mp ((hspread w).mpr ⟨w + lead - wd, by omega, by omega⟩)
    exact ⟨x, ⟨hx, by omega⟩, by omega⟩

/-- A share of a computed load behind the prep start window has the units of its window. -/
theorem computeLoad_later {m : MenuClass} {heads delivery w0 : Nat} {x : Load}
    (h : computeLoad m heads delivery w0 = some x) {p : Nat × Nat} (hp : p ∈ x.shares) (hlater : p.1 ≠ x.prepStart) :
    p.2 = loadUnits m heads / m.lead + if delivery / 30 - p.1 ≤ loadUnits m heads % m.lead then 1 else 0 := by
  obtain ⟨l, hl, rfl⟩ := Option.map_eq_some_iff.mp h
  obtain ⟨y, hy, hlt, hwindow, hunits⟩ := lateDrop_later hl hp hlater
  rw [spread_eq] at hy
  obtain ⟨i, hi, rfl⟩ := List.mem_map.mp hy
  have hi := List.mem_range.mp hi
  dsimp only at hlt hwindow hunits
  have hwhen : (m.lead ≤ i + loadUnits m heads % m.lead) ↔ delivery / 30 - p.1 ≤ loadUnits m heads % m.lead := by
    simp only [windowOf] at hlt hwindow
    omega
  simp only [← hunits, hwhen]

theorem computeLoad_none_iff {m : MenuClass} (hm : 1 ≤ m.lead) (heads delivery w0 : Nat) :
    computeLoad m heads delivery w0 = none ↔ delivery / 30 ≤ w0 + 1 := by
  rw [computeLoad, Option.map_eq_none_iff, lateDrop_none_iff, spread_eq]
  simp only [List.forall_mem_map, List.mem_range, windowOf]
  constructor
  · intro h
    have hlast := h (m.lead - 1) (by omega)
    omega
  · intro h i hi
    omega

/-- The windows of a computed load are those from its prep start window on. -/
theorem computeLoad_range {m : MenuClass} {heads delivery w0 : Nat} {x : Load}
    (h : computeLoad m heads delivery w0 = some x) : x.prepStart = max (w0 + 1) (delivery / 30 - m.lead) ∧
      (x.shares.map fun p => p.1) = List.range' x.prepStart (delivery / 30 - x.prepStart) := by
  obtain ⟨l, hl, rfl⟩ := Option.map_eq_some_iff.mp h
  have hw := lateDrop_spread_windows hl
  have hstart : Load.prepStart ⟨loadUnits m heads, l⟩ = max (w0 + 1) (delivery / 30 - m.lead) := by
    cases l with
    | nil => simp [lateDrop] at hl; split at hl <;> cases hl
    | cons p rest =>
      have hlen : delivery / 30 - max (w0 + 1) (delivery / 30 - m.lead) = rest.length + 1 := by
        simpa [windowOf] using (congrArg List.length hw).symm
      have hhead := congrArg List.head? hw
      simp only [windowOf, hlen, List.range'_succ] at hhead
      simpa [Load.prepStart] using hhead
  exact ⟨hstart, hstart ▸ hw⟩

/-- Settles O45, stage by stage. -/
theorem loadArithmetic : Obligations.LoadArithmetic := by
  intro m heads delivery w0 hlead u wd
  have hu : u = m.setup + (heads * m.weight + 15) / 16 := rfl
  refine ⟨by omega, by omega, by omega, by simp [spread_eq], spread_sum u wd hlead, fun i hi => ?_, fun hh hw hs => ?_,
    fun hh => ?_, computeLoad_none_iff hlead heads delivery w0, fun x hx => ?_⟩
  · simp [spread_eq, hi]
  · have hmul : heads * m.weight ≤ 250 * 255 := Nat.mul_le_mul hh hw
    omega
  · have hzero : heads * m.weight = 0 ↔ m.weight = 0 := by simp; omega
    omega
  · obtain ⟨hstart, hrange⟩ := computeLoad_range hx
    obtain ⟨l, hl, rfl⟩ := Option.map_eq_some_iff.mp hx
    exact ⟨rfl, hstart, hrange, (lateDrop_sum hl).trans (spread_sum u wd hlead), fun p => computeLoad_later hx⟩

end Sys2Proof.Machine

/-! The settings of a kitchen and the events of its terminal (R101, R102, R122 to R124). -/

namespace Sys2Proof.Machine

open Sys2Proof

/-! ## A kitchen replaced -/

/-- A kitchen replaced without a change of its active level. -/
theorem Records.changeKitchen_replaced (b : Records) (c : Clock) (k : KitchenNo) {x : Kitchen}
    (hactive : x.active = (b.kitchen k).active) : b.KitchenReplaced (b.changeKitchen c k x) c k x := by
  have htrigger : (capacityDiffers (b.kitchen k) x && b.triggersAct c) = true ↔
      (∃ i, i < 48 ∧ (b.kitchen k).capacityAt (30 * i) ≠ x.capacityAt (30 * i)) ∧
      b.pool.state = .ready ∧ c.state ≠ .unset := by
    simp [capacityDiffers, Records.triggersAct]
  have hform : x.capacityTrigger c.w0 =
      if x.pass = .idle then { x with pass := .shedding (c.minute / 30 + 1) } else { x with restart := true } := by
    unfold Kitchen.capacityTrigger
    split <;> rename_i hpass <;> simp [hpass, Clock.w0, windowOf]
  simp only [Records.KitchenReplaced, ← htrigger, Records.changeKitchen, if_pos hactive]
  refine ⟨fun h => ?_, fun h => ?_, fun q hq => ?_, ?_, ?_⟩
  · rw [if_neg h, Records.setKitchen_kitchen_same]
  · rw [if_pos h, Records.setKitchen_kitchen_same, hform]
  · split <;> exact Records.setKitchen_kitchen_other _ _ hq
  · split <;> rfl
  · split <;> rfl

/-- A trigger writes pass and restart mark alone (R116). -/
theorem Records.KitchenReplaced.kitchen {b b' : Records} {c : Clock} {k : KitchenNo} {x : Kitchen}
    (h : b.KitchenReplaced b' c k x) : ∃ p r, b'.kitchen k = { x with pass := p, restart := r } := by
  obtain ⟨hquiet, htrigger, -⟩ := h
  by_cases ht : (∃ i, i < 48 ∧ (b.kitchen k).capacityAt (30 * i) ≠ x.capacityAt (30 * i)) ∧
      b.pool.state = .ready ∧ c.state ≠ .unset
  · rw [htrigger ht]
    split
    · exact ⟨_, x.restart, rfl⟩
    · exact ⟨x.pass, _, rfl⟩
  · exact ⟨x.pass, x.restart, hquiet ht⟩

/-! ## The settings (R122 to R124) -/

/-- SET_STAFFING answered at once: its code, whether it carries a level or not. -/
theorem exec_setStaffing_idle {s s' : State} {tag : Byte} {n : Nat} {v : Option Nat} {st : Status} {p : List Byte}
    (h : s.port.state = .idle) (ha : s.setStaffing n v = (s', .now st p)) :
    exec (.setStaffing tag n v) s = .next (s'.respond 83 tag st p) := by
  have hcode : codeTag (.setStaffing tag n v) = (83, tag) := by
    cases v <;> rfl
  have hserve := State.serve_idle_now (cmd := .setStaffing tag n v) (act := State.setStaffing n v) h ha
  rwa [hcode] at hserve

/-- Settles O46: each check by its number, and the kitchen replaced by `reformLevel_replaced`. -/
theorem kitchenSettingsApplied : Obligations.KitchenSettingsApplied := by
  intro tag s hidle formed hours
  refine ⟨fun c w u l h => ?_, fun c w u l hw hu h1 h4 => ?_, fun n hn => ⟨fun banks => ?_, fun o c f => ?_, fun v => ?_⟩,
    fun k => ⟨fun banks h => ?_, fun banks h => ?_, fun o c f h => ?_, fun o c f h => ?_, fun v hv => ?_, fun v => ?_⟩⟩
  · refine State.serve_idle_now hidle ?_
    unfold State.writeMenuClass
    split
    · rfl
    · rename_i m hm
      have hc : c < 16 := by
        by_contra hc
        rw [menuNo?_none (by omega)] at hm
        cases hm
      rw [if_neg (by omega)]
      rfl
  · exact State.serve_idle_now hidle (by rw [State.writeMenuClass, menuNo?_val]; exact if_pos ⟨hw, hu, h1, h4⟩)
  · exact State.serve_idle_now hidle (by rw [State.writeBanks, kitchenNo?_none hn]; rfl)
  · exact State.serve_idle_now hidle (by rw [State.writeKitchen, kitchenNo?_none hn]; rfl)
  · exact exec_setStaffing_idle hidle (by rw [State.setStaffing, kitchenNo?_none hn]; rfl)
  · refine State.serve_idle_now hidle ?_
    rw [State.writeBanks, kitchenNo?_val]
    refine if_neg fun hall => ?_
    obtain ⟨c, hc, hlt⟩ := h
    exact absurd (of_decide_eq_true (List.all_eq_true.mp hall c hc)) (by omega)
  · have hreplaced := s.recs.changeKitchen_replaced s.clk k
      (x := { (s.recs.kitchen k) with banks := banks }) rfl
    refine ⟨_, State.serve_idle_now hidle ?_, hreplaced⟩
    obtain ⟨p, r, hk⟩ := hreplaced.kitchen
    rw [State.writeBanks, kitchenNo?_val]
    refine (if_pos (List.all_eq_true.mpr fun c hc => decide_eq_true (h c hc))).trans ?_
    simp only [hk]
    rfl
  · refine State.serve_idle_now hidle ?_
    rw [State.writeKitchen, kitchenNo?_val]
    dsimp only
    split
    · rfl
    · rename_i f' hf
      have hlt : f < 8 := by
        unfold level? at hf
        split at hf
        · assumption
        · cases hf
      refine if_neg fun hok => ?_
      rcases h with h | h
      · omega
      · exact h ((hoursOk_iff o c).mp hok)
  · have hreplaced := s.recs.reformLevel_replaced s.clk k
      { (s.recs.kitchen k) with opens := o, closes := c, fallback := f }
    rw [Kitchen.formLevel_eq] at hreplaced
    refine ⟨_, State.serve_idle_now hidle ?_, hreplaced⟩
    obtain ⟨p, r, hk⟩ := hreplaced.kitchen
    rw [State.writeKitchen, kitchenNo?_val]
    have hf : level? f.val = some f := dif_pos f.isLt
    simp only [hf]
    refine (if_pos ((hoursOk_iff o c).mpr h)).trans ?_
    simp only [hk]
    rfl
  · refine exec_setStaffing_idle hidle ?_
    have hnone : level? v = none := dif_neg (by omega)
    rw [State.setStaffing, kitchenNo?_val]
    simp only [staffingLevel, hnone, Option.map_none]
    rfl
  · have hreplaced := s.recs.reformLevel_replaced s.clk k { (s.recs.kitchen k) with override := v }
    rw [Kitchen.formLevel_eq] at hreplaced
    refine ⟨_, exec_setStaffing_idle hidle ?_, hreplaced⟩
    obtain ⟨p, r, hk⟩ := hreplaced.kitchen
    have hv : staffingLevel (v.map Fin.val) = some v := by
      cases v with
      | none => rfl
      | some f => exact congrArg (Option.map some) (dif_pos f.isLt : level? f.val = some f)
    rw [State.setStaffing, kitchenNo?_val]
    simp only [hv, hk]
    rfl

/-! ## Terminal events taken alone (R102) -/

theorem Records.terminalOnline_iff (b : Records) (k : KitchenNo) : b.terminalOnline k = true ↔
    ∃ (l : LineNo) (n : NodeNo), (b.kitchen k).terminal = some (l, n) ∧ (b.line l).running = true ∧
      ((b.line l).node n).kind = .terminal k ∧ ((b.line l).node n).state = .online := by
  unfold Records.terminalOnline
  split
  · rename_i l n e
    simp only [e, Option.some.injEq, Prod.mk.injEq, Bool.and_eq_true, decide_eq_true_eq]
    constructor
    · exact fun h => ⟨l, n, ⟨rfl, rfl⟩, h⟩
    · rintro ⟨_, _, ⟨rfl, rfl⟩, h⟩
      exact h
  · rename_i e
    simp [e]

theorem Kitchen.Lawful.active_eq {x : Kitchen} (h : x.Lawful) : x.active = x.formLevel := by
  obtain ⟨-, -, -, -, -, -, -, hoverride, hreported, hfallback⟩ := h
  unfold Kitchen.formLevel
  split
  · rename_i e; exact hoverride _ e
  · rename_i e
    split
    · rename_i hon hr; exact hreported _ e hon hr
    · rename_i hon hr; exact hfallback e (.inr hr)
    · rename_i hoff; exact hfallback e (.inl hoff)

/-- A kitchen whose active level is the one formed, replaced by itself. -/
theorem Records.reformLevel_self (b : Records) (c : Clock) {k : KitchenNo}
    (h : (b.kitchen k).active = (b.kitchen k).formLevel) :
    b.reformLevel c k (b.kitchen k) = b := by
  have hformed : { (b.kitchen k) with active := (b.kitchen k).formLevel } = b.kitchen k := by
    rw [← h]
  have hsame : capacityDiffers (b.kitchen k) (b.kitchen k) = false := by simp [capacityDiffers]
  rw [Records.reformLevel, hformed]
  simp [Records.changeKitchen, hsame, Records.setKitchen_self]

/-- Settles O47: both events are `reformLevel`, which leaves a kitchen that is what was reported. -/
theorem terminalEventsSetLevel : Obligations.TerminalEventsSetLevel := by
  intro k v s x report formed heard
  have hheard : s.recs.terminalOnline k = true ↔ heard := s.recs.terminalOnline_iff k
  have hreport : exec report s =
      .next (if s.recs.terminalOnline k then s.withRecs (s.recs.terminalReported s.clk k v) else s) := rfl
  refine ⟨fun h => ?_, fun h => ?_, fun hlaw hon hr => ?_, ?_⟩
  · rw [hreport, if_neg (hheard.not.mpr h)]
  · have hreplaced := s.recs.reformLevel_replaced s.clk k (x.reportedAt v)
    rw [Kitchen.formLevel_eq] at hreplaced
    refine ⟨_, ?_, hreplaced⟩
    rw [hreport, if_pos (hheard.mpr h)]
    rfl
  · have hself : x.reportedAt v = x := by rw [Kitchen.reportedAt, ← hon, ← hr]
    have hkept : s.recs.terminalReported s.clk k v = s.recs :=
      (congrArg (s.recs.reformLevel s.clk k) hself).trans (s.recs.reformLevel_self s.clk hlaw.active_eq)
    rw [hreport, hkept, State.withRecs_self, ite_self]
  · have hreplaced := s.recs.reformLevel_replaced s.clk k x.lost
    rw [Kitchen.formLevel_eq] at hreplaced
    exact ⟨_, rfl, hreplaced⟩

end Sys2Proof.Machine

/-! SET_LINE and RESTART_LINE: the visit abandoned and the terminal losses of one event (R148 to R150, R158). -/

namespace Sys2Proof.Machine

open Sys2Proof

/-! ## Terminal losses in one event -/

/-- The kitchen that a level formed again leaves. -/
theorem Records.reformLevel_kitchen (b : Records) (c : Clock) (k : KitchenNo) (x : Kitchen) :
    (b.reformLevel c k x).kitchen k =
      if capacityDiffers (b.kitchen k) { x with active := x.formLevel } && b.triggersAct c then
        ({ x with active := x.formLevel } : Kitchen).capacityTrigger c.w0
      else { x with active := x.formLevel } := by
  unfold Records.reformLevel Records.changeKitchen
  dsimp only
  split
  · split <;> simp
  · split <;> simp

/-- What a loss makes of its kitchen depends on that kitchen and on whether triggers act. -/
theorem Records.terminalLost_kitchen_congr {b b' : Records} (c : Clock) {k : KitchenNo}
    (hk : b'.kitchen k = b.kitchen k) (hp : b'.pool = b.pool) :
    (b'.terminalLost c k).kitchen k = (b.terminalLost c k).kitchen k := by
  have hacts : b'.triggersAct c = b.triggersAct c := by simp only [Records.triggersAct, hp]
  simp only [Records.terminalLost, Records.reformLevel_kitchen]
  rw [hk, hacts]

/-- A loss already taken changes nothing. -/
theorem Records.terminalLost_twice (b : Records) (c : Clock) (k : KitchenNo) :
    (b.terminalLost c k).terminalLost c k = b.terminalLost c k := by
  obtain ⟨p, r, hk⟩ := (b.reformLevel_replaced c k (b.kitchen k).lost).kitchen
  change (b.terminalLost c k).kitchen k = _ at hk
  have hlost : ((b.terminalLost c k).kitchen k).lost = (b.terminalLost c k).kitchen k := by
    rw [hk]; rfl
  refine (congrArg (Records.reformLevel _ c k) hlost).trans (Records.reformLevel_self _ c ?_)
  rw [hk]
  simp only [Kitchen.formLevel, Kitchen.lost]

theorem Notices.raise_kitchen_same (n : Notices) (k : KitchenNo) (x z : KitchenNotice) :
    z ∈ (n.raise (.kitchen k x)).kitchens[k.val] ↔ z ∈ n.kitchens[k.val] ∨ z = x := by
  have hset : (n.raise (.kitchen k x)).kitchens[k.val] = addKind KitchenNotice.all x n.kitchens[k.val] :=
    Vector.getElem_set_self ..
  have hall : z ∈ KitchenNotice.all := by cases z <;> decide
  simp [hset, addKind, hall, or_comm]

theorem Notices.raise_kitchen_other (n : Notices) {k q : KitchenNo} (x : KitchenNotice) (h : q ≠ k) :
    (n.raise (.kitchen k x)).kitchens[q.val] = n.kitchens[q.val] :=
  Vector.getElem_set_ne k.isLt q.isLt fun e => h (Fin.ext e.symm)

/-- From `b` to `b'` the kitchens of `lost` have taken a terminal loss, each as if it were alone. -/
structure Records.Losses (b b' : Records) (c : Clock) (lost : List KitchenNo) : Prop where
  rest : b' = { b with kitchens := b'.kitchens, notices := b'.notices }
  kept : ∀ k, k ∉ lost → b'.kitchen k = b.kitchen k
  taken : ∀ k ∈ lost, b'.kitchen k = (b.terminalLost c k).kitchen k
  raised : ∀ (k : KitchenNo) (z : KitchenNotice), z ∈ b'.notices.kitchens[k.val] ↔ z ∈ b.notices.kitchens[k.val] ∨
    (z = .levelChanged ∧ k ∈ lost ∧ (b'.kitchen k).active ≠ (b.kitchen k).active)
  rooms : b'.notices.rooms = b.notices.rooms
  part : b'.notices.part = b.notices.part
  masks : b'.notices.masks = b.notices.masks

theorem Records.Losses.one (b : Records) (c : Clock) (k : KitchenNo) : b.Losses (b.terminalLost c k) c [k] := by
  have hreplaced := b.reformLevel_replaced c k (b.kitchen k).lost
  obtain ⟨p, r, hk⟩ := hreplaced.kitchen
  obtain ⟨-, -, hother, hnotices, hrest⟩ := hreplaced
  change b.terminalLost c k = _ at hrest
  change (b.terminalLost c k).notices = _ at hnotices
  change (b.terminalLost c k).kitchen k = _ at hk
  have hactive : ((b.terminalLost c k).kitchen k).active = (b.kitchen k).lost.formLevel := by rw [hk]
  dsimp only at hnotices
  rw [← hactive] at hnotices
  refine ⟨hrest, fun q hq => hother q (by simpa using hq), fun q hq => by rw [List.mem_singleton.mp hq],
    fun q z => ?_, ?_, ?_, ?_⟩
  · rw [hnotices]
    by_cases hq : q = k
    · subst hq
      split
      · rename_i hsame; simp [hsame]
      · rename_i hdiffers; simp [hdiffers, Notices.raise_kitchen_same]
    · have hlevel : ¬ (z = .levelChanged ∧ q ∈ [k] ∧
          ((b.terminalLost c k).kitchen q).active ≠ (b.kitchen q).active) := by simp [hq]
      rw [or_iff_left hlevel]
      split
      · rfl
      · rw [Notices.raise_kitchen_other _ _ hq]
  all_goals rw [hnotices]; split <;> rfl

/-- The losses taken one after the other: a kitchen that stands twice on the list takes its loss once. -/
theorem Records.losses_fold (lost : List KitchenNo) (b : Records) (c : Clock) :
    b.Losses (lost.foldl (fun x k => x.terminalLost c k) b) c lost := by
  induction lost generalizing b with
  | nil => exact ⟨rfl, fun _ _ => rfl, nofun, fun k z => by simp, rfl, rfl, rfl⟩
  | cons k rest ih =>
    have hone := Records.Losses.one b c k
    have hih := ih (b.terminalLost c k)
    rw [List.foldl_cons]
    generalize List.foldl (fun x k => Records.terminalLost x c k) (b.terminalLost c k) rest = b' at hih ⊢
    have hpool : (b.terminalLost c k).pool = b.pool := by rw [hone.rest]
    have hhead : b'.kitchen k = (b.terminalLost c k).kitchen k := by
      by_cases hk : k ∈ rest
      · rw [hih.taken k hk, Records.terminalLost_twice]
      · exact hih.kept k hk
    have hfirst : ∀ q, q ≠ k → (b.terminalLost c k).kitchen q = b.kitchen q := fun q hq =>
      hone.kept q (by simpa using hq)
    refine ⟨?_, fun q hq => ?_, fun q hq => ?_, fun q z => ?_, hih.rooms.trans hone.rooms, hih.part.trans hone.part,
      hih.masks.trans hone.masks⟩
    · rw [hih.rest, hone.rest]
    · obtain ⟨hqk, hq⟩ := not_or.mp (List.mem_cons.not.mp hq)
      rw [hih.kept q hq, hfirst q hqk]
    · by_cases hqk : q = k
      · rw [hqk, hhead]
      · have hq : q ∈ rest := (List.mem_cons.mp hq).resolve_left hqk
        rw [hih.taken q hq, Records.terminalLost_kitchen_congr c (hfirst q hqk) hpool]
    · rw [hih.raised, hone.raised]
      by_cases hqk : q = k
      · subst hqk
        simp [hhead]
      · simp [hqk, hfirst q hqk]

/-! ## A line's visit abandoned -/

@[simp] theorem Records.setLine_setLine (b : Records) (l : LineNo) (x y : Line) :
    (b.setLine l x).setLine l y = b.setLine l y := by
  simp [Records.setLine]

theorem Records.settleLoss_withLines (b : Records) (k : KitchenNo) (lines : Vector Line 4) :
    ({ b with lines := lines } : Records).settleLoss k = { b.settleLoss k with lines := lines } := by
  unfold Records.settleLoss
  have hhead : ({ b with lines := lines } : Records).headInFlight k = b.headInFlight k := rfl
  rw [hhead]
  split
  · rfl
  · rfl
  · split <;> rfl

/-- A settlement of a loss touches the ticket queue and the pool alone (R142). -/
theorem Records.settleLoss_eq (b : Records) (k : KitchenNo) :
    b.settleLoss k = { b with pool := (b.settleLoss k).pool, queues := (b.settleLoss k).queues } := by
  unfold Records.settleLoss
  split
  · rfl
  · rfl
  · split <;> rfl

/-- The records when the frame of line `l`'s visit to a terminal has been settled as lost. -/
def Records.visitSettled (b : Records) (l : LineNo) : Records :=
  match (b.line l).visit with
  | some v =>
    match ((b.line l).node v.node).kind with
    | .terminal k => b.settleLoss k
    | .unused => b
    | .panel _ => b
  | none => b

theorem Records.visitSettled_eq (b : Records) (l : LineNo) :
    b.visitSettled l = { b with pool := (b.visitSettled l).pool, queues := (b.visitSettled l).queues } := by
  unfold Records.visitSettled
  split
  · split
    · exact b.settleLoss_eq _
    · rfl
    · rfl
  · rfl

/-- The visit of a line settled beside settings of the line that are no part of the visit. -/
theorem Records.visitSettled_setLine (b : Records) {l : LineNo} {x : Line} (hv : x.visit = (b.line l).visit)
    (hk : ∀ n, (x.node n).kind = ((b.line l).node n).kind) :
    (b.setLine l x).visitSettled l = { b.visitSettled l with lines := (b.setLine l x).lines } := by
  unfold Records.visitSettled
  rw [Records.setLine_line_same, hv]
  cases (b.line l).visit with
  | none => rfl
  | some v =>
    dsimp only
    rw [hk]
    cases ((b.line l).node v.node).kind with
    | unused => rfl
    | panel r => rfl
    | terminal k => exact b.settleLoss_withLines k _

/-- A panel marked stale is cleared as the panel itself. -/
theorem Line.cleared_of_marks {x y : Line} (hrest : y = { x with nodes := y.nodes })
    (hnode : ∀ n, y.node n = x.node n ∨ ((x.node n).isPanel = true ∧ y.node n = (x.node n).mark)) :
    y.cleared = x.cleared := by
  have hnodes : y.nodes.map Node.restarted = x.nodes.map Node.restarted := by
    ext i hi : 1
    have hi' : y.nodes[i].restarted = x.nodes[i].restarted := by
      rcases hnode ⟨i, hi⟩ with e | ⟨hpanel, e⟩
      · exact congrArg Node.restarted e
      · have hmark : (x.nodes[i]).mark.restarted = x.nodes[i].restarted := by
          have hpanel : x.nodes[i].isPanel = true := hpanel
          have hpanel' : x.nodes[i].mark.isPanel = true := hpanel
          simp [Node.restarted, hpanel, hpanel']
          simp [Node.mark]
        exact (congrArg Node.restarted e).trans hmark
    simpa using hi'
  rw [Line.cleared, hnodes, hrest]
  rfl

/-- The visit of a line abandoned and its nodes reset, before the terminal losses. -/
theorem Records.clearLine_eq (b : Records) (c : Clock) (l : LineNo) :
    b.clearLine c l = ((b.line l).nodes.toList.filterMap Node.onlineTerminal).foldl
      (fun x k => x.terminalLost c k) ((b.visitSettled l).setLine l (b.line l).cleared) := by
  unfold Records.clearLine Records.visitSettled
  dsimp only
  congr 1
  cases hv : (b.line l).visit with
  | none => rfl
  | some v =>
    dsimp only
    unfold Records.settleFrame
    dsimp only
    cases hk : ((b.line l).node v.node).kind with
    | unused => rfl
    | terminal k =>
      dsimp only
      have hline : (b.settleLoss k).line l = b.line l := by rw [b.settleLoss_eq]; rfl
      rw [hline]
    | panel r =>
      dsimp only
      split
      · rw [Records.setLine_setLine, Records.setLine_line_same]
        congr 1
        refine Line.cleared_of_marks rfl fun n => ?_
        by_cases hn : n = v.node
        · subst hn
          exact .inr ⟨by simp [Node.isPanel, hk], Line.setNode_node_same ..⟩
        · exact .inl (Line.setNode_node_other _ _ hn)
      · rfl

/-! ## The two commands -/

/-- Some node of line `l` is kitchen `k`'s ONLINE terminal. -/
def Records.Lost (b : Records) (l : LineNo) (k : KitchenNo) : Prop :=
  ∃ n : NodeNo, ((b.line l).node n).kind = .terminal k ∧ ((b.line l).node n).state = .online

/-- From `b` to `t` line `l`'s visit was abandoned and the kitchens of its ONLINE terminals took their loss; of lines
other items may have changed. -/
structure Records.Abandons (b t : Records) (c : Clock) (l : LineNo) : Prop where
  rest : t = { b.visitSettled l with lines := t.lines, kitchens := t.kitchens, notices := t.notices }
  kept : ∀ k, ¬ b.Lost l k → t.kitchen k = b.kitchen k
  taken : ∀ k, b.Lost l k → t.kitchen k = ((b.visitSettled l).terminalLost c k).kitchen k
  raised : ∀ (k : KitchenNo) (z : KitchenNotice), z ∈ t.notices.kitchens[k.val] ↔ z ∈ b.notices.kitchens[k.val] ∨
    (z = .levelChanged ∧ b.Lost l k ∧ (t.kitchen k).active ≠ (b.kitchen k).active)
  rooms : t.notices.rooms = b.notices.rooms
  part : t.notices.part = b.notices.part
  masks : t.notices.masks = b.notices.masks

theorem Line.mem_onlineTerminals (x : Line) (k : KitchenNo) : k ∈ x.nodes.toList.filterMap Node.onlineTerminal ↔
    ∃ n : NodeNo, (x.node n).kind = .terminal k ∧ (x.node n).state = .online := by
  simp only [List.mem_filterMap, Vector.mem_toList_iff, Node.onlineTerminal_iff]
  constructor
  · rintro ⟨y, hy, h⟩
    obtain ⟨i, hi, rfl⟩ := Vector.mem_iff_getElem.mp hy
    exact ⟨⟨i, hi⟩, h⟩
  · rintro ⟨n, h⟩
    exact ⟨x.node n, Vector.getElem_mem _, h⟩

/-- A line cleared under new settings `x` of its own, which leave the visit and the nodes' kinds and states. -/
theorem Records.clearLine_abandons (b : Records) (c : Clock) {l : LineNo} {x : Line}
    (hv : x.visit = (b.line l).visit)
    (hn : ∀ n, (x.node n).kind = ((b.line l).node n).kind ∧ (x.node n).state = ((b.line l).node n).state) :
    b.Abandons ((b.setLine l x).clearLine c l) c l := by
  have hlost : ∀ k, k ∈ x.nodes.toList.filterMap Node.onlineTerminal ↔ b.Lost l k := fun k => by
    rw [Line.mem_onlineTerminals]
    exact exists_congr fun n => by rw [(hn n).1, (hn n).2]
  have hclear := (b.setLine l x).clearLine_eq c l
  rw [Records.setLine_line_same, b.visitSettled_setLine hv fun n => (hn n).1] at hclear
  have hlosses := Records.losses_fold (x.nodes.toList.filterMap Node.onlineTerminal)
    (({ b.visitSettled l with lines := (b.setLine l x).lines } : Records).setLine l x.cleared) c
  rw [← hclear] at hlosses
  have hsettled := b.visitSettled_eq l
  have hkitchen : ∀ k, (b.visitSettled l).kitchen k = b.kitchen k := fun k => by rw [hsettled]; rfl
  have hnotices : (b.visitSettled l).notices = b.notices := by rw [hsettled]
  refine ⟨?_, fun k hk => ?_, fun k hk => ?_, fun k z => ?_, ?_, ?_, ?_⟩
  · rw [hlosses.rest]; rfl
  · exact (hlosses.kept k ((hlost k).not.mpr hk)).trans (hkitchen k)
  · exact (hlosses.taken k ((hlost k).mpr hk)).trans (Records.terminalLost_kitchen_congr c rfl rfl)
  · have hraised := hlosses.raised k z
    simp only [Records.setLine_notices, Records.setLine_kitchen, hnotices, hlost] at hraised
    rw [hraised]
    simp only [← hkitchen k]
    rfl
  · exact hlosses.rooms.trans (congrArg Notices.rooms hnotices)
  · exact hlosses.part.trans (congrArg Notices.part hnotices)
  · exact hlosses.masks.trans (congrArg Notices.masks hnotices)

/-- Lines are no part of what an abandonment says. -/
theorem Records.Abandons.setLine {b t : Records} {c : Clock} {l : LineNo} (h : b.Abandons t c l) (x : Line) :
    b.Abandons (t.setLine l x) c l :=
  ⟨by rw [Records.setLine, h.rest], h.kept, h.taken, h.raised, h.rooms, h.part, h.masks⟩

theorem Records.clearLine_line (b : Records) (c : Clock) (l : LineNo) :
    (b.clearLine c l).line l = (b.line l).cleared ∧ ∀ m, m ≠ l → (b.clearLine c l).line m = b.line m := by
  have hlines : (b.clearLine c l).lines = ((b.visitSettled l).setLine l (b.line l).cleared).lines := by
    rw [b.clearLine_eq c l, Records.losses_lines]
  have hline : ∀ m, (b.clearLine c l).line m = ((b.visitSettled l).setLine l (b.line l).cleared).line m := fun m => by
    rw [Records.line, hlines]; rfl
  refine ⟨(hline l).trans (Records.setLine_line_same ..), fun m hm => ?_⟩
  rw [hline, Records.setLine_line_other _ _ hm, b.visitSettled_eq l]
  rfl

theorem State.enterLine_running {s : State} {l : LineNo} {run : Bool} (h : (s.recs.line l).running = run) :
    s.enterLine l run = s := by
  subst h
  unfold State.enterLine
  dsimp only
  split
  · rfl
  · rfl
  · rename_i hf ht; rw [hf] at ht; cases ht
  · rename_i ht hf; rw [ht] at hf; cases hf

theorem State.enterLine_start {s : State} {l : LineNo} (h : (s.recs.line l).running = false) :
    s.enterLine l true =
      s.setLine l { (s.recs.line l) with running := true, sweepCount := 0, sweepPos := none } := by
  unfold State.enterLine
  simp only [h]

theorem State.enterLine_stop {s : State} {l : LineNo} (h : (s.recs.line l).running = true) :
    s.enterLine l false = (s.withRecs (s.recs.clearLine s.clk l)).setLine l
      { (s.recs.clearLine s.clk l).line l with running := false } := by
  unfold State.enterLine
  simp only [h]
  rfl

theorem Node.mark_if (x : Node) (p : Bool) :
    (if x.isPanel && p then x.mark else x) = { x with stale := x.stale || (x.isPanel && p) } := by
  cases h : (x.isPanel && p) <;> simp [Node.mark]

/-- A line given a refresh limit has its pages at or above the limit marked. -/
theorem Line.configuredWith_eq (x : Line) (tm rf : Nat) : x.configuredWith tm rf =
    { x with timeout := tm, refresh := rf, nodes := x.nodes.map fun y =>
      { y with stale := y.stale || (y.isPanel && decide (rf ≤ y.age)) } } := by
  simp only [Line.configuredWith, Node.mark_if]

theorem Line.configuredWith_node (x : Line) (tm rf : Nat) (n : NodeNo) :
    ((x.configuredWith tm rf).node n).kind = (x.node n).kind ∧
      ((x.configuredWith tm rf).node n).state = (x.node n).state := by
  rw [Line.configuredWith_eq]
  simp [Line.node]

/-- The pages marked at the refresh limit are cleared as the others. -/
theorem Line.configuredWith_cleared (x : Line) (tm rf : Nat) :
    (x.configuredWith tm rf).cleared = { x.cleared with timeout := tm, refresh := rf } := by
  refine Line.cleared_of_marks (x := { x with timeout := tm, refresh := rf }) rfl fun n => ?_
  simp only [Line.configuredWith, Line.node, Vector.getElem_map]
  split
  · rename_i h
    exact .inr ⟨(Bool.and_eq_true_iff.mp h).1, rfl⟩
  · exact .inl rfl

/-- Settles O55: the commands by the state entered, what is abandoned by `clearLine_abandons`. -/
theorem lineCommandsApplied : Obligations.LineCommandsApplied := by
  intro tag s hidle
  refine ⟨fun n st tm rf hn => ⟨?_, ?_⟩, fun l => ?_⟩
  · exact State.serve_idle_now hidle (by rw [State.setLineTo, lineNo?_none hn]; rfl)
  · exact State.serve_idle_now hidle (by rw [State.restartLine, lineNo?_none hn]; rfl)
  intro ln cleared settled formed lost abandoned quiet frame
  have hsettled : settled = s.recs.visitSettled l := by
    simp only [settled, Records.visitSettled, ln]
    cases (s.recs.line l).visit with
    | none => rfl
    | some v =>
      dsimp only
      cases ((s.recs.line l).node v.node).kind <;> rfl
  have habandoned : ∀ t : State, s.recs.Abandons t.recs s.clk l → t.mail = s.mail → abandoned t := fun t ht hmail => by
    refine ⟨hsettled ▸ ht.rest, hmail, fun k => ⟨ht.kept k, fun hk => ⟨settled.terminalLost s.clk k, ?_, ?_⟩,
      ht.raised k⟩, ht.rooms, ht.part, ht.masks⟩
    · have hreplaced := settled.reformLevel_replaced s.clk k (settled.kitchen k).lost
      have hkitchen : settled.kitchen k = s.recs.kitchen k := by rw [hsettled, s.recs.visitSettled_eq l]; rfl
      rw [Kitchen.formLevel_eq, hkitchen] at hreplaced
      simp only [Records.terminalLost, hkitchen]
      exact hreplaced
    · rw [hsettled]; exact ht.taken k hk
  have hframe : ∀ (b : Records) (x : Line), (∀ m, m ≠ l → b.line m = s.recs.line m) →
      frame ((s.withRecs b).setLine l x) := fun b x hb =>
    ⟨rfl, fun m hm => (b.setLine_line_other x hm).trans (hb m hm)⟩
  refine ⟨?_, fun st tm rf => ⟨fun hbad => ?_, fun hst h1 h20 h10 h110 => ?_⟩⟩
  · obtain ⟨hline, hother⟩ := s.recs.clearLine_line s.clk l
    have hsame : s.recs.Abandons (s.recs.clearLine s.clk l) s.clk l := by
      have h := s.recs.clearLine_abandons s.clk (l := l) (x := s.recs.line l) rfl fun _ => ⟨rfl, rfl⟩
      rwa [show s.recs.setLine l (s.recs.line l) = s.recs by simp [Records.setLine, Records.line]] at h
    refine ⟨(s.withRecs (s.recs.clearLine s.clk l)).setLine l ((s.recs.clearLine s.clk l).line l).sweepAnew,
      State.serve_idle_now hidle ?_, hframe _ _ hother, habandoned _ (hsame.setLine _) rfl, ?_⟩
    · rw [State.restartLine, lineNo?_val]; rfl
    · refine (Records.setLine_line_same ..).trans ?_
      rw [hline, Line.sweepAnew]
      show (if ln.running = true then _ else _) = _
      split <;> rfl
  · refine State.serve_idle_now hidle ?_
    rw [State.setLineTo, lineNo?_val]
    exact if_neg (by omega)
  · have hexec : ∀ t, (s.setLine l (ln.configuredWith tm rf)).enterLine l (decide (st = 1)) = t →
        exec (.setLine tag l.val st tm rf) s = .next (t.respond 112 tag .ok (t.recs.line l).payload) := by
      rintro _ rfl
      refine State.serve_idle_now hidle ?_
      rw [State.setLineTo, lineNo?_val]
      exact if_pos ⟨hst, h1, h20, h10, h110⟩
    have hconf : ((s.setLine l (ln.configuredWith tm rf)).recs.line l) = ln.configuredWith tm rf :=
      Records.setLine_line_same ..
    by_cases hrun : ln.running = decide (st = 1)
    · refine ⟨_, hexec _ (State.enterLine_running (by rw [hconf]; exact hrun)), hframe s.recs _ fun _ _ => rfl,
        fun _ => ⟨⟨rfl, rfl⟩, ?_⟩, fun hoff h1 => ?_, fun hon h0 => ?_⟩
      · rw [hconf]; exact ln.configuredWith_eq tm rf
      · simp [hoff, h1] at hrun
      · simp [hon, h0] at hrun
    · cases hon : ln.running with
      | false =>
        have hst1 : st = 1 := by simpa [hon] using hrun
        have hstart := State.enterLine_start (s := s.setLine l (ln.configuredWith tm rf)) (l := l)
          (by rw [hconf]; exact hon)
        rw [hconf] at hstart
        rw [show decide (st = 1) = true from decide_eq_true hst1] at hexec
        refine ⟨_, hexec _ hstart, ⟨rfl, fun m hm => ?_⟩, fun hiff => ?_, fun _ _ =>
          ⟨⟨rfl, ?_⟩, ?_⟩, nofun⟩
        · exact (Records.setLine_line_other _ _ hm).trans (Records.setLine_line_other _ _ hm)
        · exact absurd (hiff.mpr hst1) (by simp)
        · rfl
        · exact (Records.setLine_line_same ..).trans (by rw [ln.configuredWith_eq tm rf])
      | true =>
        have hst0 : st = 0 := by
          have : ¬ st = 1 := by simpa [hon] using hrun
          omega
        have hstop := State.enterLine_stop (s := s.setLine l (ln.configuredWith tm rf)) (l := l)
          (by rw [hconf]; exact hon)
        obtain ⟨hline, hother⟩ := (s.recs.setLine l (ln.configuredWith tm rf)).clearLine_line s.clk l
        have hgone : s.recs.Abandons ((s.recs.setLine l (ln.configuredWith tm rf)).clearLine s.clk l) s.clk l :=
          s.recs.clearLine_abandons s.clk rfl fun n => ln.configuredWith_node tm rf n
        rw [show decide (st = 1) = false from decide_eq_false (by omega)] at hexec
        refine ⟨_, hexec _ hstop, hframe _ _ fun m hm => ?_, fun hiff => ?_, nofun,
          fun _ _ => ⟨habandoned _ (hgone.setLine _) rfl, ?_⟩⟩
        · exact (hother m hm).trans (Records.setLine_line_other _ _ hm)
        · exact absurd (hiff.mp rfl) (by omega)
        · refine (Records.setLine_line_same ..).trans ?_
          show ({ ((s.recs.setLine l (ln.configuredWith tm rf)).clearLine s.clk l).line l with running := false } : Line) = _
          rw [hline, Records.setLine_line_same, Line.configuredWith_cleared]
          rfl

end Sys2Proof.Machine

/-! WRITE_NODE (R147, R151). -/

namespace Sys2Proof.Machine

open Sys2Proof

/-! ## A terminal field written -/

/-- Kitchen `x` given terminal node field `t`: its reported level absent and its active level formed again; a trigger may
have set pass and restart mark (R102, R116). -/
structure Kitchen.Rewired (x y : Kitchen) (t : Option (LineNo × NodeNo)) : Prop where
  terminal : y.terminal = t
  reported : y.reported = none
  active : y.active = x.override.getD x.fallback
  rest : { y with terminal := x.terminal, reported := x.reported, active := x.active, pass := x.pass
                  restart := x.restart } = x

/-- Without a reported level the fallback stands unless it is overridden (R101). -/
theorem Kitchen.withTerminal_formLevel (x : Kitchen) (t : Option (LineNo × NodeNo)) :
    (x.withTerminal t).formLevel = x.override.getD x.fallback := by
  rw [Kitchen.formLevel_eq]
  show x.override.getD (if x.online = true then x.fallback else x.fallback) = _
  rw [ite_self]

theorem Records.nameTerminal_eq (b : Records) (c : Clock) (kind : NodeKind) (t : Option (LineNo × NodeNo)) :
    b.nameTerminal c kind t = { b with kitchens := (b.nameTerminal c kind t).kitchens
                                       notices := (b.nameTerminal c kind t).notices } := by
  unfold Records.nameTerminal
  split
  · rfl
  · rfl
  · obtain ⟨-, -, -, -, heq⟩ := b.reformLevel_replaced c ‹KitchenNo› ((b.kitchen ‹KitchenNo›).withTerminal t)
    exact heq

theorem Records.nameTerminal_other (b : Records) (c : Clock) {kind : NodeKind} (t : Option (LineNo × NodeNo))
    {q : KitchenNo} (h : kind ≠ .terminal q) : (b.nameTerminal c kind t).kitchen q = b.kitchen q := by
  unfold Records.nameTerminal
  split
  · rfl
  · rfl
  · obtain ⟨-, -, hother, -⟩ := b.reformLevel_replaced c ‹KitchenNo› ((b.kitchen ‹KitchenNo›).withTerminal t)
    exact hother q fun e => h (e ▸ rfl)

theorem Records.nameTerminal_rewired (b : Records) (c : Clock) (q : KitchenNo) (t : Option (LineNo × NodeNo)) :
    (b.kitchen q).Rewired ((b.nameTerminal c (.terminal q) t).kitchen q) t := by
  obtain ⟨p, r, hk⟩ := (b.reformLevel_replaced c q ((b.kitchen q).withTerminal t)).kitchen
  change (b.nameTerminal c (.terminal q) t).kitchen q = _ at hk
  refine ⟨?_, ?_, ?_, ?_⟩ <;> rw [hk]
  · rfl
  · rfl
  · exact Kitchen.withTerminal_formLevel _ t
  · rfl

/-- The node written, before the kitchens that it names. -/
def Records.withNode (b : Records) (l : LineNo) (n : NodeNo) (kind : NodeKind) : Records :=
  b.setLine l ((b.line l).setNode n (Node.written kind))

theorem Records.writeNode_same (b : Records) (c : Clock) {l : LineNo} {n : NodeNo} {kind : NodeKind}
    (h : ((b.line l).node n).kind = kind) :
    b.writeNode c l n kind = (b.withNode l n kind).nameTerminal c kind (some (l, n)) := by
  unfold Records.writeNode
  dsimp only
  rw [if_pos h]
  rfl

theorem Records.writeNode_moved (b : Records) (c : Clock) {l : LineNo} {n : NodeNo} {kind : NodeKind}
    (h : ((b.line l).node n).kind ≠ kind) : b.writeNode c l n kind =
      ((b.withNode l n kind).nameTerminal c ((b.line l).node n).kind none).nameTerminal c kind (some (l, n)) := by
  unfold Records.writeNode
  dsimp only
  rw [if_neg h]
  rfl

/-- WRITE_NODE writes lines, kitchens and notices, and of the lines its node alone. -/
theorem Records.writeNode_eq (b : Records) (c : Clock) (l : LineNo) (n : NodeNo) (kind : NodeKind) :
    b.writeNode c l n kind = { b.withNode l n kind with kitchens := (b.writeNode c l n kind).kitchens
                                                        notices := (b.writeNode c l n kind).notices } := by
  by_cases h : ((b.line l).node n).kind = kind
  · rw [b.writeNode_same c h, Records.nameTerminal_eq]
  · rw [b.writeNode_moved c h, Records.nameTerminal_eq, Records.nameTerminal_eq]

/-- The kitchens of a WRITE_NODE: the old and the new kind's are given their terminal field, the others stand. -/
theorem Records.writeNode_kitchen (b : Records) (c : Clock) (l : LineNo) (n : NodeNo) (kind : NodeKind) (q : KitchenNo) :
    (((b.line l).node n).kind ≠ .terminal q → kind ≠ .terminal q → (b.writeNode c l n kind).kitchen q = b.kitchen q) ∧
    (((b.line l).node n).kind = .terminal q ∨ kind = .terminal q → (b.kitchen q).Rewired
      ((b.writeNode c l n kind).kitchen q) (if kind = .terminal q then some (l, n) else none)) := by
  have hbase : (b.withNode l n kind).kitchen q = b.kitchen q := rfl
  by_cases h : ((b.line l).node n).kind = kind
  · rw [b.writeNode_same c h]
    refine ⟨fun _ hnew => (Records.nameTerminal_other _ c _ hnew).trans hbase, fun hor => ?_⟩
    have hnew : kind = .terminal q := hor.elim (fun hold => h.symm.trans hold) id
    subst hnew
    rw [if_pos rfl]
    exact (b.withNode l n _).nameTerminal_rewired c q _
  · rw [b.writeNode_moved c h]
    refine ⟨fun hold hnew => (Records.nameTerminal_other _ c _ hnew).trans
      ((Records.nameTerminal_other _ c _ hold).trans hbase), fun hor => ?_⟩
    by_cases hnew : kind = .terminal q
    · subst hnew
      rw [if_pos rfl]
      have hold := Records.nameTerminal_other (b.withNode l n (.terminal q)) c none h
      have hrewired := ((b.withNode l n (.terminal q)).nameTerminal c ((b.line l).node n).kind none).nameTerminal_rewired
        c q (some (l, n))
      rwa [hold, hbase] at hrewired
    · rw [if_neg hnew, Records.nameTerminal_other _ c _ hnew, hor.resolve_right hnew]
      exact (b.withNode l n kind).nameTerminal_rewired c q none

/-! ## The checks of R151 -/

section Checks

variable {b : Records} {l : LineNo} {n : NodeNo} {kind target : Nat}

theorem Records.judgeNode_badValue (h : 2 < kind) : b.judgeNode l n kind target = .error .badValue := by
  simp [Records.judgeNode, decide_eq_false (Nat.not_le.mpr h)]

theorem Records.judgeNode_running (h : kind ≤ 2) (hrun : (b.line l).running = true) :
    b.judgeNode l n kind target = .error .lineRunning := by
  simp [Records.judgeNode, h, hrun]

theorem Records.judgeNode_kind (h : kind ≤ 2) (hrun : (b.line l).running = false) {st : Status}
    (hkind : b.nodeKindOf kind target = .error st) : b.judgeNode l n kind target = .error st := by
  simp [Records.judgeNode, h, hrun, hkind]

theorem Records.judgeNode_named (h : kind ≤ 2) (hrun : (b.line l).running = false) {k : NodeKind}
    (hkind : b.nodeKindOf kind target = .ok k) : b.judgeNode l n kind target =
      if b.namedElsewhere l n k || b.queueHeld ((b.line l).node n).kind k then .error .nodeInUse else .ok k := by
  cases hnamed : b.namedElsewhere l n k <;> cases hheld : b.queueHeld ((b.line l).node n).kind k <;>
    simp [Records.judgeNode, h, hrun, hkind, hnamed, hheld]

theorem Records.namedElsewhere_iff (k : NodeKind) : b.namedElsewhere l n k = true ↔ k ≠ .unused ∧
    ∃ (l' : LineNo) (n' : NodeNo), ¬ (l' = l ∧ n' = n) ∧ ((b.line l').node n').kind = k := by
  simp only [Records.namedElsewhere, Bool.and_eq_true, decide_eq_true_eq, List.any_eq_true, List.mem_finRange,
    true_and, Bool.not_eq_true', Bool.and_eq_false_iff, decide_eq_false_iff_not]
  refine and_congr_right fun _ => exists_congr fun l' => exists_congr fun n' => ?_
  tauto

theorem Records.queueHeld_iff (old k : NodeKind) : b.queueHeld old k = true ↔
    ∃ q, old = .terminal q ∧ k ≠ old ∧ (b.queue q).entries ≠ [] := by
  cases old <;> simp [Records.queueHeld]

end Checks

/-- What a WRITE_NODE with a sound target asks for (R151). -/
theorem Records.nodeKindOf_ok {b : Records} {kind target : Nat} {k : NodeKind}
    (h : match k with
      | .unused => kind = 0
      | .panel r => kind = 1 ∧ target = r.val ∧ (b.room r).service ≠ .undefined ∧ (b.room r).attrs.members = none
      | .terminal q => kind = 2 ∧ target = q.val) : kind ≤ 2 ∧ b.nodeKindOf kind target = .ok k := by
  cases k with
  | unused =>
    subst h
    exact ⟨by omega, rfl⟩
  | panel r =>
    obtain ⟨rfl, rfl, hdefined, hplain⟩ := h
    refine ⟨by omega, ?_⟩
    simp [Records.nodeKindOf, roomNo?_val, Records.isDefined, Room.isCombined, hdefined, hplain]
  | terminal q =>
    obtain ⟨rfl, rfl⟩ := h
    refine ⟨by omega, ?_⟩
    simp [Records.nodeKindOf, kitchenNo?_val]

/-- Settles O56: the checks in their order, and what `writeNode` leaves of line and kitchens. -/
theorem nodeWritten : Obligations.NodeWritten := by
  intro tag line node kind target s hidle refused
  refine ⟨fun hl => ?_, fun hl hn => ?_, ?_⟩
  · exact State.serve_idle_now hidle (by simp only [State.writeNode, lineAndNode, lineNo?_none hl, refuse])
  · refine State.serve_idle_now hidle ?_
    simp only [State.writeNode, lineAndNode, lineNo?_val (⟨line, hl⟩ : LineNo), nodeNo?_none hn, refuse]
  rintro l n rfl rfl ln old
  have hjudged : ∀ st, s.recs.judgeNode l n kind target = .error st → refused st := fun st h =>
    State.serve_idle_now hidle (by simp only [State.writeNode, lineAndNode, lineNo?_val, nodeNo?_succ, h, refuse])
  refine ⟨fun h => hjudged _ (Records.judgeNode_badValue h), fun h hrun => hjudged _ (Records.judgeNode_running h hrun),
    fun h hrun ht => hjudged _ (Records.judgeNode_kind (by omega) hrun ?_), fun r h hrun ht hbad =>
      hjudged _ (Records.judgeNode_kind (by omega) hrun ?_), fun h hrun ht =>
      hjudged _ (Records.judgeNode_kind (by omega) hrun ?_), fun k hrun hk => ?_⟩
  · simp [Records.nodeKindOf, h, roomNo?_none ht]
  · have hroom : (s.recs.isDefined r && !(s.recs.room r).isCombined) = false := by
      rcases hbad with e | e
      · simp [Records.isDefined, e]
      · simp [Room.isCombined, Option.isSome_iff_ne_none.mpr e]
    simp [Records.nodeKindOf, h, ht, roomNo?_val, hroom]
  · simp [Records.nodeKindOf, h, kitchenNo?_none ht]
  obtain ⟨hle, hkind⟩ := Records.nodeKindOf_ok hk
  have hjudge := Records.judgeNode_named (n := n) hle hrun hkind
  intro elsewhere held shows fresh
  have helsewhere : s.recs.namedElsewhere l n k = true ↔ elsewhere := Records.namedElsewhere_iff k
  have hheld : s.recs.queueHeld old k = true ↔ held := Records.queueHeld_iff old k
  refine ⟨fun h => hjudged _ (hjudge.trans (if_pos ?_)), fun hfree hempty => ⟨s.recs.writeNode s.clk l n k, ?_, ?_,
    fun m hm => ?_, ?_, fun q => (s.recs.writeNode_kitchen s.clk l n k q).1, fun q hq => ?_⟩⟩
  · rw [Bool.or_eq_true]
    exact h.imp helsewhere.mpr hheld.mpr
  · have hok : s.recs.judgeNode l n kind target = .ok k := hjudge.trans (if_neg (by
      rw [Bool.or_eq_true]
      exact fun h => h.elim (fun e => hfree (helsewhere.mp e)) fun e => hempty (hheld.mp e)))
    exact State.serve_idle_now hidle (by simp only [State.writeNode, lineAndNode, lineNo?_val, nodeNo?_succ, hok])
  · have hline : (s.recs.writeNode s.clk l n k).line l = (s.recs.withNode l n k).line l := by
      rw [Records.writeNode_eq]; rfl
    rw [hline, Records.withNode, Records.setLine_line_same]
    cases k <;> rfl
  · rw [Records.writeNode_eq]
    exact Records.setLine_line_other _ _ hm
  · rw [Records.writeNode_eq]
    rfl
  · obtain ⟨hterminal, hreported, hactive, hrest⟩ := (s.recs.writeNode_kitchen s.clk l n k q).2 hq
    exact ⟨hterminal, hreported, hactive, hrest⟩

end Sys2Proof.Machine

/-! SHEDDING (R117): the order chosen, and what a step leaves. -/

namespace Sys2Proof.Machine

open Sys2Proof

/-! ## The orders found by a scan -/

theorem Records.mem_ordersWhere {b : Records} {p : Order → Bool} {x : SlotNo × Order} :
    x ∈ b.ordersWhere p ↔ (b.slot x.1).body = .order x.2 ∧ p x.2 = true := by
  refine ⟨Records.ordersWhere_slot, fun ⟨hbody, hp⟩ => mem_scanFrom.mpr ⟨x.1.val, by simp, ?_⟩⟩
  have hbody : b.pool.slots.toList[x.1.val].body = .order x.2 := by simpa [Records.slot] using hbody
  have hslot : Fin.ofNat 32768 (0 + x.1.val) = x.1 := Fin.ext (by simp)
  simp only [hbody, hp, if_true, hslot]

/-! ## Classes and places through a change of an order's record -/

/-- A record written over an order changes the class of none: classes are read from bookings. -/
theorem Records.setBody_orderClass {b : Records} {sl : SlotNo} {o : Order} (ho : (b.slot sl).body = .order o)
    (o' p : Order) : (b.setBody sl (.order o')).orderClass p = b.orderClass p := by
  have hbooking : ∀ z, (b.setBody sl (.order o')).booking? z = b.booking? z := fun z => by
    unfold Records.booking?
    by_cases hz : z = sl
    · subst hz
      rw [Records.setBody_slot_same, ho]
    · rw [Records.setBody_slot_other _ _ hz]
  simp only [Records.orderClass, hbooking]

/-- The place of an order whose record has just been written. -/
theorem Records.setBody_placeOf {b : Records} {sl : SlotNo} {o : Order} (ho : (b.slot sl).body = .order o)
    (o' : Order) : (b.setBody sl (.order o')).placeOf sl =
      { cls := b.orderClass o', stamp := (o'.wait.map fun x => x.1).getD 0, slot := sl } := by
  have horder : (b.setBody sl (.order o')).order? sl = some o' := by simp [Records.order?]
  simp only [Records.placeOf, horder, Records.setBody_orderClass ho]

/-! ## The choice of R117 -/

/-- The better of the order chosen so far and the next. -/
def Records.shedPick (b : Records) (a : Option (SlotNo × Order)) (x : SlotNo × Order) : Option (SlotNo × Order) :=
  match a with
  | none => some x
  | some y => if b.shedBefore x y then some x else some y

theorem Records.chooseShed_eq (b : Records) (l : List (SlotNo × Order)) :
    b.chooseShed l = l.foldl b.shedPick none := rfl

/-- The order that is shed rather than every other is the one chosen. -/
theorem Records.chooseShed_best {b : Records} {l : List (SlotNo × Order)} {x : SlotNo × Order} (hx : x ∈ l)
    (hbest : ∀ y ∈ l, y ≠ x → b.shedBefore x y = true ∧ b.shedBefore y x = false) : b.chooseShed l = some x := by
  have pick : ∀ (l : List (SlotNo × Order)) (a : Option (SlotNo × Order)), (a = some x ∨ x ∈ l) →
      (∀ y, (a = some y ∨ y ∈ l) → y ≠ x → b.shedBefore x y = true ∧ b.shedBefore y x = false) →
      l.foldl b.shedPick a = some x := by
    intro l
    induction l with
    | nil => exact fun a ha _ => ha.resolve_right nofun
    | cons z rest ih =>
      intro a ha hall
      have hpick : b.shedPick a z = some z ∨ b.shedPick a z = a := by
        unfold Records.shedPick
        split
        · exact .inl rfl
        · split
          · exact .inl rfl
          · exact .inr rfl
      refine ih _ ?_ fun y hy => hall y ?_
      · by_cases hz : z = x
        · subst hz
          left
          unfold Records.shedPick
          split
          · rfl
          · rename_i y
            by_cases hy : y = z
            · subst hy; exact ite_self _
            · rw [if_pos (hall y (.inl rfl) hy).1]
        · rcases ha with rfl | hmem
          · exact .inl (if_neg (by simp [(hall z (.inr List.mem_cons_self) hz).2]))
          · exact .inr ((List.mem_cons.mp hmem).resolve_left (Ne.symm hz))
      · rcases hy with hy | hy
        · rcases hpick with e | e
          · rw [e] at hy
            cases hy
            exact .inr List.mem_cons_self
          · exact .inl (e ▸ hy)
        · exact .inr (List.mem_cons_of_mem _ hy)
  exact b.chooseShed_eq l ▸ pick l none (.inr hx) fun y hy => hbest y (hy.resolve_left nofun)

theorem Records.chooseShed_none {b : Records} {l : List (SlotNo × Order)} (h : ∀ x, x ∉ l) : b.chooseShed l = none := by
  rw [List.eq_nil_iff_forall_not_mem.mpr h]
  rfl

theorem Records.shedBefore_iff (b : Records) (x y : SlotNo × Order) : b.shedBefore x y = true ↔
    (b.orderClass y.2).rank < (b.orderClass x.2).rank ∨ ((b.orderClass y.2).rank = (b.orderClass x.2).rank ∧
      (y.2.admission.getD 0 < x.2.admission.getD 0 ∨
        (y.2.admission.getD 0 = x.2.admission.getD 0 ∧ y.1 < x.1))) := by
  simp only [Records.shedBefore, Bool.or_eq_true, Bool.and_eq_true, decide_eq_true_eq,
    eq_comm (a := (b.orderClass x.2).rank), eq_comm (a := x.2.admission.getD 0)]

/-! ## A step -/

section Step

variable (b : Records) (c : Clock) (k : KitchenNo) (cursor : Nat)

/-- The window that a SHEDDING step examines (R117). -/
def Kitchen.shedFrom (x : Kitchen) (w0 cursor : Nat) : Nat := max (if x.restart then w0 + 1 else cursor) (w0 + 1)

/-- The kitchen whose window `w` a SHEDDING step has read. -/
def Kitchen.shedRead (x : Kitchen) (w : Nat) : Kitchen :=
  { x.touch w with pass := .shedding w, restart := false }

theorem Kitchen.shedRead_committed (x : Kitchen) (w v : Nat) (h : v = w ∨ v % 336 ≠ w % 336) :
    (x.shedRead w).committed v = x.committed v := (x.touch_frame w).2 v h

theorem Kitchen.shedRead_capacity (x : Kitchen) (w v : Nat) : (x.shedRead w).capacity v = x.capacity v := rfl

/-- A step from window `w`: past the range a new walk, within it the examination of the window. -/
theorem Records.sheddingStep_eq : b.sheddingStep c k cursor =
    if c.w0 + 335 < (b.kitchen k).shedFrom c.w0 cursor then
      b.setKitchen k { (b.kitchen k) with pass := .promoting none, restart := false, again := false }
    else (b.setKitchen k { (b.kitchen k) with restart := false }).shedWindow c k
      ((b.kitchen k).shedFrom c.w0 cursor) := by
  unfold Records.sheddingStep
  extract_lets kit from0 w b1
  have hw : w = (b.kitchen k).shedFrom c.w0 cursor := by
    simp only [w, Kitchen.shedFrom]
    show (if from0 ≤ c.w0 then c.w0 + 1 else from0) = max from0 (c.w0 + 1)
    split <;> omega
  rw [← hw]
  split
  · simp only [b1, Records.setKitchen_setKitchen, Records.setKitchen_kitchen_same]
    rfl
  · rfl

/-- A kitchen whose window has been read, as the examination finds it. -/
theorem Records.shedRead_eq (w : Nat) : (b.setKitchen k { (b.kitchen k) with restart := false }).setKitchen k
      { (((b.setKitchen k { (b.kitchen k) with restart := false }).kitchen k).touch w) with pass := .shedding w } =
    b.setKitchen k ((b.kitchen k).shedRead w) := by
  rw [Records.setKitchen_setKitchen, Records.setKitchen_kitchen_same]
  rfl

/-- The order chosen is read from pool and records that the examination leaves. -/
theorem Records.shedRead_choose (w : Nat) : (b.setKitchen k ((b.kitchen k).shedRead w)).chooseShed
    ((b.setKitchen k ((b.kitchen k).shedRead w)).sheddable k c.w0 w) = b.chooseShed (b.sheddable k c.w0 w) := rfl

theorem Records.shedRead_setPass (w : Nat) (p : PassState) : (b.setKitchen k ((b.kitchen k).shedRead w)).setPass k p =
    b.setKitchen k { (b.kitchen k).shedRead w with pass := p } := by
  rw [Records.setPass, Records.setKitchen_setKitchen, Records.setKitchen_kitchen_same]

/-- A window within its capacity, or over it with nothing to shed, is passed. -/
theorem Records.shedWindow_passes {w : Nat} (h : (b.kitchen k).committed w ≤ (b.kitchen k).capacity w ∨
    b.chooseShed (b.sheddable k c.w0 w) = none) :
    (b.setKitchen k { (b.kitchen k) with restart := false }).shedWindow c k w =
      b.setKitchen k { (b.kitchen k).shedRead w with pass := .shedding (w + 1) } := by
  unfold Records.shedWindow
  dsimp only
  rw [Records.shedRead_eq, Records.shedRead_choose, Records.shedRead_setPass, Records.setKitchen_kitchen_same,
    Kitchen.shedRead_committed _ w w (.inl rfl), Kitchen.shedRead_capacity]
  split
  · rfl
  · rename_i hfull
    rw [h.resolve_left hfull]

/-- A window over its capacity sheds the order chosen. -/
theorem Records.shedWindow_sheds {w : Nat} {x : SlotNo × Order}
    (hfull : (b.kitchen k).capacity w < (b.kitchen k).committed w)
    (hx : b.chooseShed (b.sheddable k c.w0 w) = some x) :
    (b.setKitchen k { (b.kitchen k) with restart := false }).shedWindow c k w =
      (b.setKitchen k ((b.kitchen k).shedRead w)).shed c x := by
  unfold Records.shedWindow
  dsimp only
  rw [Records.shedRead_eq, Records.shedRead_choose, Records.setKitchen_kitchen_same,
    Kitchen.shedRead_committed _ w w (.inl rfl), Kitchen.shedRead_capacity, if_neg (Nat.not_le.mpr hfull), hx]

end Step

/-- The record of an order that is shed (R117). -/
def Order.shed (o : Order) (stamp : Nat) : Order :=
  { o with state := .waitlisted, shares := [], admission := none, wait := some (stamp, .shed) }

/-- An order shed at kitchen `y`: its load released, its record and its place on the waitlist written, the notice
raised. -/
theorem Records.shed_eq {b : Records} {c : Clock} {sl : SlotNo} {o : Order} (ho : (b.slot sl).body = .order o)
    (y : Kitchen) : ∃ front back : List SlotNo, y.waitlist = front ++ back ∧
      let b' := (b.setKitchen o.kitchen y).shed c (sl, o)
      b' = ((b.setKitchen o.kitchen { y.subShares c.w0 o.shares with
          waits := nextStamp y.waits, waitlist := front ++ sl :: back }).setBody sl
            (.order (o.shed (nextStamp y.waits)))).raise (.room o.room .orderShed) ∧
      b'.placeOf sl = { cls := b.orderClass o, stamp := nextStamp y.waits, slot := sl } ∧
      (∀ q ∈ front, ¬ (b'.placeOf sl).ahead (b'.placeOf q) = true) ∧
      ∀ q, back.head? = some q → (b'.placeOf sl).ahead (b'.placeOf q) = true := by
  have hrelease : (b.setKitchen o.kitchen y).releaseShares c o = b.setKitchen o.kitchen (y.subShares c.w0 o.shares) := by
    rw [Records.releaseShares, Records.setKitchen_setKitchen, Records.setKitchen_kitchen_same]
  have hwaits : (y.subShares c.w0 o.shares).waits = y.waits := by rw [(Kitchen.subShares_frame c.w0 o.shares y).1]
  obtain ⟨front, back, hsplit, hjoin, hfront, hback⟩ :=
    ((b.setKitchen o.kitchen y).releaseShares c o).joinWaitlist_eq sl o .shed
  rw [hrelease] at hsplit hjoin
  rw [Records.setKitchen_kitchen_same, Kitchen.subShares_waitlist] at hsplit
  rw [Records.setKitchen_kitchen_same, hwaits, Records.setKitchen_setBody_setKitchen] at hjoin
  have hshed : (b.setKitchen o.kitchen y).shed c (sl, o) = _ := congrArg (Records.raise · (.room o.room .orderShed))
    ((congrArg (fun b => b.joinWaitlist sl o .shed) hrelease).trans hjoin)
  refine ⟨front, back, hsplit, hshed, ?_, hfront, hback⟩
  rw [hshed]
  exact Records.setBody_placeOf (b := b.setKitchen o.kitchen _) (o := o) ho (o.shed (nextStamp y.waits))

theorem Kitchen.shedRead_eq (x : Kitchen) (w : Nat) :
    x.shedRead w = { x with ring := (x.shedRead w).ring, pass := .shedding w, restart := false } := rfl

/-- The committed units that a step leaves: the shares of the order shed are taken off the windows not yet begun (R114). -/
theorem Kitchen.shed_committed (x : Kitchen) {w0 w : Nat} (hw0 : w0 < w) (hw : w ≤ w0 + 335) (l : List (Nat × Nat)) :
    (∀ v, v % 336 ≠ w % 336 → (∀ h ∈ l, h.1 % 336 ≠ v % 336) →
      ((x.shedRead w).subShares w0 l).committed v = x.committed v) ∧
    ((∀ h ∈ l, h.1 ≤ w0 + 335) → ∀ v, w0 ≤ v → v ≤ w0 + 335 → ((x.shedRead w).subShares w0 l).committed v =
      x.committed v - if w0 < v then ((l.filter fun y => decide (y.1 = v)).map fun y => y.2).sum else 0) := by
  refine ⟨fun v hv hl => ?_, fun hl v h0 h1 => ?_⟩
  · rw [(Kitchen.subShares_frame w0 l _).2 v fun p hp _ => hl p hp, Kitchen.shedRead_committed _ _ _ (.inr hv)]
  · rw [Kitchen.subShares_committed w0 l _ hl v h0 h1, Kitchen.shedRead_committed]
    omega

/-- Settles O49: the window by `sheddingStep_eq`, the order by `chooseShed_best`, what is left of it by `shed_eq`. -/
theorem sheddingStepShedsOneOrder : Obligations.SheddingStepShedsOneOrder := by
  intro k s b x w0 rank
  refine ⟨fun hpass => ?_, fun cursor hpass => ?_⟩
  · show execSheddingStep k s = .next s
    unfold execSheddingStep
    split
    · rename_i c hc; exact absurd hc (hpass c)
    · rfl
    · rfl
  have hexec : exec (.sheddingStep k) s = .next { s with recs := b.sheddingStep s.clk k cursor } := by
    show execSheddingStep k s = _
    unfold execSheddingStep
    rw [hpass]
    rfl
  intro w full may
  have hstep := b.sheddingStep_eq s.clk k cursor
  have hw : (b.kitchen k).shedFrom s.clk.w0 cursor = w := rfl
  have hw0 : w0 < w := by omega
  rw [hw] at hstep
  have hmem : ∀ p : SlotNo × Order, p ∈ b.sheddable k s.clk.w0 w ↔ may p.1 p.2 := fun p => by
    rw [Records.sheddable, Records.mem_ordersWhere, decide_eq_true_eq]
    rfl
  refine ⟨fun hpast => ?_, fun hwithin hnot => ?_, fun sl o hwithin hfull hmay hbest => ?_⟩
  · rw [if_pos (show s.clk.w0 + 335 < w from hpast)] at hstep
    refine ⟨_, hexec, ?_, fun q hq => ?_, ?_⟩ <;> rw [hstep]
    · exact Records.setKitchen_kitchen_same ..
    · exact Records.setKitchen_kitchen_other _ _ hq
    · rfl
  · have hpasses := b.shedWindow_passes s.clk k (w := w) (hnot.imp Nat.not_lt.mp fun h =>
      Records.chooseShed_none fun p hp => h p.1 p.2 ((hmem p).mp hp))
    rw [if_neg (show ¬ s.clk.w0 + 335 < w from Nat.not_lt.mpr hwithin), hpasses] at hstep
    refine ⟨_, hexec, ?_, fun v hv => ?_, fun q hq => ?_, ?_⟩ <;> rw [hstep]
    · rw [Records.setKitchen_kitchen_same]; rfl
    · rw [Records.setKitchen_kitchen_same]
      exact x.shedRead_committed w v hv
    · exact Records.setKitchen_kitchen_other _ _ hq
    · rfl
  · intro stamp o' before
    obtain ⟨hbody, rfl, -, -, -⟩ := id hmay
    have hchosen : b.chooseShed (b.sheddable o.kitchen s.clk.w0 w) = some (sl, o) := by
      refine Records.chooseShed_best ((hmem _).mpr hmay) fun y hy hne => ?_
      have hymay := (hmem y).mp hy
      have hslot : y.1 ≠ sl := fun e => hne (Prod.ext e (by
        have hsame := hymay.1
        rw [e, hbody] at hsame
        exact (SlotBody.order.inj hsame).symm))
      have hrank := hbest y.1 y.2 hymay hslot
      refine ⟨(b.shedBefore_iff (sl, o) y).mpr hrank, Bool.eq_false_iff.mpr fun hback => ?_⟩
      have hback := (b.shedBefore_iff y (sl, o)).mp hback
      simp only [rank, Fin.lt_def] at hrank hback
      omega
    rw [if_neg (show ¬ s.clk.w0 + 335 < w from Nat.not_lt.mpr hwithin),
      b.shedWindow_sheds s.clk o.kitchen hfull hchosen] at hstep
    obtain ⟨front, back, hsplit, heq, hplace, hfront, hback⟩ :=
      Records.shed_eq (c := s.clk) hbody (x.shedRead w)
    rw [← hstep] at heq hplace hfront hback
    obtain ⟨hslot, hslots, hkitchens, hkitchen, hrest⟩ := Records.orderWritten_frame rfl
    obtain ⟨hapart, hshares⟩ := x.shed_committed hw0 hwithin o.shares
    have hleft : (b.sheddingStep s.clk o.kitchen cursor).kitchen o.kitchen = _ :=
      (congrArg (Records.kitchen · o.kitchen) heq).trans hkitchen
    refine ⟨_, front, back, hexec, ?_, fun y hy => ?_, hsplit, ?_, fun v hv hl => ?_, fun hl v h0 h1 => ?_, hplace,
      fun y hy => ?_, fun y hy => ?_, ?_, fun q hq => ?_, ?_⟩
    · rw [heq]; exact hslot
    · rw [heq]; exact hslots y hy
    · rw [hleft, (Kitchen.subShares_frame s.clk.w0 o.shares (x.shedRead w)).1]
      rfl
    · exact (congrArg (Kitchen.committed · v) hleft).trans (hapart v hv hl)
    · exact (congrArg (Kitchen.committed · v) hleft).trans (hshares hl v h0 h1)
    · exact fun h => hfront y hy ((WaitPlace.ahead_iff _ _).mpr h)
    · exact (WaitPlace.ahead_iff _ _).mp (hback y hy)
    · rw [heq]; rfl
    · rw [heq]; exact hkitchens q hq
    · rw [heq]; rfl

end Sys2Proof.Machine

/-! PROMOTING (R118 to R120): the order examined, and what a step leaves of it. -/

namespace Sys2Proof.Machine

open Sys2Proof

/-! ## The order behind the cursor -/

/-- Whether the place of the order in slot `y` lies behind the cursor. -/
def Records.behind (b : Records) (cursor : Option WaitPlace) (y : SlotNo) : Bool :=
  cursor.all fun p => p.ahead (b.placeOf y)

theorem Records.behind_iff (b : Records) (cursor : Option WaitPlace) (y : SlotNo) :
    b.behind cursor y = true ↔ ∀ p, cursor = some p → p.ahead (b.placeOf y) = true := by
  cases cursor <;> simp [Records.behind]

theorem Records.nextWaiting_eq (b : Records) (k : KitchenNo) (cursor : Option WaitPlace) : b.nextWaiting k cursor =
    ((b.kitchen k).waitlist.find? (b.behind cursor)).bind fun sl => (b.order? sl).map fun o => (sl, o) := by
  cases cursor <;> rfl

theorem find?_append_cons {α : Type} {p : α → Bool} {front back : List α} {x : α} (hfront : ∀ y ∈ front, ¬ p y = true)
    (hx : p x = true) : (front ++ x :: back).find? p = some x :=
  List.find?_eq_some_iff_append.mpr ⟨hx, front, back, rfl, fun y hy => by simpa using hfront y hy⟩

theorem Records.order?_eq_none {b : Records} {sl : SlotNo} (h : ∀ o, (b.slot sl).body ≠ .order o) :
    b.order? sl = none := by
  cases ho : b.order? sl with
  | none => rfl
  | some o => exact absurd (Records.order?_eq_some.mp ho) (h o)

/-! ## The examination (R119) -/

/-- Kitchen `y` without the order in slot `sl` on its waitlist. -/
def Kitchen.withoutWaiting (y : Kitchen) (sl : SlotNo) : Kitchen :=
  { y with waitlist := y.waitlist.filter fun z => decide (z ≠ sl) }

/-- The kitchen that has admitted an order off its waitlist. -/
def Kitchen.promoted (y : Kitchen) (sl : SlotNo) (shares : List (Nat × Nat)) : Kitchen :=
  { (y.withoutWaiting sl).addShares shares with admissions := nextStamp y.admissions }

/-- The record of an order admitted with load `x` (R109). -/
def Order.admitted (o : Order) (x : Load) (stamp : Nat) : Order :=
  { o with state := .confirmed, load := x.units, shares := x.shares, prepStart := x.prepStart
           admission := some stamp, wait := none }

section Examined

variable {b : Records} {k : KitchenNo} {sl : SlotNo} {o : Order} (y : Kitchen) (hk : o.kitchen = k)
include hk

theorem Records.lapse_eq : (b.setKitchen k y).lapse sl o =
    ((b.setKitchen k (y.withoutWaiting sl)).setBody sl (.order { o with state := .lapsed, wait := none })).raise
      (.room o.room .orderLapsed) := by
  subst hk
  simp only [Records.lapse, Records.leaveWaitlist, Records.setKitchen_setKitchen, Records.setKitchen_kitchen_same]
  rfl

theorem Records.promote_eq (x : Load) : (b.setKitchen k y).promote sl o x =
    ((b.setKitchen k (y.promoted sl x.shares)).setBody sl (.order (o.admitted x (nextStamp y.admissions)))).raise
      (.room o.room .orderPromoted) := by
  subst hk
  simp only [Records.promote, Records.leaveWaitlist, Records.admitOrder, Records.setKitchen_setKitchen,
    Records.setKitchen_kitchen_same]
  rfl

end Examined

theorem Kitchen.promoted_eq (y : Kitchen) (sl : SlotNo) (shares : List (Nat × Nat)) :
    y.promoted sl shares = { y with ring := (y.promoted sl shares).ring, admissions := nextStamp y.admissions
                                    waitlist := y.waitlist.filter fun z => decide (z ≠ sl) } := by
  have h := (Kitchen.addShares_frame shares (y.withoutWaiting sl)).1
  unfold Kitchen.promoted
  rw [h]
  rfl

theorem Kitchen.promoted_committed (y : Kitchen) (sl : SlotNo) {shares : List (Nat × Nat)} (h : SharesApart shares) :
    (∀ p ∈ shares, (y.promoted sl shares).committed p.1 = y.committed p.1 + p.2) ∧
    ∀ v, (∀ p ∈ shares, p.1 % 336 ≠ v % 336) → (y.promoted sl shares).committed v = y.committed v :=
  ⟨fun p hp => Kitchen.addShares_committed h (y.withoutWaiting sl) p hp,
    fun v hv => (Kitchen.addShares_frame shares (y.withoutWaiting sl)).2 v hv⟩

/-- A kitchen that has read the windows tested and admitted the order. -/
theorem Kitchen.touchTested_promoted (y : Kitchen) (sl : SlotNo) {shares : List (Nat × Nat)} (h : SharesApart shares) :
    let z := (y.touchTested shares).promoted sl shares
    z = { y with ring := z.ring, admissions := nextStamp y.admissions
                 waitlist := y.waitlist.filter fun q => decide (q ≠ sl) } ∧
    (∀ p ∈ shares, z.committed p.1 = y.committed p.1 + p.2) ∧
    ∀ v, (∀ p ∈ shares, p.1 % 336 ≠ v % 336) → z.committed v = y.committed v := by
  obtain ⟨hread, hreadOff⟩ := Kitchen.touchTested_frame shares y
  obtain ⟨hat, hoff⟩ := (y.touchTested shares).promoted_committed sl h
  refine ⟨?_, fun p hp => ?_, fun v hv => (hoff v hv).trans (hreadOff v hv)⟩
  · rw [Kitchen.promoted_eq, hread]
  · rw [hat p hp, Kitchen.touchTested_committed h y p hp]

/-- A kitchen and an order's record written, and the notices: what each table then holds. -/
theorem Records.orderNoticed_frame {b b' : Records} {k : KitchenNo} {z : Kitchen} {sl : SlotNo} {o : Order}
    {n : Notices} (h : b' = { (b.setKitchen k z).setBody sl (.order o) with notices := n }) :
    b'.slot sl = { gen := (b.slot sl).gen, body := .order o } ∧ (∀ y : SlotNo, y ≠ sl → b'.slot y = b.slot y) ∧
    (∀ q : KitchenNo, q ≠ k → b'.kitchen q = b.kitchen q) ∧
    b' = { b with kitchens := b'.kitchens, pool := { b.pool with slots := b'.pool.slots }, notices := b'.notices } ∧
    b'.kitchen k = z := by
  subst h
  obtain ⟨hslot, hslots, hkitchens, hkitchen, -⟩ := Records.orderWritten_frame
    (b := b) (kt := k) (x := z) (sl := sl) (o := o) rfl
  exact ⟨hslot, hslots, hkitchens, rfl, hkitchen⟩

/-- The examination of an order at kitchen `y`, by its load and whether it fits. -/
theorem Records.examine_cases (b : Records) (c : Clock) {menu : Vector MenuClass 16} {k : KitchenNo} {sl : SlotNo}
    {o : Order} (y : Kitchen) (hk : o.kitchen = k) (hlead : menu[o.menuClass.val].lead ≤ 4) :
    let load := computeLoad menu[o.menuClass.val] o.headcount o.delivery c.w0
    let b' := (b.setKitchen k y).examine c menu sl o
    (load = none → b' = (b.setKitchen k y).lapse sl o) ∧
    ∀ x, load = some x →
      (y.fits x.shares = true → b' = (b.setKitchen k (y.touchTested x.shares)).promote sl o x) ∧
      (¬ y.fits x.shares = true → b' = (b.setKitchen k (y.touchTested x.shares)).setBody sl
        (.order { o with load := x.units, prepStart := x.prepStart })) := by
  subst hk
  refine ⟨fun hload => ?_, fun x hload => ?_⟩
  · unfold Records.examine
    rw [hload]
  · have hfits := Kitchen.touchTested_fits (computeLoad_apart hload hlead) y
    unfold Records.examine
    rw [hload]
    simp only [Records.setKitchen_setKitchen, Records.setKitchen_kitchen_same, hfits]
    exact ⟨fun h => if_pos h, fun h => if_neg h⟩

/-! ## A step -/

section Step

variable {b : Records} {c : Clock} {menu : Vector MenuClass 16} {k : KitchenNo} {cursor : Option WaitPlace}

theorem Records.promotingStep_restart (h : (b.kitchen k).restart = true) : b.promotingStep c menu k cursor =
    b.setKitchen k { (b.kitchen k) with pass := .shedding (c.w0 + 1), restart := false } := by
  unfold Records.promotingStep
  exact if_pos h

theorem Records.promotingStep_ends (h : (b.kitchen k).restart = false) (hnext : b.nextWaiting k cursor = none) :
    b.promotingStep c menu k cursor = b.setKitchen k (b.kitchen k).walkEnded := by
  unfold Records.promotingStep
  simp only [h, hnext]
  rfl

theorem Records.promotingStep_examines (h : (b.kitchen k).restart = false) {sl : SlotNo} {o : Order}
    (hnext : b.nextWaiting k cursor = some (sl, o)) : b.promotingStep c menu k cursor =
      (b.setKitchen k { (b.kitchen k) with pass := .promoting (some (b.placeOf sl)) }).examine c menu sl o := by
  unfold Records.promotingStep
  dsimp only
  rw [if_neg (by simp [h]), hnext]
  rfl

end Step

/-- Settles O50: the order by `nextWaiting_eq`, its examination by `examine_cases`. -/
theorem promotingStepExaminesOneOrder : Obligations.PromotingStepExaminesOneOrder := by
  intro k s b x w0
  refine ⟨fun hpass => ?_, fun cursor hpass => ?_⟩
  · show execPromotingStep k s = .next s
    unfold execPromotingStep
    split
    · rename_i c hc; exact absurd hc (hpass c)
    · rfl
    · rfl
  have hexec : exec (.promotingStep k) s = .next { s with recs := b.promotingStep s.clk s.menu k cursor } := by
    show execPromotingStep k s = _
    unfold execPromotingStep
    rw [hpass]
    rfl
  intro before behind only
  have hbehind : ∀ y, b.behind cursor y = true ↔ behind y := fun y => by
    simp only [Records.behind_iff, WaitPlace.ahead_iff]
    rfl
  have honly : ∀ y, b.promotingStep s.clk s.menu k cursor = b.setKitchen k y → only y := fun y h =>
    ⟨_, hexec, by rw [h, Records.setKitchen_kitchen_same],
      fun q hq => by rw [h, Records.setKitchen_kitchen_other _ _ hq], by rw [h]; rfl⟩
  refine ⟨fun h => honly _ (Records.promotingStep_restart h), fun h hend => honly _ ?_,
    fun front sl back o h hsplit hfront hsl ho hk hlead => ⟨fun hsorted y hy hyb hne => ?_, ?_⟩⟩
  · have hnext : b.nextWaiting k cursor = none := by
      rw [Records.nextWaiting_eq]
      rcases hend with hnone | ⟨front, sl, back, hsplit, hfront, hsl, hbody⟩
      · rw [List.find?_eq_none.mpr fun y hy => by rw [hbehind]; exact hnone y hy]
        rfl
      · rw [show (b.kitchen k).waitlist = _ from hsplit,
          find?_append_cons (fun y hy => by rw [hbehind]; exact hfront y hy) ((hbehind sl).mpr hsl), Option.bind_some,
          Records.order?_eq_none hbody]
        rfl
    exact Records.promotingStep_ends h hnext
  · rw [hsplit] at hy hsorted
    rcases List.mem_append.mp hy with hy | hy
    · exact absurd hyb (hfront y hy)
    · obtain ⟨-, hsorted, -⟩ := List.pairwise_append.mp hsorted
      exact (List.pairwise_cons.mp hsorted).1 y ((List.mem_cons.mp hy).resolve_left hne)
  intro load fits stamp off place
  have hnext : b.nextWaiting k cursor = some (sl, o) := by
    rw [Records.nextWaiting_eq, show (b.kitchen k).waitlist = _ from hsplit,
      find?_append_cons (fun y hy => by rw [hbehind]; exact hfront y hy) ((hbehind sl).mpr hsl), Option.bind_some,
      Records.order?_eq_some.mpr ho]
    rfl
  have hstep := Records.promotingStep_examines (c := s.clk) (menu := s.menu) h hnext
  obtain ⟨hnone, hsome⟩ := b.examine_cases s.clk { x with pass := place } hk hlead
  have hfits : ∀ y : Load, ({ x with pass := place } : Kitchen).fits y.shares = true ↔ fits y := fun y =>
    Kitchen.fits_iff _ _
  cases hload : load with
  | none =>
    have heq := (hstep.trans (hnone hload)).trans (Records.lapse_eq _ hk)
    obtain ⟨hslot, hslots, hkitchens, hrest, hkitchen⟩ := Records.orderNoticed_frame heq
    exact ⟨_, _, hexec, hslot, hslots, hkitchens, hrest, fun _ => ⟨rfl, hkitchen, by rw [heq]; rfl⟩, nofun, nofun⟩
  | some y =>
    obtain ⟨hfit, hunfit⟩ := hsome y hload
    have hapart : SharesApart y.shares := computeLoad_apart hload hlead
    obtain ⟨hread, hreadOff⟩ := Kitchen.touchTested_frame y.shares { x with pass := place }
    by_cases hf : fits y
    · have heq := (hstep.trans (hfit ((hfits y).mpr hf))).trans (Records.promote_eq _ hk y)
      obtain ⟨hslot, hslots, hkitchens, hrest, hkitchen⟩ := Records.orderNoticed_frame heq
      obtain ⟨hpromoted, hat, hoff⟩ := Kitchen.touchTested_promoted { x with pass := place } sl hapart
      have hadmissions : (({ x with pass := place } : Kitchen).touchTested y.shares).admissions = x.admissions := by
        rw [hread]
      rw [hadmissions] at hslot
      refine ⟨_, _, hexec, hslot, hslots, hkitchens, hrest, nofun, fun z hz _ => ?_, fun z hz hnot => ?_⟩
      · cases hz
        rw [hkitchen]
        exact ⟨rfl, hpromoted, hat, hoff, by rw [heq]; rfl⟩
      · cases hz
        exact absurd hf hnot
    · have heq := hstep.trans (hunfit (mt (hfits y).mp hf))
      obtain ⟨hslot, hslots, hkitchens, hrest, hkitchen⟩ := Records.orderNoticed_frame heq
      refine ⟨_, _, hexec, hslot, hslots, hkitchens, hrest, nofun, fun z hz hyes => ?_, fun z hz _ => ?_⟩
      · cases hz
        exact absurd hyes hf
      · cases hz
        rw [hkitchen]
        exact ⟨rfl, hread, Kitchen.touchTested_committed hapart _, hreadOff, by rw [heq]; rfl⟩

end Sys2Proof.Machine

/-! The window roll (R110 to R113). -/

namespace Sys2Proof.Machine

open Sys2Proof

/-! ## The ring rolled (R110, R111) -/

theorem Kitchen.rolled_entry (x : Kitchen) (w0 w : Nat) :
    (x.rolled w0).entry w = (x.entry w).rolled w0 (w % 336) := by
  simp [Kitchen.entry, Kitchen.rolled]

/-- The roll drops the windows before the current one and keeps the others. -/
theorem Kitchen.rolled_committed (x : Kitchen) (w0 w : Nat) :
    (x.rolled w0).committed w = if w < w0 then 0 else x.committed w := by
  have hrange : w0 ≤ rangeWindow w0 (w % 336) := Nat.le_add_right ..
  simp only [Kitchen.committed, Kitchen.rolled_entry, RingEntry.rolled]
  split
  · rename_i hnone
    simp [hnone]
  · rename_i v hv
    simp only [hv, Option.some.injEq]
    by_cases hpast : v < w0
    · rw [if_pos hpast, ite_self]
      by_cases hw : v = w
      · rw [if_pos (hw ▸ hpast)]
      · rw [if_neg hw, ite_self]
    · rw [if_neg hpast, hv]
      by_cases hw : v = w
      · subst hw
        rw [if_neg hpast, if_pos rfl, if_pos rfl]
      · simp [hw]

theorem Kitchen.commit_committed_past (x : Kitchen) {v w : Nat} (u : Nat) (h : v < w) (hv : x.committed v = 0) :
    (x.commit w u).committed v = 0 := by
  by_cases hmod : w % 336 = v % 336
  · simp only [Kitchen.committed, Kitchen.commit, Kitchen.entry, ← hmod, Vector.getElem_set_self, Option.some.injEq]
    exact if_neg (by omega)
  · rw [Kitchen.commit_committed_other x u hmod, hv]

/-- A release writes windows not yet begun alone. -/
theorem Kitchen.subShares_past {w0 v : Nat} (h : v < w0) (l : List (Nat × Nat)) (x : Kitchen)
    (hv : x.committed v = 0) : (x.subShares w0 l).committed v = 0 := by
  induction l generalizing x with
  | nil => exact hv
  | cons p l ih =>
    refine ih (if w0 < p.1 then x.commit p.1 (x.committed p.1 - p.2) else x) ?_
    split
    · exact x.commit_committed_past _ (by omega) hv
    · exact hv

/-! ## The orders dispatched, in their sequence (R112) -/

/-- The values of a scan whose value names the index stand in ascending order. -/
theorem scanFrom_pairwise {α β : Type} {f : Nat → α → Option β} {g : β → Nat} {i : Nat} {l : List α}
    (hg : ∀ j (h : j < l.length) x, f (i + j) l[j] = some x → g x = i + j) :
    (scanFrom f i l).Pairwise fun x y => g x < g y := by
  induction l generalizing i with
  | nil => exact .nil
  | cons a rest ih =>
    have hrest : ∀ j (h : j < rest.length) x, f (i + 1 + j) rest[j] = some x → g x = i + 1 + j := fun j h x e => by
      have h' := hg (j + 1) (Nat.succ_lt_succ h) x (by rwa [show i + (j + 1) = i + 1 + j by omega])
      omega
    unfold scanFrom
    split
    · rename_i x hx
      refine List.pairwise_cons.mpr ⟨fun y hy => ?_, ih hrest⟩
      obtain ⟨j, hj, e⟩ := mem_scanFrom.mp hy
      have hx := hg 0 (Nat.succ_pos _) x hx
      have hy := hrest j hj y e
      omega
    · exact ih hrest

theorem Records.ordersWhere_pairwise (b : Records) (p : Order → Bool) :
    (b.ordersWhere p).Pairwise fun x y => x.1.val < y.1.val := by
  refine scanFrom_pairwise fun j hj x e => ?_
  have hj : j < 32768 := by simpa using hj
  split at e
  · split at e
    · cases e
      simp only [Nat.zero_add, Fin.ofNat_eq_cast, Fin.val_natCast]
      omega
    · cases e
  · cases e
  · cases e

theorem dispatchBefore_iff (x y : SlotNo × Order) : dispatchBefore x y = true ↔
    x.2.prepStart < y.2.prepStart ∨ (x.2.prepStart = y.2.prepStart ∧
      (x.2.admission.getD 0 < y.2.admission.getD 0 ∨
        (x.2.admission.getD 0 = y.2.admission.getD 0 ∧ x.1 < y.1))) := by
  simp [dispatchBefore]

/-- An order placed among orders of other slots keeps their sequence. -/
theorem insertDispatch_sorted {x : SlotNo × Order} {l : List (SlotNo × Order)}
    (hl : l.Pairwise fun p q => dispatchBefore p q = true) (hx : ∀ y ∈ l, y.1 ≠ x.1) :
    (insertDispatch x l).Pairwise fun p q => dispatchBefore p q = true := by
  induction l with
  | nil => exact List.pairwise_singleton ..
  | cons y ys ih =>
    obtain ⟨hy, hys⟩ := List.pairwise_cons.mp hl
    unfold insertDispatch
    split
    · rename_i hxy
      refine List.pairwise_cons.mpr ⟨fun z hz => ?_, hl⟩
      rcases List.mem_cons.mp hz with rfl | hz
      · exact hxy
      · have hyz := hy z hz
        simp only [dispatchBefore_iff, Fin.lt_def] at hxy hyz ⊢
        omega
    · rename_i hxy
      refine List.pairwise_cons.mpr ⟨fun z hz => ?_, ih hys fun z hz => hx z (List.mem_cons_of_mem _ hz)⟩
      rcases (mem_insertDispatch _ _ _).mp hz with rfl | hz
      · have hne : y.1.val ≠ z.1.val := fun e => hx y List.mem_cons_self (Fin.ext e)
        simp only [dispatchBefore_iff, Fin.lt_def] at hxy ⊢
        omega
      · exact hy z hz

theorem Records.mem_dispatchable {b : Records} {k : KitchenNo} {w0 : Nat} {x : SlotNo × Order} :
    x ∈ b.dispatchable k w0 ↔ (b.slot x.1).body = .order x.2 ∧ x.2.kitchen = k ∧ x.2.state = .confirmed ∧
      x.2.prepStart ≤ w0 := by
  have hmem : ∀ l : List (SlotNo × Order), x ∈ l.foldr insertDispatch [] ↔ x ∈ l := fun l => by
    induction l with
    | nil => exact Iff.rfl
    | cons y ys ih => rw [List.foldr_cons, mem_insertDispatch, ih, List.mem_cons]
  rw [Records.dispatchable, hmem, Records.mem_ordersWhere, decide_eq_true_eq]

theorem Records.dispatchable_sorted (b : Records) (k : KitchenNo) (w0 : Nat) :
    (b.dispatchable k w0).Pairwise fun p q => dispatchBefore p q = true := by
  have hsort : ∀ l : List (SlotNo × Order), (l.Pairwise fun x y => x.1.val < y.1.val) →
      (l.foldr insertDispatch []).Pairwise (fun p q => dispatchBefore p q = true) ∧
        ∀ y ∈ l.foldr insertDispatch [], y ∈ l := fun l hl => by
    induction l with
    | nil => exact ⟨.nil, fun _ h => h⟩
    | cons x xs ih =>
      obtain ⟨hx, hxs⟩ := List.pairwise_cons.mp hl
      obtain ⟨hsorted, hsub⟩ := ih hxs
      refine ⟨insertDispatch_sorted hsorted fun y hy e => ?_, fun y hy => ?_⟩
      · have hlt := hx y (hsub y hy)
        rw [e] at hlt
        exact absurd hlt (lt_irrefl _)
      · exact List.mem_cons.mpr (((mem_insertDispatch _ _ _).mp hy).imp id (hsub y))
  exact (hsort _ (b.ordersWhere_pairwise _)).1

/-! ## The dispatch -/

/-- A kitchen whose windows have lost the shares of the orders dispatched (R112, R114). -/
def Kitchen.dispatched (x : Kitchen) (w0 : Nat) (l : List (SlotNo × Order)) : Kitchen :=
  l.foldl (fun y p => y.subShares w0 p.2.shares) x

theorem Kitchen.dispatched_eq (w0 : Nat) (l : List (SlotNo × Order)) (x : Kitchen) :
    x.dispatched w0 l = { x with ring := (x.dispatched w0 l).ring } := by
  induction l generalizing x with
  | nil => rfl
  | cons p l ih =>
    exact (ih (x.subShares w0 p.2.shares)).trans (congrArg
      (fun y : Kitchen => { y with ring := (x.dispatched w0 (p :: l)).ring })
      (Kitchen.subShares_frame w0 p.2.shares x).1)

theorem Kitchen.dispatched_past {w0 v : Nat} (h : v < w0) (l : List (SlotNo × Order)) (x : Kitchen)
    (hv : x.committed v = 0) : (x.dispatched w0 l).committed v = 0 := by
  induction l generalizing x with
  | nil => exact hv
  | cons p l ih => exact ih _ (Kitchen.subShares_past h _ x hv)

theorem Kitchen.dispatched_frame (w0 : Nat) {v : Nat} (l : List (SlotNo × Order)) (x : Kitchen)
    (hv : ∀ p ∈ l, ∀ h ∈ p.2.shares, h.1 % 336 ≠ v % 336) : (x.dispatched w0 l).committed v = x.committed v := by
  induction l generalizing x with
  | nil => rfl
  | cons p l ih =>
    refine (ih _ fun q hq => hv q (List.mem_cons_of_mem _ hq)).trans ?_
    exact (Kitchen.subShares_frame w0 p.2.shares x).2 v fun h hh _ => hv p List.mem_cons_self h hh

/-- A window of the range loses what the orders dispatched held in it, when it has not begun. -/
theorem Kitchen.dispatched_committed {w0 v : Nat} (h0 : w0 ≤ v) (h1 : v ≤ w0 + 335) {l : List (SlotNo × Order)}
    (hl : ∀ p ∈ l, ∀ h ∈ p.2.shares, h.1 ≤ w0 + 335) (x : Kitchen) : (x.dispatched w0 l).committed v =
      x.committed v - if w0 < v then (l.map fun p => p.2.shareIn v).sum else 0 := by
  induction l generalizing x with
  | nil => simp [Kitchen.dispatched]
  | cons p l ih =>
    refine (ih (fun q hq => hl q (List.mem_cons_of_mem _ hq)) (x.subShares w0 p.2.shares)).trans ?_
    rw [Kitchen.subShares_committed w0 p.2.shares x (hl p List.mem_cons_self) v h0 h1]
    split
    · rw [List.map_cons, List.sum_cons, Order.shareIn, Nat.sub_sub]
    · rfl

/-- Whether a dispatch in sequence lowered some window not yet begun. -/
def Kitchen.dispatchLowers (x : Kitchen) (w0 : Nat) : List (SlotNo × Order) → Bool
  | [] => false
  | p :: rest => loweredOn w0 p.2.shares x (x.subShares w0 p.2.shares) ||
      (x.subShares w0 p.2.shares).dispatchLowers w0 rest

/-- A dispatch lowers a window exactly when the window has fewer units at its end. -/
theorem Kitchen.dispatchLowers_iff {w0 : Nat} {l : List (SlotNo × Order)}
    (hl : ∀ p ∈ l, ∀ h ∈ p.2.shares, h.1 ≤ w0 + 335) (x : Kitchen) : x.dispatchLowers w0 l = true ↔
      ∃ v, w0 < v ∧ v ≤ w0 + 335 ∧ (x.dispatched w0 l).committed v < x.committed v := by
  induction l generalizing x with
  | nil => simp [Kitchen.dispatchLowers, Kitchen.dispatched]
  | cons p l ih =>
    have hp := hl p List.mem_cons_self
    have hrest := fun q hq => hl q (List.mem_cons_of_mem p hq)
    have hhead : loweredOn w0 p.2.shares x (x.subShares w0 p.2.shares) = true ↔
        ∃ v, w0 < v ∧ v ≤ w0 + 335 ∧ (x.subShares w0 p.2.shares).committed v < x.committed v :=
      x.exchanged_lowered (new := []) hp nofun .nil
    rw [Kitchen.dispatchLowers, Bool.or_eq_true, hhead, ih hrest]
    have hstep : ∀ v, w0 < v → v ≤ w0 + 335 → (x.subShares w0 p.2.shares).committed v ≤ x.committed v ∧
        (x.dispatched w0 (p :: l)).committed v ≤ (x.subShares w0 p.2.shares).committed v := fun v h0 h1 => by
      have hsub := Kitchen.subShares_committed w0 p.2.shares x hp v h0.le h1
      have hall := Kitchen.dispatched_committed h0.le h1 hrest (x.subShares w0 p.2.shares)
      exact ⟨hsub ▸ Nat.sub_le .., hall ▸ Nat.sub_le .. ⟩
    constructor
    · rintro (⟨v, h0, h1, hlt⟩ | ⟨v, h0, h1, hlt⟩)
      · exact ⟨v, h0, h1, lt_of_le_of_lt (hstep v h0 h1).2 hlt⟩
      · exact ⟨v, h0, h1, lt_of_lt_of_le hlt (hstep v h0 h1).1⟩
    · rintro ⟨v, h0, h1, hlt⟩
      rcases (hstep v h0 h1).1.lt_or_eq with h | h
      · exact .inl ⟨v, h0, h1, h⟩
      · exact .inr ⟨v, h0, h1, lt_of_lt_of_eq hlt h.symm⟩

/-- From `b` to `b'` the orders `l` of kitchen `k` were dispatched in their sequence. -/
structure Records.Dispatched (b b' : Records) (k : KitchenNo) (w0 : Nat) (l : List (SlotNo × Order)) : Prop where
  kitchen : b'.kitchen k = (b.kitchen k).dispatched w0 l
  kitchens : ∀ q : KitchenNo, q ≠ k → b'.kitchen q = b.kitchen q ∧ b'.queue q = b.queue q
  entries : (b'.queue k).entries =
    (b.queue k).entries ++ l.map fun p => ({ slot := p.1, asVoid := false } : QueueEntry)
  inFlight : (b'.queue k).inFlight = (b.queue k).inFlight
  queued : ∀ p ∈ l, b'.slot p.1 =
    { gen := (b.slot p.1).gen, body := .order { p.2 with state := .queued, shares := [] } }
  slots : ∀ sl, (∀ p ∈ l, p.1 ≠ sl) → b'.slot sl = b.slot sl
  rest : b' = { b with kitchens := b'.kitchens, queues := b'.queues, pool := { b.pool with slots := b'.pool.slots } }

theorem Records.dispatchOne_dispatched (b : Records) (c : Clock) {k : KitchenNo} {p : SlotNo × Order}
    (hk : p.2.kitchen = k) : b.Dispatched (b.dispatchOne c p) k c.w0 [p] := by
  subst hk
  refine ⟨?_, fun q hq => ⟨?_, ?_⟩, ?_, ?_, fun r hr => ?_, fun sl hsl => ?_, rfl⟩
  · simp [Records.dispatchOne, Records.joinTicket, Records.releaseShares, Kitchen.dispatched]
  · simp [Records.dispatchOne, Records.joinTicket, Records.releaseShares, Records.setKitchen_kitchen_other _ _ hq]
  · simp [Records.dispatchOne, Records.joinTicket, Records.releaseShares, Records.setQueue_queue_other _ _ hq]
  · simp [Records.dispatchOne, Records.joinTicket, Records.releaseShares]
  · simp [Records.dispatchOne, Records.joinTicket, Records.releaseShares]
  · obtain rfl := List.mem_singleton.mp hr
    simp [Records.dispatchOne, Records.joinTicket, Records.releaseShares]
  · have hne : sl ≠ p.1 := (hsl p List.mem_cons_self).symm
    simp [Records.dispatchOne, Records.joinTicket, Records.releaseShares, Records.setBody_slot_other _ _ hne]

theorem Records.dispatchAll_dispatched (c : Clock) {k : KitchenNo} {l : List (SlotNo × Order)}
    (hk : ∀ p ∈ l, p.2.kitchen = k) (hslots : l.Pairwise fun p q => p.1 ≠ q.1) (b : Records) :
    b.Dispatched (b.dispatchAll c l).1 k c.w0 l ∧
      (b.dispatchAll c l).2 = (b.kitchen k).dispatchLowers c.w0 l := by
  induction l generalizing b with
  | nil => exact ⟨⟨rfl, fun _ _ => ⟨rfl, rfl⟩, (List.append_nil _).symm, rfl, nofun, fun _ _ => rfl, rfl⟩, rfl⟩
  | cons p rest ih =>
    obtain ⟨hp, hslots⟩ := List.pairwise_cons.mp hslots
    have hkp := hk p List.mem_cons_self
    have hone := b.dispatchOne_dispatched c hkp
    obtain ⟨hall, hlow⟩ := ih (fun q hq => hk q (List.mem_cons_of_mem _ hq)) hslots (b.dispatchOne c p)
    have hreleased : (b.releaseShares c p.2).kitchen p.2.kitchen = (b.kitchen k).subShares c.w0 p.2.shares := by
      rw [Records.releaseShares, Records.setKitchen_kitchen_same, hkp]
    refine ⟨⟨hall.kitchen.trans (congrArg (Kitchen.dispatched · c.w0 rest) hone.kitchen), fun q hq =>
      ⟨(hall.kitchens q hq).1.trans (hone.kitchens q hq).1, (hall.kitchens q hq).2.trans (hone.kitchens q hq).2⟩,
      ?_, hall.inFlight.trans hone.inFlight, fun q hq => ?_, fun sl hsl => ?_, ?_⟩, ?_⟩
    · refine hall.entries.trans ?_
      rw [hone.entries, List.append_assoc]
      rfl
    · rcases List.mem_cons.mp hq with rfl | hq
      · exact (hall.slots q.1 fun r hr => (hp r hr).symm).trans (hone.queued q List.mem_cons_self)
      · refine (hall.queued q hq).trans ?_
        rw [hone.slots q.1 fun r hr => by rw [List.mem_singleton.mp hr]; exact hp q hq]
    · exact (hall.slots sl fun q hq => hsl q (List.mem_cons_of_mem _ hq)).trans
        (hone.slots sl fun q hq => List.mem_singleton.mp hq ▸ hsl p List.mem_cons_self)
    · exact hall.rest
    · show (loweredOn c.w0 p.2.shares (b.kitchen p.2.kitchen) _ || _) = _
      rw [hreleased, hlow, hone.kitchen, hkp]
      rfl

/-- A dispatch of a roll: the orders, and one promotion trigger when a window was lowered and triggers act. -/
theorem Records.dispatch_eq (b : Records) (c : Clock) (k : KitchenNo) :
    let l := b.dispatchable k c.w0
    ∃ b1, b.Dispatched b1 k c.w0 l ∧ b.dispatch c k = b1.setKitchen k
      ((b1.kitchen k).promoteIf ((b.kitchen k).dispatchLowers c.w0 l && b.triggersAct c)) := by
  intro l
  have hslots : l.Pairwise fun p q => p.1 ≠ q.1 := (b.dispatchable_sorted k c.w0).imp_of_mem
    fun {p q} hp hq hlt e => by
      have hsame := (Records.mem_dispatchable.mp hp).1
      rw [e, (Records.mem_dispatchable.mp hq).1] at hsame
      have hpq : p = q := Prod.ext e (SlotBody.order.inj hsame).symm
      subst hpq
      simp [dispatchBefore_iff] at hlt
  obtain ⟨hall, hlow⟩ := Records.dispatchAll_dispatched c (fun p hp => (Records.mem_dispatchable.mp hp).2.1) hslots b
  refine ⟨_, hall, ?_⟩
  have hacts : (b.dispatchAll c l).1.triggersAct c = b.triggersAct c := by
    rw [hall.rest]; rfl
  have hself := (b.dispatchAll c l).1.setKitchen_self k
  rw [← hlow]
  unfold Records.dispatch
  split
  · rename_i b' h
    have h1 : (b.dispatchAll c l).1 = b' := congrArg Prod.fst h
    have h2 : (b.dispatchAll c l).2 = true := congrArg Prod.snd h
    rw [h1] at hacts hself
    rw [h1, h2, Bool.true_and, Records.promotionTrigger, hacts, Kitchen.promoteIf]
    split
    · rfl
    · exact hself.symm
  · rename_i b' h
    have h1 : (b.dispatchAll c l).1 = b' := congrArg Prod.fst h
    have h2 : (b.dispatchAll c l).2 = false := congrArg Prod.snd h
    rw [h1] at hself
    rw [h1, h2, Bool.false_and]
    exact hself.symm

/-! ## The lapses (R113) -/

/-- The record of an order that lapses. -/
def Order.lapsed (o : Order) : Order := { o with state := .lapsed, wait := none }

/-- From `b` to `b'` the overdue orders in the slots `l` lapsed at kitchen `k`. -/
structure Records.Lapses (b b' : Records) (k : KitchenNo) (w0 : Nat) (l : List SlotNo) : Prop where
  late : ∀ sl o, sl ∈ l → (b.slot sl).body = .order o → o.overdue w0 = true →
    b'.slot sl = { gen := (b.slot sl).gen, body := .order o.lapsed } ∧ sl ∉ (b'.kitchen k).waitlist ∧
    RoomNotice.orderLapsed ∈ b'.notices.rooms[o.room.val]
  kept : ∀ sl, (sl ∈ l → ∀ o, (b.slot sl).body = .order o → o.overdue w0 = false) →
    b'.slot sl = b.slot sl ∧ (sl ∈ (b'.kitchen k).waitlist ↔ sl ∈ (b.kitchen k).waitlist)
  notices : ∀ (r : RoomNo) (z : RoomNotice), z ∈ b.notices.rooms[r.val] → z ∈ b'.notices.rooms[r.val]
  kitchen : b'.kitchen k = { b.kitchen k with waitlist := (b'.kitchen k).waitlist }
  kitchens : ∀ q : KitchenNo, q ≠ k → b'.kitchen q = b.kitchen q
  rest : b' = { b with kitchens := b'.kitchens, notices := b'.notices
                       pool := { b.pool with slots := b'.pool.slots } }

theorem Records.Lapses.refl (b : Records) (k : KitchenNo) (w0 : Nat) : b.Lapses b k w0 [] :=
  ⟨nofun, fun _ _ => ⟨rfl, Iff.rfl⟩, fun _ _ h => h, rfl, fun _ _ => rfl, rfl⟩

theorem Notices.raise_room_mono (n : Notices) (r : RoomNo) (x : RoomNotice) (q : RoomNo) {z : RoomNotice}
    (h : z ∈ n.rooms[q.val]) : z ∈ (n.raise (.room r x)).rooms[q.val] := by
  have hall : z ∈ RoomNotice.all := by cases z <;> decide
  by_cases hq : q = r
  · subst hq
    have hset : (n.raise (.room q x)).rooms[q.val] = addKind RoomNotice.all x n.rooms[q.val] :=
      Vector.getElem_set_self ..
    simp [hset, addKind, hall, h]
  · have hset : (n.raise (.room r x)).rooms[q.val] = n.rooms[q.val] :=
      Vector.getElem_set_ne r.isLt q.isLt fun e => hq (Fin.ext e.symm)
    rwa [hset]

theorem Records.lapseOverdue_lapses {b : Records} {k : KitchenNo} {sl : SlotNo}
    (hk : ∀ o, (b.slot sl).body = .order o → o.kitchen = k) (w0 : Nat) :
    b.Lapses (b.lapseOverdue w0 sl) k w0 [sl] := by
  have hsame : (∀ o, (b.slot sl).body = .order o → o.overdue w0 = false) → b.Lapses b k w0 [sl] := fun h =>
    ⟨fun z o hz ho hov => by rw [List.mem_singleton.mp hz] at ho; simp [h o ho] at hov,
      fun _ _ => ⟨rfl, Iff.rfl⟩, fun _ _ h => h, rfl, fun _ _ => rfl, rfl⟩
  unfold Records.lapseOverdue
  split
  · rename_i o ho
    have ho := Records.order?_eq_some.mp ho
    split
    · rename_i hov
      have heq := Records.lapse_eq (b := b) (sl := sl) (b.kitchen k) (hk o ho)
      rw [Records.setKitchen_self] at heq
      rw [heq]
      refine ⟨fun z y hz hy _ => ?_, fun z hz => ?_, fun r z h => Notices.raise_room_mono _ _ _ _ h, ?_, fun q hq => ?_,
        rfl⟩
      · obtain rfl := List.mem_singleton.mp hz
        obtain rfl : o = y := SlotBody.order.inj (ho.symm.trans hy)
        refine ⟨by simp [Order.lapsed], by simp [Kitchen.withoutWaiting], Notices.raise_room_mem _ _ (by decide)⟩
      · have hne : z ≠ sl := by
          rintro rfl
          exact absurd (hz List.mem_cons_self o ho) (by simp [hov])
        exact ⟨by simp [Records.setBody_slot_other _ _ hne], by simp [Kitchen.withoutWaiting, hne]⟩
      · simp [Kitchen.withoutWaiting]
      · simp [Records.setKitchen_kitchen_other _ _ hq]
    · rename_i hov
      exact hsame fun y hy => SlotBody.order.inj (ho.symm.trans hy) ▸ Bool.eq_false_iff.mpr hov
  · rename_i hnone
    exact hsame fun y hy => absurd (Records.order?_eq_some.mpr hy) (by rw [hnone]; nofun)

theorem Records.Lapses.cons {b b1 b' : Records} {k : KitchenNo} {w0 : Nat} {sl : SlotNo} {l : List SlotNo}
    (hone : b.Lapses b1 k w0 [sl]) (hrest : b1.Lapses b' k w0 l) : b.Lapses b' k w0 (sl :: l) := by
  refine ⟨fun z o hz ho hov => ?_, fun z hz => ?_, fun r z h => hrest.notices r z (hone.notices r z h), ?_, fun q hq =>
    (hrest.kitchens q hq).trans (hone.kitchens q hq), ?_⟩
  · by_cases hzs : z = sl
    · subst hzs
      obtain ⟨hslot, hgone, hnotice⟩ := hone.late z o List.mem_cons_self ho hov
      by_cases hzl : z ∈ l
      · obtain ⟨hslot', hgone', -⟩ := hrest.late z o.lapsed hzl (by rw [hslot]) hov
        exact ⟨by rw [hslot', hslot]; rfl, hgone', hrest.notices _ _ hnotice⟩
      · obtain ⟨hslot', hgone'⟩ := hrest.kept z fun h => absurd h hzl
        exact ⟨hslot'.trans hslot, hgone'.not.mpr hgone, hrest.notices _ _ hnotice⟩
    · have hkept := (hone.kept z fun h => absurd (List.mem_singleton.mp h) hzs).1
      obtain ⟨hslot, hgone⟩ := hrest.late z o ((List.mem_cons.mp hz).resolve_left hzs) (by rw [hkept]; exact ho) hov
      exact ⟨by rw [hslot, hkept], hgone⟩
  · obtain ⟨hslot, hwait⟩ := hone.kept z fun h => hz (by rw [List.mem_singleton.mp h]; exact List.mem_cons_self)
    obtain ⟨hslot', hwait'⟩ := hrest.kept z fun h o ho => hz (List.mem_cons_of_mem _ h) o (by rw [← hslot]; exact ho)
    exact ⟨hslot'.trans hslot, hwait'.trans hwait⟩
  · rw [hrest.kitchen, hone.kitchen]
  · rw [hrest.rest, hone.rest]

theorem Records.lapseAll_lapses {k : KitchenNo} (w0 : Nat) {l : List SlotNo} {b : Records}
    (hk : ∀ sl ∈ l, ∀ o, (b.slot sl).body = .order o → o.kitchen = k) : b.Lapses (b.lapseAll w0 l) k w0 l := by
  rw [Records.lapseAll_eq]
  induction l generalizing b with
  | nil => exact .refl b k w0
  | cons sl rest ih =>
    have hone := Records.lapseOverdue_lapses (hk sl List.mem_cons_self) w0
    refine hone.cons (ih fun z hz o ho => ?_)
    by_cases hlate : z = sl ∧ ∃ y, (b.slot z).body = .order y ∧ y.overdue w0 = true
    · obtain ⟨rfl, y, hy, hov⟩ := hlate
      rw [(hone.late z y List.mem_cons_self hy hov).1] at ho
      cases ho
      exact hk z List.mem_cons_self y hy
    · refine hk z (List.mem_cons_of_mem _ hz) o ?_
      rwa [(hone.kept z fun hzs y hy => Bool.eq_false_iff.mpr fun hov =>
        hlate ⟨List.mem_singleton.mp hzs, y, hy, hov⟩).1] at ho

/-! ## The roll -/

section Roll

variable {b : Records} {c : Clock} {k : KitchenNo} {o n : Nat}

theorem Records.roll_within (h : o / 30 = n / 30) : b.roll c k o n = b := if_pos h

theorem Records.roll_clearing (h : o / 30 ≠ n / 30) (hclear : b.pool.isClearing = true) :
    b.roll c k o n = b.setKitchen k ((b.kitchen k).rolled c.w0) := by
  unfold Records.roll
  exact (if_neg h).trans (if_pos hclear)

/-- The roll behind the ring: the dispatch and then the lapses along the waitlist, which the dispatch leaves. -/
theorem Records.roll_dispatches (h : o / 30 ≠ n / 30) (hclear : b.pool.isClearing = false)
    (hwait : ∀ sl ∈ (b.kitchen k).waitlist, ∃ y, (b.slot sl).body = .order y ∧ y.state = .waitlisted ∧ y.kitchen = k) :
    let x := b.kitchen k
    let l := b.dispatchable k c.w0
    ∃ b1, (b.setKitchen k (x.rolled c.w0)).Dispatched b1 k c.w0 l ∧
      (b1.setKitchen k (((x.rolled c.w0).dispatched c.w0 l).promoteIf
        ((x.rolled c.w0).dispatchLowers c.w0 l && b.triggersAct c))).Lapses (b.roll c k o n) k c.w0 x.waitlist := by
  intro x l
  obtain ⟨b1, hall, hdispatch⟩ := (b.setKitchen k (x.rolled c.w0)).dispatch_eq c k
  have hl : (b.setKitchen k (x.rolled c.w0)).dispatchable k c.w0 = l := rfl
  have hacts : (b.setKitchen k (x.rolled c.w0)).triggersAct c = b.triggersAct c := rfl
  have hkitchen := hall.kitchen
  rw [Records.setKitchen_kitchen_same, hl] at hkitchen
  rw [Records.setKitchen_kitchen_same, hl, hacts, hkitchen] at hdispatch
  refine ⟨b1, hall, ?_⟩
  have hroll : b.roll c k o n = ((b.setKitchen k (x.rolled c.w0)).dispatch c k).lapseAll c.w0
      (((b.setKitchen k (x.rolled c.w0)).dispatch c k).kitchen k).waitlist := by
    unfold Records.roll
    exact (if_neg h).trans (if_neg (by rw [hclear]; nofun))
  have hlist : (((x.rolled c.w0).dispatched c.w0 l).promoteIf
      ((x.rolled c.w0).dispatchLowers c.w0 l && b.triggersAct c)).waitlist = x.waitlist := by
    rw [Kitchen.promoteIf_eq, Kitchen.dispatched_eq]
    rfl
  rw [hroll, hdispatch, Records.setKitchen_kitchen_same, hlist]
  refine Records.lapseAll_lapses c.w0 fun sl hsl y hy => ?_
  obtain ⟨z, hz, hstate, hzk⟩ := hwait sl hsl
  have hslot : b1.slot sl = b.slot sl := hall.slots sl fun p hp e => by
    obtain ⟨hbody, -, hconfirmed, -⟩ := Records.mem_dispatchable.mp hp
    rw [e, Records.setKitchen_slot, hz] at hbody
    rw [← SlotBody.order.inj hbody, hstate] at hconfirmed
    cases hconfirmed
  rw [Records.setKitchen_slot, hslot, hz] at hy
  exact SlotBody.order.inj hy ▸ hzk

end Roll

/-- A promotion trigger by the pass it meets (R116, R118). -/
theorem Kitchen.promoteIf_pass (x : Kitchen) (acts : Bool) :
    (acts = true → x.pass = .idle → (x.promoteIf acts).pass = .promoting none ∧ (x.promoteIf acts).again = false) ∧
    (acts = true → x.pass ≠ .idle → (x.promoteIf acts).pass = x.pass ∧ (x.promoteIf acts).again = true) ∧
    (acts = false → (x.promoteIf acts).pass = x.pass ∧ (x.promoteIf acts).again = x.again) := by
  refine ⟨?_, ?_, ?_⟩
  · rintro rfl hidle
    rw [Kitchen.promoteIf, if_pos rfl, Kitchen.promote_of_idle hidle]
    exact ⟨rfl, rfl⟩
  · rintro rfl hbusy
    rw [Kitchen.promoteIf, if_pos rfl]
    cases hp : x.pass with
    | idle => exact absurd hp hbusy
    | shedding w => simp [Kitchen.promote, hp]
    | promoting p => simp [Kitchen.promote, hp]
  · rintro rfl
    exact ⟨rfl, rfl⟩

/-- Settles O48: the ring by `rolled_committed`, the orders by `roll_dispatches`, the trigger by `dispatchLowers_iff`. -/
theorem windowRollDispatchesAndLapses : Obligations.WindowRollDispatchesAndLapses := by
  intro k s
  refine ⟨fun hnone => ?_, fun o n rest hmail => ?_⟩
  · show execWindowRoll k s = .next s
    unfold execWindowRoll
    rw [hnone]
  intro b x w0 due late hwait
  refine ⟨b.roll s.clk k o n, ?_, Records.roll_within, fun hcross => ?_⟩
  · show execWindowRoll k s = _
    unfold execWindowRoll
    rw [hmail]
  cases hclear : b.pool.isClearing with
  | true =>
    rw [Records.roll_clearing hcross hclear, Records.setKitchen_kitchen_same]
    refine ⟨fun w hw => (x.rolled_committed w0 w).trans (if_pos hw), fun q hq =>
      ⟨Records.setKitchen_kitchen_other _ _ hq, rfl⟩, rfl, rfl, rfl, fun _ =>
      ⟨fun w hw => (x.rolled_committed w0 w).trans (if_neg (Nat.not_lt.mpr hw)), rfl, rfl⟩, nofun⟩
  | false =>
    obtain ⟨b1, hall, hlapse⟩ := Records.roll_dispatches (c := s.clk) hcross hclear hwait
    generalize hlist : b.dispatchable k s.clk.w0 = l at hall hlapse
    generalize b.roll s.clk k o n = b' at hlapse ⊢
    have hmem : ∀ p, p ∈ l ↔ due p := fun p => by
      rw [← hlist, Records.mem_dispatchable]
      rfl
    have hring : ∀ v, (b'.kitchen k).committed v = ((x.rolled w0).dispatched w0 l).committed v := fun v => by
      rw [hlapse.kitchen, Records.setKitchen_kitchen_same]
      exact Kitchen.promoteIf_committed _ _ v
    have hpast : ∀ w, w < w0 → (b'.kitchen k).committed w = 0 := fun w hw =>
      (hring w).trans (Kitchen.dispatched_past hw l _ ((x.rolled_committed w0 w).trans (if_pos hw)))
    have hrolled : ∀ w, w0 ≤ w → (x.rolled w0).committed w = x.committed w := fun w hw =>
      (x.rolled_committed w0 w).trans (if_neg (Nat.not_lt.mpr hw))
    have hrest : b' = { b with kitchens := b'.kitchens, queues := b'.queues, notices := b'.notices
                               pool := { b.pool with slots := b'.pool.slots } } := by
      rw [hlapse.rest, hall.rest]
      rfl
    have hqueues : ∀ q, b'.queue q = b1.queue q := fun q => by rw [hlapse.rest]; rfl
    have hunwaiting : ∀ p ∈ l, p.1 ∉ x.waitlist := fun p hp hsl => by
      obtain ⟨hbody, -, hconfirmed, -⟩ := (hmem p).mp hp
      obtain ⟨z, hz, hstate, -⟩ := hwait p.1 hsl
      rw [hbody] at hz
      rw [SlotBody.order.inj hz, hstate] at hconfirmed
      cases hconfirmed
    have hslots : ∀ sl, (∀ p ∈ l, p.1 ≠ sl) → b1.slot sl = b.slot sl := hall.slots
    have hwaiting : ∀ sl ∈ x.waitlist, b1.slot sl = b.slot sl := fun sl hsl =>
      hslots sl fun p hp e => hunwaiting p hp (e ▸ hsl)
    have hoverdue : ∀ y : Order, y.overdue s.clk.w0 = true ↔ y.delivery / 30 ≤ w0 + 1 := fun y => decide_eq_true_iff
    have hkept : ∀ sl, (∀ y, ¬ late sl y) →
        b'.slot sl = b1.slot sl ∧ (sl ∈ (b'.kitchen k).waitlist ↔ sl ∈ x.waitlist) := fun sl hnot => by
      have h := hlapse.kept sl fun hsl y hy => Bool.eq_false_iff.mpr fun hov =>
        hnot y ⟨hsl, (congrArg Slot.body (hwaiting sl hsl)).symm.trans hy, (hoverdue y).mp hov⟩
      refine ⟨h.1, h.2.trans ?_⟩
      rw [Records.setKitchen_kitchen_same, Kitchen.promoteIf_eq, Kitchen.dispatched_eq]
      exact Iff.rfl
    refine ⟨hpast, fun q hq => ⟨?_, (hqueues q).trans (hall.kitchens q hq).2⟩, ?_, ?_, ?_, nofun, fun _ =>
      ⟨l, hmem, ?_, ?_, ?_, fun p hp => ?_, fun sl y hlate => ?_, fun sl hnot => (hkept sl hnot).2,
      fun sl hsl hnot => (hkept sl hnot).1.trans (hslots sl hsl), fun w hw hapart => ?_, fun hbound => ?_⟩⟩
    · rw [hlapse.kitchens q hq, Records.setKitchen_kitchen_other _ _ hq, (hall.kitchens q hq).1,
        Records.setKitchen_kitchen_other _ _ hq]
    · rw [hrest]
    · rw [hrest]
    · rw [hrest]
    · rw [← hlist]
      exact (b.dispatchable_sorted k s.clk.w0).imp fun h => (dispatchBefore_iff _ _).mp h
    · exact (congrArg TicketQueue.entries (hqueues k)).trans hall.entries
    · exact (congrArg TicketQueue.inFlight (hqueues k)).trans hall.inFlight
    · exact (hkept p.1 fun y h => hunwaiting p hp h.1).1.trans (hall.queued p hp)
    · obtain ⟨hsl, hbody, hov⟩ := hlate
      have hslot : b1.slot sl = b.slot sl := hwaiting sl hsl
      obtain ⟨hleft, hgone, hnotice⟩ := hlapse.late sl y hsl
        ((congrArg Slot.body hslot).trans hbody) ((hoverdue y).mpr hov)
      exact ⟨hgone, hleft.trans (by rw [Records.setKitchen_slot, hslot]; rfl), hnotice⟩
    · rw [hring, Kitchen.dispatched_frame w0 l _ hapart, hrolled w hw]
    · have hcommitted : ∀ w, w0 ≤ w → w ≤ w0 + 335 → (b'.kitchen k).committed w =
          x.committed w - if w0 < w then (l.map fun p => p.2.shareIn w).sum else 0 := fun w h0 h1 => by
        rw [hring, Kitchen.dispatched_committed h0 h1 hbound, hrolled w h0]
      intro lowered acts
      have hacts : ((x.rolled w0).dispatchLowers w0 l && b.triggersAct s.clk) = true ↔ acts := by
        rw [Bool.and_eq_true, Kitchen.dispatchLowers_iff hbound]
        refine and_congr (exists_congr fun w => and_congr_right fun h0 => and_congr_right fun _ => ?_)
          (by simp [Records.triggersAct])
        rw [hring, hrolled w h0.le]
      have hkitchen := hlapse.kitchen
      rw [Records.setKitchen_kitchen_same] at hkitchen
      have hbefore : ((x.rolled w0).dispatched w0 l).pass = x.pass ∧ ((x.rolled w0).dispatched w0 l).again = x.again := by
        rw [Kitchen.dispatched_eq]
        exact ⟨rfl, rfl⟩
      obtain ⟨hidle, hbusy, hquiet⟩ := ((x.rolled w0).dispatched w0 l).promoteIf_pass
        ((x.rolled w0).dispatchLowers w0 l && b.triggersAct s.clk)
      rw [hbefore.1] at hidle hbusy hquiet
      rw [hbefore.2] at hquiet
      refine ⟨hcommitted, ?_, fun h hp => ?_, fun h hp => ?_, fun h => ?_⟩
      · rw [hkitchen, Kitchen.promoteIf_eq, Kitchen.dispatched_eq]
        rfl
      · rw [hkitchen]; exact hidle (hacts.mpr h) hp
      · rw [hkitchen]; exact hbusy (hacts.mpr h) hp
      · rw [hkitchen]; exact hquiet (Bool.eq_false_iff.mpr (mt hacts.mp h))

end Sys2Proof.Machine

/-! The sweep of a line, and the start of a visit (R140, R153, R154). -/

namespace Sys2Proof.Machine

open Sys2Proof

/-! ## The nodes to be visited, sweep by sweep (R153) -/

/-- Node `m` is to be visited in the `i`-th sweep from the present one, which is the sweep 0. -/
def Line.DueAt (l : Line) (i : Nat) (m : NodeNo) : Prop :=
  (∀ p, i = 0 → l.sweepPos = some p → p < m) ∧ (l.node m).kind ≠ .unused ∧
    ((l.node m).state ≠ .silent ∨ (l.sweepCount + i) % 8 = 0)

/-- A line once `j` sweeps have ended. -/
def Line.swept (l : Line) (j : Nat) : Line :=
  { l with sweepCount := (l.sweepCount + j) % 8, sweepPos := if j = 0 then l.sweepPos else none }

theorem Node.due_iff (x : Node) (count : Nat) :
    x.due count = true ↔ x.kind ≠ .unused ∧ (x.state ≠ .silent ∨ count = 0) := by
  have hconf : x.configured = true ↔ x.kind ≠ .unused := by
    unfold Node.configured
    cases x.kind <;> simp
  simp [Node.due, hconf]

section Sweep

variable {l : Line}

theorem Line.endSweep_iterate (h : l.sweepCount ≤ 7) (j : Nat) : (Line.endSweep^[j]) l = l.swept j := by
  induction j with
  | zero => simp [Line.swept, Nat.mod_eq_of_lt (Nat.lt_succ_of_le h)]
  | succ j ih =>
    rw [Function.iterate_succ_apply', ih]
    simp [Line.endSweep, Line.swept, Nat.add_assoc]

/-- Being above the sweep position and due, said of a line whose sweeps have ended. -/
theorem Line.swept_dueAt (l : Line) (j : Nat) (m : NodeNo) :
    (∀ p, (l.swept j).sweepPos = some p → p < m) ∧ ((l.swept j).node m).due (l.swept j).sweepCount = true ↔
      l.DueAt j m := by
  rw [Node.due_iff]
  refine and_congr (forall_congr' fun p => ?_) Iff.rfl
  by_cases hj : j = 0 <;> simp [Line.swept, hj]

theorem Line.swept_nextInSweep_none (l : Line) (j : Nat) :
    (l.swept j).nextInSweep = none ↔ ∀ m, ¬ l.DueAt j m := by
  rw [Line.nextInSweep_none]
  refine forall_congr' fun m => ?_
  rw [← l.swept_dueAt, not_and, Bool.not_eq_true]

/-- The first number found satisfies the test, and no lower one does. -/
theorem find?_finRange_some {n : Nat} {p : Fin n → Bool} {i : Fin n} (h : (List.finRange n).find? p = some i) :
    p i = true ∧ ∀ j, j < i → p j = false := by
  obtain ⟨hi, k, hk, rfl, hbefore⟩ := List.find?_eq_some_iff_getElem.mp h
  refine ⟨hi, fun j hj => ?_⟩
  rw [List.getElem_finRange] at hj
  simpa using hbefore j.val hj

theorem Line.nextInSweep_some {n : NodeNo} (h : l.nextInSweep = some n) :
    ((∀ p, l.sweepPos = some p → p < n) ∧ (l.node n).due l.sweepCount = true) ∧
      ∀ m, m < n → ¬ ((∀ p, l.sweepPos = some p → p < m) ∧ (l.node m).due l.sweepCount = true) := by
  obtain ⟨hn, hbefore⟩ := find?_finRange_some h
  cases hpos : l.sweepPos with
  | none =>
    simp only [hpos] at hn hbefore
    exact ⟨by simpa using hn, fun m hm => by simpa using hbefore m hm⟩
  | some p =>
    simp only [hpos] at hn hbefore
    exact ⟨by simpa using hn, fun m hm => by simpa using hbefore m hm⟩

/-- The lowest node to be visited in a sweep is its next one. -/
theorem Line.swept_nextInSweep_some {j : Nat} {n : NodeNo} (hn : l.DueAt j n) (hlow : ∀ m, m < n → ¬ l.DueAt j m) :
    (l.swept j).nextInSweep = some n := by
  cases h : (l.swept j).nextInSweep with
  | none => exact absurd hn ((l.swept_nextInSweep_none j).mp h n)
  | some m =>
    obtain ⟨hdue, hbefore⟩ := Line.nextInSweep_some h
    rw [l.swept_dueAt] at hdue
    rcases lt_trichotomy m n with hlt | rfl | hlt
    · exact absurd hdue (hlow m hlt)
    · rfl
    · exact absurd ((l.swept_dueAt j n).mpr hn) (hbefore n hlt)

theorem Line.choose_snd (fuel : Nat) (l : Line) : (Line.choose fuel l).2 = (Line.choose fuel l).1.nextInSweep := by
  induction fuel generalizing l with
  | zero => rfl
  | succ fuel ih =>
    cases h : l.nextInSweep with
    | some n => simp [Line.choose, h]
    | none => simpa [Line.choose, h] using ih l.endSweep

/-- The choice of a line stops at the first sweep that has a node to be visited. -/
theorem Line.chooseNext_eq {j : Nat} {n : NodeNo} (h7 : l.sweepCount ≤ 7) (hj : j ≤ 8)
    (hnone : ∀ i m, i < j → ¬ l.DueAt i m) (hn : l.DueAt j n) :
    l.chooseNext = (l.swept j, (l.swept j).nextInSweep) := by
  have hsome : (l.swept j).nextInSweep ≠ none := fun h => (l.swept_nextInSweep_none j).mp h n hn
  obtain ⟨j', hle, hfst, hbefore, hafter⟩ := Line.choose_fst 8 l
  simp only [Line.endSweep_iterate h7] at hfst hbefore hafter
  have hsame : j' = j := by
    rcases lt_trichotomy j' j with hlt | heq | hlt
    · exact absurd ((l.swept_nextInSweep_none j').mpr fun m => hnone j' m hlt) (hafter (by omega))
    · exact heq
    · exact absurd (hbefore j hlt) hsome
  rw [hsame] at hfst
  rw [Line.chooseNext, if_pos (l.any_configured.mpr ⟨n, hn.2.1⟩)]
  exact Prod.ext hfst ((Line.choose_snd 8 l).trans (congrArg Line.nextInSweep hfst))

theorem Line.chooseNext_unused (h : ∀ m : NodeNo, (l.node m).kind = .unused) : l.chooseNext = (l, none) :=
  if_neg fun hany => (l.any_configured.mp hany).elim fun m hm => hm (h m)

end Sweep

/-! ## The start of a visit (R140, R154) -/

section Start

variable {b : Records} {l : LineNo} {ln : Line} {n : NodeNo}

theorem Records.startVisit_poll {r : RoomNo} (c : Clock) (hk : (ln.node n).kind = .panel r)
    (hs : (ln.node n).stale = false) : b.startVisit c l ln n = b.setLine l (ln.beginVisit n .poll []) := by
  simp [Records.startVisit, hk, hs]

theorem Records.startVisit_page {r : RoomNo} (c : Clock) (hk : (ln.node n).kind = .panel r)
    (hs : (ln.node n).stale = true) : b.startVisit c l ln n = b.startPage c l ln n r := by
  simp [Records.startVisit, hk, hs]

theorem Records.startVisit_terminal {k : KitchenNo} (c : Clock) (hk : (ln.node n).kind = .terminal k) :
    b.startVisit c l ln n = (b.setInFlight k (b.chooseFrame k).2.2).setLine l
      (ln.beginVisit n (b.chooseFrame k).1 (b.chooseFrame k).2.1) := by
  simp [Records.startVisit, hk]

theorem Records.clearTurnarounds_attrs (b : Records) (now : Nat) (rs : List RoomNo) (q : RoomNo) :
    ((b.clearTurnarounds now rs).room q).attrs = (b.room q).attrs := by
  rw [b.clearTurnarounds_room]
  split <;> rfl

/-- The start of a visit writes rooms, queues and lines alone. -/
theorem Records.startVisit_tables (b : Records) (c : Clock) (l : LineNo) (ln : Line) (n : NodeNo) :
    b.startVisit c l ln n = { b with rooms := (b.startVisit c l ln n).rooms, queues := (b.startVisit c l ln n).queues
                                     lines := (b.startVisit c l ln n).lines } := by
  cases hk : (ln.node n).kind with
  | unused => simp [Records.startVisit, hk]
  | panel r =>
    cases hs : (ln.node n).stale with
    | false => rw [Records.startVisit_poll c hk hs]; rfl
    | true => rw [Records.startVisit_page c hk hs, Records.startPage, b.clearTurnarounds_eq]; rfl
  | terminal k => rw [Records.startVisit_terminal c hk]; rfl

theorem Records.startVisit_line (b : Records) (c : Clock) {l m : LineNo} (ln : Line) (n : NodeNo) (hm : m ≠ l) :
    (b.startVisit c l ln n).line m = b.line m := by
  cases hk : (ln.node n).kind with
  | unused => simp [Records.startVisit, hk]
  | panel r =>
    cases hs : (ln.node n).stale with
    | false => rw [Records.startVisit_poll c hk hs, Records.setLine_line_other _ _ hm]
    | true =>
      rw [Records.startVisit_page c hk hs, Records.startPage, b.clearTurnarounds_eq, Records.setLine_line_other _ _ hm]
      rfl
  | terminal k => rw [Records.startVisit_terminal c hk, Records.setLine_line_other _ _ hm]; rfl

theorem Records.chooseFrame_poll {k : KitchenNo} (h : b.pool.isClearing = true ∨ (b.queue k).entries = []) :
    b.chooseFrame k = (.poll, [], none) := by
  unfold Records.chooseFrame
  split
  · rfl
  · rename_i hclear
    rw [h.resolve_left hclear]

theorem Records.chooseFrame_order {k : KitchenNo} {e : QueueEntry} {rest : List QueueEntry} {o : Order}
    (hclear : b.pool.isClearing = false) (he : (b.queue k).entries = e :: rest)
    (ho : (b.slot e.slot).body = .order o) :
    b.chooseFrame k =
      if e.asVoid then (.voided, b.voidPayload e.slot o, some (b.orderHandle e.slot, true))
      else (.ticket, b.ticketPayload e.slot o, some (b.orderHandle e.slot, false)) := by
  simp [Records.chooseFrame, hclear, he, Records.order?_eq_some.mpr ho]

end Start

theorem execVisitStart_idle {l : LineNo} {s : State} (h : (s.recs.line l).running = false ∨
    (s.recs.line l).visit ≠ none ∨ ∀ n : NodeNo, ((s.recs.line l).node n).kind = .unused) :
    execVisitStart l s = .next s := by
  unfold execVisitStart
  dsimp only
  split
  · rename_i hopen
    obtain ⟨hrun, hvisit⟩ := Bool.and_eq_true_iff.mp hopen
    rcases h with h | h | h
    · rw [h] at hrun; cases hrun
    · exact absurd (Option.isNone_iff_eq_none.mp hvisit) h
    · rw [Line.chooseNext_unused h]
  · rfl

theorem execVisitStart_chosen {l : LineNo} {s : State} {ln' : Line} {n : NodeNo}
    (hrun : (s.recs.line l).running = true) (hvisit : (s.recs.line l).visit = none)
    (hnext : (s.recs.line l).chooseNext = (ln', some n)) :
    execVisitStart l s = .next (s.withRecs (s.recs.startVisit s.clk l ln' n)) := by
  simp [execVisitStart, hrun, hvisit, hnext]

/-- Settles O57: the node by the sweep that `chooseNext_eq` stops at, the frame by the node's kind. -/
theorem visitsBegin : Obligations.VisitsBegin := by
  intro l s b ln now
  refine ⟨execVisitStart_idle, ?_⟩
  intro n j hrun hvisit h7 hj due hnone hn hlow x address visited
  have hnext : ln.chooseNext = (ln.swept j, some n) :=
    (Line.chooseNext_eq h7 hj hnone hn).trans (congrArg _ (Line.swept_nextInSweep_some hn hlow))
  refine ⟨_, execVisitStart_chosen hrun hvisit hnext, fun m hm => b.startVisit_line s.clk _ n hm,
    b.startVisit_tables s.clk l _ n, fun r hk hs => ?_, fun r hk hs => ?_, fun k hk => ?_⟩
  · rw [Records.startVisit_poll (ln := ln.swept j) s.clk hk hs]
    exact ⟨Records.setLine_line_same .., rfl⟩
  · rw [Records.startVisit_page (ln := ln.swept j) s.clk hk hs]
    have hrooms := b.clearTurnarounds_eq now (b.conflictSet r)
    intro b1 a
    have hb1 : b1 = b.clearTurnarounds now (b.conflictSet r) := hrooms.symm
    refine ⟨?_, b.clearTurnarounds_room now _, ?_⟩
    · rw [Records.startPage, hrooms]
      rfl
    · refine (Records.setLine_line_same ..).trans ?_
      dsimp only
      rw [hb1, b.clearTurnarounds_attrs now (b.conflictSet r) r]
      rfl
  · rw [Records.startVisit_terminal (ln := ln.swept j) s.clk hk]
    refine ⟨rfl, fun p hp => Records.setQueue_queue_other _ _ hp, fun hpoll => ?_, fun e rest o hclear he ho => ?_⟩
    · rw [Records.chooseFrame_poll hpoll]
      exact ⟨Records.setLine_line_same .., Records.setQueue_queue_same ..⟩
    · rw [Records.chooseFrame_order hclear he ho]
      refine ⟨?_, fun hv => ?_, fun hv => ?_⟩
      · cases e.asVoid <;> exact Records.setQueue_queue_same ..
      · rw [hv]
        exact Records.setLine_line_same ..
      · rw [hv]
        exact Records.setLine_line_same ..

end Sys2Proof.Machine

/-! The end of a visit by an answer or a loss: the frames judged, the settlement beside the lines, and the line that
chooses its next node (R141 to R143, R153, R155 to R158, R185). -/

namespace Sys2Proof.Machine

open Sys2Proof

/-! ## The line when its visit ends (R153) -/

section VisitEnded

variable {l : Line}

/-- Some sweep has a node to be visited: the one counted 0 visits every configured node. -/
theorem Line.dueAt_sweepZero {m : NodeNo} (hm : (l.node m).kind ≠ .unused) (h7 : l.sweepCount ≤ 7) :
    l.DueAt (8 - l.sweepCount) m :=
  ⟨fun _ hzero => by omega, hm, .inr (by omega)⟩

theorem Line.visitEnded_unused (h : ∀ m : NodeNo, (l.node m).kind = .unused) :
    l.visitEnded = { l with visit := none } :=
  congrArg Prod.fst (Line.chooseNext_unused (l := { l with visit := none }) h)

/-- A visit ended counts the sweeps that end without a node to be visited. -/
theorem Line.visitEnded_swept (hconf : ∃ m : NodeNo, (l.node m).kind ≠ .unused) (h7 : l.sweepCount ≤ 7) :
    ∃ j, j ≤ 8 ∧ (∃ m, l.DueAt j m) ∧ (∀ i m, i < j → ¬ l.DueAt i m) ∧
      l.visitEnded = ({ l with visit := none } : Line).swept j := by
  classical
  obtain ⟨m, hm⟩ := hconf
  have hsome : ∃ j m, l.DueAt j m := ⟨_, m, Line.dueAt_sweepZero hm h7⟩
  have hle : Nat.find hsome ≤ 8 := (Nat.find_min' hsome ⟨m, Line.dueAt_sweepZero hm h7⟩).trans (Nat.sub_le ..)
  have hbefore : ∀ i m, i < Nat.find hsome → ¬ l.DueAt i m := fun i m hi hdue => Nat.find_min hsome hi ⟨m, hdue⟩
  obtain ⟨n, hn⟩ := Nat.find_spec hsome
  exact ⟨_, hle, ⟨n, hn⟩, hbefore,
    congrArg Prod.fst (Line.chooseNext_eq (l := { l with visit := none }) h7 hle hbefore hn)⟩

/-- The choice writes sweep count and sweep position alone. -/
theorem Line.visitEnded_eq (l : Line) :
    ∃ count pos, l.visitEnded = { l with visit := none, sweepCount := count, sweepPos := pos } := by
  have hend : ∀ (j : Nat) (x : Line), ∃ count pos, (Line.endSweep^[j]) x =
      { x with sweepCount := count, sweepPos := pos } := fun j x => by
    induction j with
    | zero => exact ⟨x.sweepCount, x.sweepPos, rfl⟩
    | succ j ih =>
      obtain ⟨count, pos, hj⟩ := ih
      rw [Function.iterate_succ_apply', hj]
      exact ⟨_, _, rfl⟩
  unfold Line.visitEnded Line.chooseNext
  split
  · obtain ⟨j, -, hj, -⟩ := Line.choose_fst 8 { l with visit := none }
    rw [hj]
    exact hend j _
  · exact ⟨l.sweepCount, l.sweepPos, rfl⟩

end VisitEnded

/-! ## A frame judged (R155) -/

/-- A covered part of a frame that a node of kind `kind` does not answer with: frame kind `k`, payload length `len`, the
payload at the front of `rest`. -/
def NodeKind.Unfit (kind : NodeKind) (k : Byte) (len : Nat) (rest : List Byte) : Prop :=
  match kind with
  | .unused => True
  | .panel _ => k ≠ 9 ∨ len ≠ 2
  | .terminal _ => k ≠ 10 ∨ len < 2 ∨ len < 2 + 5 * min 4 (rest.getD 1 0).toNat

theorem ofBytes_pair (high low : Byte) : ofBytes [high, low] = high.toNat * 256 + low.toNat := by
  simp [ofBytes]

theorem be_two (n : Nat) : be 2 n = [BitVec.ofNat 8 (n / 256), BitVec.ofNat 8 n] := by
  simp [be]

theorem nodeAddress_iff (n : NodeNo) (a : Byte) : a.toNat = n.val + 1 + 128 ↔ a = BitVec.ofNat 8 (n.val + 129) := by
  have hn := n.isLt
  constructor
  · intro h
    exact BitVec.eq_of_toNat_eq (by rw [h, BitVec.toNat_ofNat]; omega)
  · rintro rfl
    rw [BitVec.toNat_ofNat]
    omega

/-- A frame of four bytes or more is a good answer when its address, number of bytes, check sequence, kind and payload
length meet R155, and then carries the bytes that its length declares. -/
theorem goodAnswer_some (n : NodeNo) (kind : NodeKind) (a k high low : Byte) (rest p : List Byte) :
    goodAnswer n kind (a :: k :: high :: low :: rest) = some p ↔
      (a = BitVec.ofNat 8 (n.val + 129) ∧ rest.length = high.toNat * 256 + low.toNat + 2 ∧
        rest.drop (high.toNat * 256 + low.toNat) =
          crcBytes (k :: high :: low :: rest.take (high.toNat * 256 + low.toNat)) ∧
        ¬ kind.Unfit k (high.toNat * 256 + low.toNat) rest) ∧ p = rest.take (high.toNat * 256 + low.toNat) := by
  have hfits : ∀ len : Nat, 2 ≤ len → byteAt (rest.take len) 1 = rest.getD 1 0 := fun len h => by
    simp [byteAt, show 1 < len by omega]
  unfold goodAnswer
  dsimp only
  rw [ofBytes_pair, Option.ite_none_right_eq_some]
  refine and_congr (and_congr (nodeAddress_iff n a) (and_congr_right fun _ => and_congr_right fun _ => ?_))
    (Option.some_inj.trans eq_comm)
  generalize high.toNat * 256 + low.toNat = len
  cases kind with
  | unused => simp [NodeKind.Unfit]
  | panel r =>
    simp only [NodeKind.Unfit, Bool.and_eq_true, decide_eq_true_eq, not_or, not_not]
    exact ⟨fun ⟨_, hfit⟩ => hfit, fun ⟨hk, hlen⟩ => ⟨hlen.ge, hk, hlen⟩⟩
  | terminal q =>
    simp only [NodeKind.Unfit, Bool.and_eq_true, decide_eq_true_eq, not_or, not_not, not_lt]
    constructor
    · rintro ⟨h2, hk, hlen⟩
      exact ⟨hk, h2, hfits len h2 ▸ hlen⟩
    · rintro ⟨hk, h2, hlen⟩
      exact ⟨h2, hk, (hfits len h2).symm ▸ hlen⟩

/-- A frame of four bytes or more is a loss exactly when one of the tests of R155 fails. -/
theorem goodAnswer_none (n : NodeNo) (kind : NodeKind) (a k high low : Byte) (rest : List Byte) :
    goodAnswer n kind (a :: k :: high :: low :: rest) = none ↔
      a ≠ BitVec.ofNat 8 (n.val + 129) ∨ rest.length ≠ high.toNat * 256 + low.toNat + 2 ∨
        rest.drop (high.toNat * 256 + low.toNat) ≠
          crcBytes (k :: high :: low :: rest.take (high.toNat * 256 + low.toNat)) ∨
        kind.Unfit k (high.toNat * 256 + low.toNat) rest := by
  rw [Option.eq_none_iff_forall_ne_some]
  simp only [ne_eq, goodAnswer_some, not_and', forall_eq]
  tauto

/-- A frame from another address is no good answer, however long it is. -/
theorem goodAnswer_address {n : NodeNo} {a : Byte} (h : a ≠ BitVec.ofNat 8 (n.val + 129)) (kind : NodeKind)
    (rest : List Byte) : goodAnswer n kind (a :: rest) = none :=
  match rest with
  | [] => rfl
  | [_] => rfl
  | [_, _] => rfl
  | _ :: _ :: _ :: _ => (goodAnswer_none ..).mpr (.inl h)

theorem NodeKind.two_le_of_fit {kind : NodeKind} {k : Byte} {len : Nat} {rest : List Byte}
    (h : ¬ kind.Unfit k len rest) : 2 ≤ len := by
  cases kind with
  | unused => exact absurd trivial h
  | panel r => exact (not_not.mp (not_or.mp h).2).ge
  | terminal q => exact not_lt.mp (not_or.mp (not_or.mp h).2).1

/-- A good answer has eight bytes at least: four in front of the payload, a payload of two, and the check. -/
theorem goodAnswer_short {frame : List Byte} (n : NodeNo) (kind : NodeKind) (h : frame.length < 8) :
    goodAnswer n kind frame = none := by
  match frame with
  | [] => rfl
  | [_] => rfl
  | [_, _] => rfl
  | [_, _, _] => rfl
  | _ :: _ :: high :: low :: rest =>
    refine (goodAnswer_none ..).mpr (or_iff_not_imp_left.mpr fun _ => or_iff_not_imp_left.mpr fun hlen =>
      .inr (not_not.mp fun hfit => ?_))
    have h2 := NodeKind.two_le_of_fit hfit
    simp only [List.length_cons] at h
    omega

/-- A sealed frame from the visited node with a payload that fits is a good answer. -/
theorem goodAnswer_sealFrame {n : NodeNo} {kind : NodeKind} {k : Byte} {p : List Byte} (hlen : p.length < 65536)
    (hfit : ¬ kind.Unfit k p.length (p ++ crcBytes (k :: be 2 p.length ++ p))) :
    goodAnswer n kind (sealFrame (BitVec.ofNat 8 (n.val + 129)) (k :: be 2 p.length ++ p)) = some p := by
  have hnum : (BitVec.ofNat 8 (p.length / 256)).toNat * 256 + (BitVec.ofNat 8 p.length).toNat = p.length := by
    rw [BitVec.toNat_ofNat, BitVec.toNat_ofNat]
    omega
  rw [be_two] at hfit ⊢
  refine (goodAnswer_some ..).mpr ?_
  rw [hnum]
  refine ⟨⟨rfl, ?_, ?_, hfit⟩, ?_⟩
  · simp [crcBytes, be_two]
  · simp
  · simp

theorem goodAnswer_panel (n : NodeNo) (r : RoomNo) (motion code : Byte) :
    goodAnswer n (.panel r) (sealFrame (BitVec.ofNat 8 (n.val + 129)) [9, 0, 2, motion, code]) =
      some [motion, code] := by
  have hcovered : ([9, 0, 2, motion, code] : List Byte) = 9 :: be 2 [motion, code].length ++ [motion, code] := by
    simp [be]
  rw [hcovered]
  exact goodAnswer_sealFrame (by simp) (by simp [NodeKind.Unfit])

theorem goodAnswer_terminal (n : NodeNo) (k : KitchenNo) {level count : Byte} {rest : List Byte}
    (hreports : 5 * min 4 count.toNat ≤ rest.length) (hlen : rest.length < 65000) :
    goodAnswer n (.terminal k) (sealFrame (BitVec.ofNat 8 (n.val + 129))
      (10 :: be 2 (rest.length + 2) ++ level :: count :: rest)) = some (level :: count :: rest) := by
  refine goodAnswer_sealFrame (p := level :: count :: rest) (by simp only [List.length_cons]; omega) ?_
  simp [NodeKind.Unfit]
  omega

/-! ## The fields of an answer (R185) -/

theorem numAt_pair {p : List Byte} {off : Nat} (h : off + 1 < p.length) :
    numAt p off 2 = (p.getD off 0).toNat * 256 + (p.getD (off + 1) 0).toNat := by
  have hoff : off < p.length := by omega
  rw [numAt, List.drop_eq_getElem_cons hoff, List.drop_eq_getElem_cons h, List.take_succ_cons, List.take_succ_cons,
    List.take_zero, ofBytes_pair, List.getD_eq_getElem _ _ hoff, List.getD_eq_getElem _ _ h]

/-- The order reports of an answer, five bytes each behind level and count. -/
theorem reportsOf_eq {level count : Byte} {rest : List Byte} (h : 5 * min 4 count.toNat ≤ rest.length) :
    reportsOf (level :: count :: rest) = (List.range (min 4 count.toNat)).map fun i =>
      { kind := rest.getD (5 * i) 0
        handle := { kind := rest.getD (5 * i + 1) 0, gen := rest.getD (5 * i + 2) 0
                    slot := (rest.getD (5 * i + 3) 0).toNat * 256 + (rest.getD (5 * i + 4) 0).toNat } } := by
  have hbyte : ∀ j, byteAt (level :: count :: rest) (j + 2) = rest.getD j 0 := fun _ => rfl
  have hcount : byteAt (level :: count :: rest) 1 = count := rfl
  rw [reportsOf, hcount]
  refine List.map_congr_left fun i hi => ?_
  have hi := List.mem_range.mp hi
  have hslot : numAt (level :: count :: rest) (5 * i + 5) 2 =
      (rest.getD (5 * i + 3) 0).toNat * 256 + (rest.getD (5 * i + 4) 0).toNat :=
    numAt_pair (by simp only [List.length_cons]; omega)
  rw [handleAt, show 2 + 5 * i = 5 * i + 2 by omega, show 3 + 5 * i = 5 * i + 1 + 2 by omega, hbyte, hbyte,
    show 5 * i + 1 + 2 + 1 = 5 * i + 2 + 2 by omega, hbyte, show 5 * i + 1 + 2 + 2 = 5 * i + 5 by omega, hslot]

/-- The requests of a panel answer by its code; a code above 4 is none. -/
theorem requestOf_cases (code : Byte) :
    (code = 1 → (requestOf code).toList = [.checkIn]) ∧ (code = 2 → (requestOf code).toList = [.extend]) ∧
    (code = 3 → (requestOf code).toList = [.release]) ∧ (code = 4 → (requestOf code).toList = [.walkUp]) ∧
    (code = 0 ∨ 4 < code → (requestOf code).toList = []) := by
  refine ⟨?_, ?_, ?_, ?_, ?_⟩
  · rintro rfl; rfl
  · rintro rfl; rfl
  · rintro rfl; rfl
  · rintro rfl; rfl
  · intro h
    obtain ⟨h1, h2, h3, h4⟩ : code ≠ 1 ∧ code ≠ 2 ∧ code ≠ 3 ∧ code ≠ 4 := by
      refine ⟨?_, ?_, ?_, ?_⟩ <;> (rintro rfl; revert h; decide)
    rw [requestOf, if_neg h1, if_neg h2, if_neg h3, if_neg h4]
    rfl

/-! ## What an answer and a loss do beside the lines -/

section Tickets

variable (b : Records) (lines : Vector Line 4) (k : KitchenNo)

/-- The settlement of an answer neither reads nor writes a line (R141). -/
theorem Records.settleAnswer_withLines :
    ({ b with lines := lines } : Records).settleAnswer k = { b.settleAnswer k with lines := lines } := by
  have hhead : ({ b with lines := lines } : Records).headInFlight k = b.headInFlight k := rfl
  cases h : b.headInFlight k with
  | none => rw [Records.settleAnswer_none h, Records.settleAnswer_none (hhead.trans h)]; rfl
  | some x =>
    obtain ⟨sl, o, sent⟩ := x
    cases sent with
    | true =>
      rw [Records.settleAnswer_void h, Records.settleAnswer_void (hhead.trans h)]
      split <;> rfl
    | false =>
      rw [Records.settleAnswer_ticket h, Records.settleAnswer_ticket (hhead.trans h)]
      split
      · rfl
      · split <;> rfl

theorem Records.settleAnswer_kitchens : (b.settleAnswer k).kitchens = b.kitchens := by
  cases h : b.headInFlight k with
  | none => rw [Records.settleAnswer_none h]; rfl
  | some x => exact (Records.settleAnswer_settled h).1.kitchens

/-- A report writes pool and notices alone, and reads no line (R143). -/
theorem Records.takeReport_tables (x : Report) :
    ({ b with lines := lines } : Records).takeReport k x =
      { b with pool := (b.takeReport k x).pool, notices := (b.takeReport k x).notices, lines := lines } := by
  have hcheck : ({ b with lines := lines } : Records).checkHandle orderKind x.handle =
      b.checkHandle orderKind x.handle := rfl
  have horder : ∀ sl, ({ b with lines := lines } : Records).order? sl = b.order? sl := fun _ => rfl
  unfold Records.takeReport
  rw [hcheck]
  split
  · rfl
  · rw [horder]
    split
    · rfl
    · split
      · split
        · rfl
        · dsimp only
          split <;> rfl
      · rfl

theorem Records.takeReport_withLines (x : Report) :
    ({ b with lines := lines } : Records).takeReport k x = { b.takeReport k x with lines := lines } :=
  (b.takeReport_tables lines k x).trans
    (congrArg (fun y : Records => { y with lines := lines }) (b.takeReport_tables b.lines k x)).symm

theorem Records.takeReport_kitchens (x : Report) : (b.takeReport k x).kitchens = b.kitchens :=
  (congrArg Records.kitchens (b.takeReport_tables b.lines k x) :)

theorem Records.terminalAnswered_withLines (payload : List Byte) :
    ({ b with lines := lines } : Records).terminalAnswered k payload =
      { b.terminalAnswered k payload with lines := lines } := by
  unfold Records.terminalAnswered
  rw [Records.settleAnswer_withLines]
  generalize b.settleAnswer k = b₁
  induction reportsOf payload generalizing b₁ with
  | nil => rfl
  | cons x rest ih => rw [List.foldl_cons, List.foldl_cons, Records.takeReport_withLines, ih]

theorem Records.terminalAnswered_kitchens (payload : List Byte) :
    (b.terminalAnswered k payload).kitchens = b.kitchens := by
  unfold Records.terminalAnswered
  rw [← b.settleAnswer_kitchens k]
  generalize b.settleAnswer k = b₁
  induction reportsOf payload generalizing b₁ with
  | nil => rfl
  | cons x rest ih => rw [List.foldl_cons, ih, Records.takeReport_kitchens]

/-- A level formed again neither reads nor writes a line (R101). -/
theorem Records.reformLevel_withLines (c : Clock) (x : Kitchen) :
    ({ b with lines := lines } : Records).reformLevel c k x = { b.reformLevel c k x with lines := lines } := by
  have hkitchen : ({ b with lines := lines } : Records).kitchen k = b.kitchen k := rfl
  have hacts : ({ b with lines := lines } : Records).triggersAct c = b.triggersAct c := rfl
  unfold Records.reformLevel Records.changeKitchen
  rw [hkitchen, hacts]
  dsimp only
  split
  · split <;> rfl
  · split <;> rfl

end Tickets

/-- What a good answer of node `x` does beside its line: its notice, and its terminal's settlement, reports and level
(R156, R158). -/
def Records.heardFrom (b : Records) (c : Clock) (x : Node) (payload : List Byte) : Records :=
  match x.kind with
  | .unused => b.raiseBack x
  | .panel _ => b.raiseBack x
  | .terminal k => ((b.raiseBack x).terminalAnswered k payload).terminalReported c k (levelOf payload)

/-- The ticket frame of a visit to node `x` settled as lost (R142). -/
def Records.ticketLost (b : Records) (x : Node) : Records :=
  match x.kind with
  | .unused => b
  | .panel _ => b
  | .terminal k => b.settleLoss k

/-- What the loss of a frame to node `x` does beside its line: its ticket settled, its notice and its kitchen's loss
(R142, R157). -/
def Records.lostAt (b : Records) (c : Clock) (x : Node) : Records := ((b.ticketLost x).raiseSilent x).lossOf c x

section Beside

variable (b : Records) (lines : Vector Line 4) (c : Clock) (x : Node)

theorem Records.raiseBack_withLines :
    ({ b with lines := lines } : Records).raiseBack x = { b.raiseBack x with lines := lines } := by
  unfold Records.raiseBack
  split
  · split <;> rfl
  · rfl

theorem Records.raiseSilent_withLines :
    ({ b with lines := lines } : Records).raiseSilent x = { b.raiseSilent x with lines := lines } := by
  unfold Records.raiseSilent
  split
  · split <;> rfl
  · rfl

theorem Records.lossOf_withLines :
    ({ b with lines := lines } : Records).lossOf c x = { b.lossOf c x with lines := lines } := by
  unfold Records.lossOf
  split
  · split
    · exact b.reformLevel_withLines lines _ c _
    · rfl
  · rfl

theorem Records.heardFrom_withLines (payload : List Byte) :
    ({ b with lines := lines } : Records).heardFrom c x payload = { b.heardFrom c x payload with lines := lines } := by
  unfold Records.heardFrom
  rw [Records.raiseBack_withLines]
  split
  · rfl
  · rfl
  · rw [Records.terminalAnswered_withLines]
    exact Records.reformLevel_withLines _ lines _ c _

theorem Records.ticketLost_withLines :
    ({ b with lines := lines } : Records).ticketLost x = { b.ticketLost x with lines := lines } := by
  unfold Records.ticketLost
  split
  · rfl
  · rfl
  · exact b.settleLoss_withLines _ lines

theorem Records.lostAt_withLines :
    ({ b with lines := lines } : Records).lostAt c x = { b.lostAt c x with lines := lines } := by
  unfold Records.lostAt
  rw [Records.ticketLost_withLines, Records.raiseSilent_withLines, Records.lossOf_withLines]

theorem Records.heardFrom_lines (payload : List Byte) : (b.heardFrom c x payload).lines = b.lines :=
  (congrArg Records.lines (b.heardFrom_withLines b.lines c x payload) :)

theorem Records.lostAt_lines : (b.lostAt c x).lines = b.lines :=
  (congrArg Records.lines (b.lostAt_withLines b.lines c x) :)

end Beside

/-! ## The records after an answer and after a loss -/

/-- Node `x` after the good answer to a frame of kind `frame` (R156). -/
def Node.afterAnswer (x : Node) (frame : FrameKind) : Node :=
  if frame = .page then x.answered.pageSettled else x.answered

/-- Node `x` once the loss of its frame is settled: a page that was not answered is stale again (R157). -/
def Node.unshown (x : Node) (frame : FrameKind) : Node := if frame = .page ∧ x.isPanel = true then x.mark else x

/-- Node `x` after the loss of a frame of kind `frame` (R157). -/
def Node.afterLoss (x : Node) (frame : FrameKind) : Node := (x.unshown frame).missed

theorem Node.afterAnswer_eq (x : Node) (frame : FrameKind) : x.afterAnswer frame =
    { x with misses := 0, state := .online, stale := x.stale || (decide (x.state ≠ .online) && x.isPanel)
             age := if decide (frame = .page) then 0 else x.age
             pendingResult := if decide (frame = .page) && x.carried then none else x.pendingResult
             carried := x.carried && !decide (frame = .page) } := by
  unfold Node.afterAnswer
  by_cases h : frame = .page
  · simp [h, Node.answered, Node.pageSettled, Node.comesBack]
  · simp [h, Node.answered, Node.comesBack]

theorem Node.afterLoss_eq (x : Node) (frame : FrameKind) : x.afterLoss frame =
    { x with misses := min 3 (x.misses + 1), state := if x.misses = 2 then .silent else x.state
             stale := x.stale || (decide (frame = .page) && x.isPanel) } := by
  unfold Node.afterLoss Node.unshown
  by_cases h : frame = .page ∧ x.isPanel = true
  · simp [h, Node.missed, Node.mark]
  · have hstale : (decide (frame = .page) && x.isPanel) = false := by simpa using h
    rw [if_neg h, hstale, Bool.or_false, Node.missed]

/-- What an act that neither reads nor writes a line does beside a line changed before and after it. -/
theorem Records.setLine_around {f : Records → Records}
    (hf : ∀ (b : Records) (lines : Vector Line 4), f { b with lines := lines } = { f b with lines := lines })
    (b : Records) (l : LineNo) (y : Line) (g : Line → Line) :
    (f (b.setLine l y)).setLine l (g ((f (b.setLine l y)).line l)) = (f b).setLine l (g y) := by
  have hlines : (f b).lines = b.lines := (congrArg Records.lines (hf b b.lines) :)
  have hset : f (b.setLine l y) = (f b).setLine l y := by
    rw [Records.setLine, hf, Records.setLine, hlines]
  rw [hset, Records.setLine_line_same, Records.setLine_setLine]

/-- A good answer acts on its line and, apart from that, beside it. -/
theorem Records.goodAnswer_eq (b : Records) (c : Clock) (l : LineNo) (v : Visit) (payload : List Byte) :
    b.goodAnswer c l v payload = (b.heardFrom c ((b.line l).node v.node) payload).setLine l
      ((b.line l).setNode v.node (((b.line l).node v.node).afterAnswer v.frame)).visitEnded := by
  have haround := Records.setLine_around (f := fun b₁ => b₁.heardFrom c ((b.line l).node v.node) payload)
    (fun b₁ lines => b₁.heardFrom_withLines lines c _ payload) b l
    ((b.line l).setNode v.node (((b.line l).node v.node).afterAnswer v.frame)) Line.visitEnded
  refine Eq.trans ?_ haround
  unfold Records.goodAnswer Records.heardFrom
  dsimp only
  cases ((b.line l).node v.node).kind <;> rfl

theorem Line.setNode_setNode (l : Line) (n : NodeNo) (x y : Node) : (l.setNode n x).setNode n y = l.setNode n y := by
  simp [Line.setNode]

theorem Records.settleFrame_eq (b : Records) (l : LineNo) (v : Visit) :
    b.settleFrame l v = (b.ticketLost ((b.line l).node v.node)).setLine l
      ((b.line l).setNode v.node (((b.line l).node v.node).unshown v.frame)) := by
  have hself : ∀ b₁ : Records, b₁.lines = b.lines →
      b₁.setLine l ((b.line l).setNode v.node ((b.line l).node v.node)) = b₁ := fun b₁ h => by
    have hnode : (b.line l).setNode v.node ((b.line l).node v.node) = b₁.line l := by
      simp [Line.setNode, Line.node, Records.line, h]
    rw [hnode]
    simp [Records.setLine, Records.line]
  unfold Records.settleFrame Records.ticketLost Node.unshown Node.isPanel
  dsimp only
  cases ((b.line l).node v.node).kind with
  | unused => simp [hself b rfl]
  | panel r =>
    by_cases hp : v.frame = .page
    · simp [hp]
    · simp [hp, hself b rfl]
  | terminal k =>
    have hlines : (b.settleLoss k).lines = b.lines := by rw [b.settleLoss_eq]
    simp [hself _ hlines]

/-- A loss acts on its line and, apart from that, beside it. -/
theorem Records.loss_eq (b : Records) (c : Clock) (l : LineNo) (v : Visit) :
    b.loss c l v = (b.lostAt c ((b.line l).node v.node)).setLine l
      ((b.line l).setNode v.node (((b.line l).node v.node).afterLoss v.frame)).visitEnded := by
  have haround := Records.setLine_around (f := fun b₁ => (b₁.raiseSilent ((b.line l).node v.node)).lossOf c
      ((b.line l).node v.node))
    (fun b₁ lines => by rw [Records.raiseSilent_withLines, Records.lossOf_withLines])
    (b.ticketLost ((b.line l).node v.node)) l
    ((b.line l).setNode v.node (((b.line l).node v.node).afterLoss v.frame)) Line.visitEnded
  have hunshown : ∀ b₁ : Records, (b₁.raiseSilent (((b.line l).node v.node).unshown v.frame)).lossOf c
      (((b.line l).node v.node).unshown v.frame) =
        (b₁.raiseSilent ((b.line l).node v.node)).lossOf c ((b.line l).node v.node) := fun b₁ => by
    unfold Node.unshown
    split <;> rfl
  refine Eq.trans ?_ haround
  unfold Records.loss
  dsimp only
  rw [Records.settleFrame_eq, Records.setLine_line_same, Line.setNode_node_same, Records.setLine_setLine,
    Line.setNode_setNode, hunshown]
  rfl

section Outcomes

variable {b : Records} {c : Clock} {x : Node}

theorem Records.heardFrom_panel {r : RoomNo} (h : x.kind = .panel r) (payload : List Byte) :
    b.heardFrom c x payload = if x.state ≠ .online then b.raise (.room r .panelBack) else b := by
  simp [Records.heardFrom, Records.raiseBack, Node.comesBack, h]

theorem Records.heardFrom_terminal {k : KitchenNo} (h : x.kind = .terminal k) (payload : List Byte) :
    b.heardFrom c x payload =
      ((if x.state ≠ .online then b.raise (.kitchen k .terminalBack) else b).terminalAnswered k
        payload).terminalReported c k (levelOf payload) := by
  simp [Records.heardFrom, Records.raiseBack, Node.comesBack, h]

theorem Records.lostAt_unused (h : x.kind = .unused) : b.lostAt c x = b := by
  simp [Records.lostAt, Records.ticketLost, Records.raiseSilent, Records.lossOf, Node.onlineTerminal, h]

theorem Records.lostAt_panel {r : RoomNo} (h : x.kind = .panel r) :
    b.lostAt c x = if x.misses = 2 then b.raise (.room r .panelSilent) else b := by
  simp [Records.lostAt, Records.ticketLost, Records.raiseSilent, Records.lossOf, Node.onlineTerminal, h]

/-- A terminal's ticket settled as lost, with the notice of a third miss. -/
def Records.ticketSilenced (b : Records) (k : KitchenNo) (x : Node) : Records :=
  if x.misses = 2 then (b.settleLoss k).raise (.kitchen k .terminalSilent) else b.settleLoss k

theorem Records.ticketSilenced_kitchen (b : Records) (k : KitchenNo) (x : Node) :
    (b.ticketSilenced k x).kitchen k = b.kitchen k := by
  unfold Records.ticketSilenced
  rw [b.settleLoss_eq]
  split <;> rfl

theorem Records.lostAt_terminal {k : KitchenNo} (h : x.kind = .terminal k) :
    b.lostAt c x = if x.misses = 2 ∧ x.state = .online then (b.ticketSilenced k x).terminalLost c k
      else b.ticketSilenced k x := by
  unfold Records.ticketSilenced
  by_cases hm : x.misses = 2
  · by_cases hs : x.state = .online <;>
      simp [Records.lostAt, Records.ticketLost, Records.raiseSilent, Records.lossOf, Node.onlineTerminal, h, hm, hs]
  · simp [Records.lostAt, Records.ticketLost, Records.raiseSilent, Records.lossOf, h, hm]

end Outcomes

/-- A terminal report replaces its kitchen with the level formed (R101, R102). -/
theorem Records.terminalReported_replaced (b : Records) (c : Clock) (k : KitchenNo) (level : Fin 8) :
    b.KitchenReplaced (b.terminalReported c k level) c k
      { b.kitchen k with
        online := true, reported := some level, active := (b.kitchen k).override.getD level } := by
  have hreplaced := b.reformLevel_replaced c k ((b.kitchen k).reportedAt level)
  rw [Kitchen.formLevel_eq] at hreplaced
  exact hreplaced

/-- A terminal loss replaces its kitchen with the level formed (R101, R102). -/
theorem Records.terminalLost_replaced (b : Records) (c : Clock) (k : KitchenNo) :
    b.KitchenReplaced (b.terminalLost c k) c k
      { b.kitchen k with online := false, active := (b.kitchen k).override.getD (b.kitchen k).fallback } := by
  have hreplaced := b.reformLevel_replaced c k (b.kitchen k).lost
  rw [Kitchen.formLevel_eq] at hreplaced
  exact hreplaced

/-! ## The frames that reach a line (R155) -/

section Frames

variable {s : State} {l : LineNo} {v : Visit} {frame : List Byte}

theorem State.lineFrame_idle (h : (s.recs.line l).visit = none) (frame : List Byte) : s.lineFrame l frame = s := by
  unfold State.lineFrame
  rw [h]

theorem State.lineFrame_answer (hv : (s.recs.line l).visit = some v) {payload : List Byte}
    (h : goodAnswer v.node ((s.recs.line l).node v.node).kind frame = some payload) :
    s.lineFrame l frame =
      { s with recs := s.recs.goodAnswer s.clk l v payload
               mail := s.mail.handOn s.clk.minute l v.node ((s.recs.line l).node v.node).kind payload } := by
  unfold State.lineFrame
  simp only [hv, h]

theorem State.lineFrame_loss (hv : (s.recs.line l).visit = some v)
    (h : goodAnswer v.node ((s.recs.line l).node v.node).kind frame = none) : s.lineFrame l frame = s.lose l v := by
  unfold State.lineFrame
  simp only [hv, h]

theorem execVisitTimeout_idle (h : (s.recs.line l).visit = none) : execVisitTimeout l s = .next s := by
  unfold execVisitTimeout
  rw [h]

theorem execVisitTimeout_loss (h : (s.recs.line l).visit = some v) : execVisitTimeout l s = .next (s.lose l v) := by
  unfold execVisitTimeout
  rw [h]

/-- The timeout of a visit and every frame that is no good answer are its loss. -/
theorem exec_loss (hv : (s.recs.line l).visit = some v) {e : Instr}
    (he : e = .visitTimeout l ∨ ((e = .badAnswer l frame ∨ e = .frameDiscarded l frame) ∧
      goodAnswer v.node ((s.recs.line l).node v.node).kind frame = none)) : exec e s = .next (s.lose l v) := by
  rcases he with rfl | ⟨rfl | rfl, hbad⟩
  · exact execVisitTimeout_loss hv
  · exact congrArg Host.Outcome.next (State.lineFrame_loss hv hbad)
  · exact congrArg Host.Outcome.next (State.lineFrame_loss hv hbad)

end Frames

/-- Settles O58: frames by `goodAnswer_some` and `goodAnswer_none`, their effects by `goodAnswer_eq` and `loss_eq`, the
choice of the next node by `visitEnded_swept`. -/
theorem answersAndLossesEndVisits : Obligations.AnswersAndLossesEndVisits := by
  intro l frame s b ln
  refine ⟨fun hidle => ?_, ?_⟩
  · have hkept : (.next (s.lineFrame l frame) : Host.Outcome State Fault Refusal) = .next s :=
      congrArg Host.Outcome.next (State.lineFrame_idle hidle frame)
    exact ⟨hkept, hkept, hkept, hkept, execVisitTimeout_idle hidle⟩
  intro v hv x address page back ended formed answered missed
  have hended : ∀ (b₁ : Records) (y : Node), b₁.lines = b.lines →
      ended (b₁.setLine l (ln.setNode v.node y).visitEnded) y := fun b₁ y hlines => by
    obtain ⟨count, pos, hframe⟩ := (ln.setNode v.node y).visitEnded_eq
    have hat : ∀ m, (ln.setNode v.node y).node m = if m = v.node then y else ln.node m := fun m => by
      split
      · rename_i hm; rw [hm, Line.setNode_node_same]
      · rename_i hm; exact ln.setNode_node_other y hm
    refine ⟨?_, ?_, ?_, fun m hm => ?_, fun hunused => ?_, fun hconf h7 => ?_⟩
    · rw [Records.setLine_line_same, hframe]
    · rw [Records.setLine_line_same, hframe]; rfl
    · rw [Records.setLine_line_same, hframe]; rfl
    · rw [Records.setLine_line_other _ _ hm, Records.line, hlines]; rfl
    · rw [Records.setLine_line_same, Line.visitEnded_unused fun m => (hat m).symm ▸ hunused m]
      exact ⟨rfl, rfl⟩
    · obtain ⟨j, hj, hdue, hnone, hswept⟩ := Line.visitEnded_swept (l := ln.setNode v.node y)
        (hconf.imp fun m hm => (hat m).symm ▸ hm) h7
      simp only [Line.DueAt, hat] at hdue hnone
      refine ⟨j, hj, hdue, hnone, ?_, ?_⟩ <;> rw [Records.setLine_line_same, hswept] <;> rfl
  have hanswered : ∀ payload, ended (b.goodAnswer s.clk l v payload) answered := fun payload => by
    rw [b.goodAnswer_eq, Node.afterAnswer_eq]
    exact hended _ _ (b.heardFrom_lines s.clk x payload)
  have hmissed : ended (b.loss s.clk l v) missed := by
    rw [b.loss_eq, Node.afterLoss_eq]
    exact hended _ _ (b.lostAt_lines s.clk x)
  have hexec : ∀ payload, goodAnswer v.node x.kind frame = some payload →
      (.next (s.lineFrame l frame) : Host.Outcome State Fault Refusal) = .next { s with
        recs := b.goodAnswer s.clk l v payload, mail := s.mail.handOn s.clk.minute l v.node x.kind payload } :=
    fun payload hgood => congrArg Host.Outcome.next (State.lineFrame_answer hv hgood)
  refine ⟨fun r motion code hk hf => ?_, fun k level count rest hk hlen hshort hf => ?_, fun e he => ?_,
    fun a rest hf ha => ?_, fun hshort => ?_, fun a k high low rest hf => ?_⟩
  · have hgood : goodAnswer v.node x.kind frame = some [motion, code] := by
      rw [hf, hk]
      exact goodAnswer_panel v.node r motion code
    obtain ⟨h1, h2, h3, h4, h0⟩ := requestOf_cases code
    refine ⟨b.goodAnswer s.clk l v [motion, code], (requestOf code).toList, (hexec _ hgood).trans ?_, h1, h2, h3, h4,
      h0, hanswered _, ?_⟩
    · rw [hk]
      rfl
    · rw [b.goodAnswer_eq, Records.heardFrom_panel hk]
      rfl
  · have hgood : goodAnswer v.node x.kind frame = some (level :: count :: rest) := by
      rw [hf, hk]
      exact goodAnswer_terminal v.node k hlen hshort
    intro heard taken reports
    have htaken : taken = reports.foldl (fun y report => y.takeReport k report) (heard.settleAnswer k) := by
      simp only [taken, Records.terminalAnswered, reportsOf_eq hlen]
      rfl
    have hkitchen : taken.kitchen k = b.kitchen k := by
      have hheard : heard.kitchens = b.kitchens := by simp only [heard]; split <;> rfl
      rw [Records.kitchen, Records.terminalAnswered_kitchens, hheard]
      rfl
    have hreplaced := taken.terminalReported_replaced s.clk k (levelOf (level :: count :: rest))
    rw [hkitchen] at hreplaced
    refine ⟨fun hcount => ?_, htaken, b.goodAnswer s.clk l v (level :: count :: rest),
      taken.terminalReported s.clk k (levelOf (level :: count :: rest)), levelOf (level :: count :: rest),
      (hexec _ hgood).trans ?_, rfl, hanswered _, hreplaced, ?_⟩
    · simp [htaken, reports, hcount]
    · rw [hk]
      rfl
    · rw [b.goodAnswer_eq, Records.heardFrom_terminal hk]
      rfl
  · refine ⟨_, exec_loss hv he, hmissed, ?_⟩
    rw [b.loss_eq]
    cases hk : x.kind with
    | unused => rw [Records.lostAt_unused hk]; rfl
    | panel r => rw [Records.lostAt_panel hk]; rfl
    | terminal k =>
      have hreplaced := (b.ticketSilenced k x).terminalLost_replaced s.clk k
      rw [b.ticketSilenced_kitchen] at hreplaced
      rw [Records.lostAt_terminal hk]
      refine ⟨fun hkept => ?_, fun hm hs => ⟨_, hreplaced, ?_⟩⟩
      · rw [if_neg hkept]
        rfl
      · rw [if_pos ⟨hm, hs⟩]
        rfl
  · rw [hf]
    exact goodAnswer_address ha x.kind rest
  · exact goodAnswer_short _ _ hshort
  · intro len none' unfit
    have hunfit : x.kind.Unfit k len rest ↔ unfit := by
      simp only [unfit]
      cases x.kind <;> rfl
    have hnone : none' ↔ _ := hf ▸ goodAnswer_none v.node x.kind a k high low rest
    rw [hunfit] at hnone
    exact ⟨fun h => hnone.mpr (.inr (.inl h)), fun h => hnone.mpr (.inr (.inr (.inl h))),
      fun h => hnone.mpr (.inr (.inr (.inr h))), hnone.mp⟩

end Sys2Proof.Machine

/-! Second pulses and the results of requests at a line (R160, R161). -/

namespace Sys2Proof.Machine

open Sys2Proof

/-! ## Second pulses (R160) -/

/-- The time-change minute of a node has been reached. -/
def Node.Reached (x : Node) (now : Nat) : Prop := ∃ t, x.timeChange = some t ∧ t ≤ now

theorem Node.aged_eq_reached {x : Node} {now : Nat} (refresh : Nat) (h : x.Reached now) :
    x.aged refresh now = { x with age := min 255 (x.age + 1), stale := true, timeChange := none } := by
  obtain ⟨t, ht, hle⟩ := h
  simp [Node.aged, ht, hle]

theorem Node.aged_eq_waiting {x : Node} {now : Nat} (refresh : Nat) (h : ¬ x.Reached now) :
    x.aged refresh now =
      { x with age := min 255 (x.age + 1), stale := x.stale || decide (x.age + 1 = refresh) } := by
  cases ht : x.timeChange with
  | none => simp [Node.aged, ht]
  | some t =>
    have hlt : ¬ t ≤ now := fun hle => h ⟨t, ht, hle⟩
    simp [Node.aged, ht, hlt]

theorem Line.aged_node (l : Line) (now : Nat) (n : NodeNo) :
    (l.aged now).node n = if (l.node n).isPanel then (l.node n).aged l.refresh now else l.node n :=
  Vector.getElem_map ..

theorem execSecondPulse_none {l : LineNo} {s : State} (h : s.mail.pulses[l.val] = 0) :
    execSecondPulse l s = .next s := by
  unfold execSecondPulse
  split
  · rfl
  · rename_i hp; rw [h] at hp; cases hp

theorem execSecondPulse_some {l : LineNo} {s : State} {p : Nat} (h : s.mail.pulses[l.val] = p + 1) :
    execSecondPulse l s = .next { s.withRecs (s.recs.setLine l ((s.recs.line l).aged s.clk.minute)) with
      mail := { s.mail with pulses := s.mail.pulses.set l.val p } } := by
  unfold execSecondPulse
  split
  · rename_i h0; rw [h] at h0; cases h0
  · rename_i hp; rw [h] at hp; cases hp; rfl

/-! ## Results of requests (R161) -/

theorem takeResult_none {l : LineNo} {n : NodeNo} {xs : List ResultHandoff}
    (h : ∀ x ∈ xs, ¬ (x.line = l ∧ x.node = n)) : takeResult l n xs = none := by
  induction xs with
  | nil => rfl
  | cons x xs ih =>
    obtain ⟨hx, hxs⟩ := List.forall_mem_cons.mp h
    simp [takeResult, hx, ih hxs]

theorem takeResult_append {l : LineNo} {n : NodeNo} {front back : List ResultHandoff} {x : ResultHandoff}
    (hfront : ∀ y ∈ front, ¬ (y.line = l ∧ y.node = n)) (hx : x.line = l ∧ x.node = n) :
    takeResult l n (front ++ x :: back) = some (x, front ++ back) := by
  induction front with
  | nil => simp [takeResult, hx]
  | cons y front ih =>
    obtain ⟨hy, hrest⟩ := List.forall_mem_cons.mp hfront
    simp [takeResult, hy, ih hrest]

theorem execRequestResult_none {l : LineNo} {n : NodeNo} {s : State}
    (h : ∀ x ∈ s.mail.results, ¬ (x.line = l ∧ x.node = n)) : execRequestResult l n s = .next s := by
  rw [execRequestResult, takeResult_none h]

theorem execRequestResult_some {l : LineNo} {n : NodeNo} {s : State} {front back : List ResultHandoff}
    {x : ResultHandoff} (h : s.mail.results = front ++ x :: back)
    (hfront : ∀ y ∈ front, ¬ (y.line = l ∧ y.node = n)) (hx : x.line = l ∧ x.node = n) :
    execRequestResult l n s = .next { s.withRecs (s.recs.setLine l
      ((s.recs.line l).setNode n (((s.recs.line l).node n).takes x))) with
        mail := { s.mail with results := front ++ back } } := by
  rw [execRequestResult, h, takeResult_append hfront hx]

theorem Line.setNode_self (l : Line) (n : NodeNo) : l.setNode n (l.node n) = l := by
  simp [Line.setNode, Line.node]

theorem Records.setLine_self (b : Records) (l : LineNo) : b.setLine l (b.line l) = b := by
  simp [Records.setLine, Records.line]

/-- Settles O59: the pulse by whether each node's time-change minute is reached, the result by whether the node still
names the room. -/
theorem pulsesAndResultsTaken : Obligations.PulsesAndResultsTaken := by
  intro l s ln frame
  have hframe : ∀ x : Line, frame (s.recs.setLine l x) := fun x =>
    ⟨rfl, fun m hm => Records.setLine_line_other _ x hm⟩
  refine ⟨execSecondPulse_none, fun p hp =>
    ⟨s.recs.setLine l (ln.aged s.clk.minute), execSecondPulse_some hp, hframe _, ?_, fun n => ?_⟩,
    fun n => ⟨execRequestResult_none, fun front back r res hresults hfront => ?_⟩⟩
  · rw [Records.setLine_line_same]; rfl
  · rw [Records.setLine_line_same, Line.aged_node]
    intro x y
    refine ⟨fun hno => if_neg (by simpa using hno), fun hpanel => ?_⟩
    intro reached
    have hy : y = x.aged ln.refresh s.clk.minute := if_pos hpanel
    by_cases h : reached
    · rw [hy, Node.aged_eq_reached _ h]
      exact ⟨rfl, by simp [h], fun _ => rfl, fun hnot => absurd h hnot, rfl⟩
    · rw [hy, Node.aged_eq_waiting _ h]
      exact ⟨rfl, by simp [h], fun hr => absurd hr h, fun _ => rfl, rfl⟩
  · intro x y
    refine ⟨s.recs.setLine l (ln.setNode n (x.takes ⟨l, n, r, res⟩)),
      execRequestResult_some hresults hfront ⟨rfl, rfl⟩, fun hother => ?_, fun hnamed => ?_⟩
    · have hkeeps : x.takes ⟨l, n, r, res⟩ = x := if_neg hother
      exact (congrArg (fun z => s.recs.setLine l (ln.setNode n z)) hkeeps).trans
        ((congrArg (s.recs.setLine l) (ln.setNode_self n)).trans (s.recs.setLine_self l))
    · have htakes : x.takes ⟨l, n, r, res⟩ = y := if_pos hnamed
      refine ⟨hframe _, (Records.setLine_line_same ..).trans ?_⟩
      exact congrArg (ln.setNode n) htakes

end Sys2Proof.Machine

/-! The lines beside their stale flags: what marks panels stale, and every event of rooms, bookings, orders and
kitchens, leaves them as they were (R39, R146, R147, R159). -/

namespace Sys2Proof.Machine

open Sys2Proof

/-! ## The lines without their stale flags -/

/-- A line, every stale flag cleared. -/
def Line.unmarked (l : Line) : Line := { l with nodes := l.nodes.map fun x => { x with stale := false } }

/-- The lines with every stale flag cleared: what marking a panel stale does not touch. -/
def Records.unmarked (b : Records) : Vector Line 4 := b.lines.map Line.unmarked

theorem Line.unmarked_node (l : Line) (n : NodeNo) : l.unmarked.node n = { l.node n with stale := false } :=
  Vector.getElem_map ..

theorem Records.unmarked_line (b : Records) (l : LineNo) : b.unmarked[l.val] = (b.line l).unmarked :=
  Vector.getElem_map ..

/-- Nodes changed one by one in nothing but the stale flag. -/
theorem Line.mapStale_unmarked (l : Line) {f : Node → Node}
    (hf : ∀ x, ({ f x with stale := false } : Node) = { x with stale := false }) :
    ({ l with nodes := l.nodes.map f } : Line).unmarked = l.unmarked := by
  simp only [Line.unmarked, Vector.map_map, Function.comp_def, hf]

theorem Line.markPanels_unmarked (l : Line) : l.markPanels.unmarked = l.unmarked :=
  l.mapStale_unmarked fun x => by split <;> rfl

/-- Every line changed in the same way, in nothing but its stale flags. -/
theorem Records.mapLines_unmarked (b : Records) {f : Line → Line} (hf : ∀ l, (f l).unmarked = l.unmarked) :
    ({ b with lines := b.lines.map f } : Records).unmarked = b.unmarked := by
  simp only [Records.unmarked, Vector.map_map, Function.comp_def, hf]

theorem Records.unmarked_of_lines {b b' : Records} (h : b'.lines = b.lines) : b'.unmarked = b.unmarked :=
  congrArg (Vector.map Line.unmarked) h

/-- A fold of operations that each leave the unmarked lines leaves them. -/
theorem Records.foldl_unmarked {α : Type} {f : Records → α → Records} (hf : ∀ (b : Records) (x : α),
    (f b x).unmarked = b.unmarked) (l : List α) (b : Records) : (l.foldl f b).unmarked = b.unmarked := by
  induction l generalizing b with
  | nil => rfl
  | cons x xs ih => exact (ih _).trans (hf b x)

section Tables

variable (b : Records)

@[simp] theorem Records.setRoom_unmarked (r : RoomNo) (x : Room) : (b.setRoom r x).unmarked = b.unmarked := rfl

@[simp] theorem Records.setKitchen_unmarked (k : KitchenNo) (x : Kitchen) :
    (b.setKitchen k x).unmarked = b.unmarked := rfl

@[simp] theorem Records.setQueue_unmarked (k : KitchenNo) (x : TicketQueue) :
    (b.setQueue k x).unmarked = b.unmarked := rfl

@[simp] theorem Records.setBody_unmarked (sl : SlotNo) (x : SlotBody) : (b.setBody sl x).unmarked = b.unmarked := rfl

@[simp] theorem Records.returnSlot_unmarked (sl : SlotNo) : (b.returnSlot sl).unmarked = b.unmarked := rfl

@[simp] theorem Records.raise_unmarked (x : RaisedNotice) : (b.raise x).unmarked = b.unmarked := rfl

@[simp] theorem Records.raiseRoom?_unmarked (r : RoomNo) (n : Option RoomNotice) :
    (b.raiseRoom? r n).unmarked = b.unmarked := by
  cases n <;> rfl

@[simp] theorem Records.markRooms_unmarked (rs : List RoomNo) : (b.markRooms rs).unmarked = b.unmarked :=
  b.mapLines_unmarked fun l => l.mapStale_unmarked fun x => by split <;> rfl

@[simp] theorem Records.markShowing_unmarked (r : RoomNo) : (b.markShowing r).unmarked = b.unmarked :=
  b.markRooms_unmarked _

@[simp] theorem Records.markAllPanels_unmarked : b.markAllPanels.unmarked = b.unmarked :=
  b.mapLines_unmarked Line.markPanels_unmarked

/-! ## Rooms and bookings -/

@[simp] theorem Records.clearTurnarounds_unmarked (now : Nat) (rs : List RoomNo) :
    (b.clearTurnarounds now rs).unmarked = b.unmarked := by rw [b.clearTurnarounds_eq]; rfl

@[simp] theorem Records.clearTurnaround_unmarked (now : Nat) (r : RoomNo) :
    (b.clearTurnaround now r).unmarked = b.unmarked := b.clearTurnarounds_unmarked now [r]

@[simp] theorem Records.readTurnarounds_unmarked (now : Nat) (r : RoomNo) :
    (b.readTurnarounds now r).unmarked = b.unmarked := b.clearTurnarounds_unmarked now _

@[simp] theorem Records.link_unmarked (r : RoomNo) (sl : SlotNo) (start : Nat) :
    (b.link r sl start).unmarked = b.unmarked := by simp [Records.link]

@[simp] theorem Records.unlink_unmarked (r : RoomNo) (sl : SlotNo) : (b.unlink r sl).unmarked = b.unmarked := by
  simp [Records.unlink]

@[simp] theorem Records.settleOrder_unmarked (c : Clock) (sl : SlotNo) :
    (b.settleOrder c sl).1.unmarked = b.unmarked :=
  Records.unmarked_of_lines (b.settleOrder_settlesOnly c sl).orders.lines

@[simp] theorem Records.settleAll_unmarked (c : Clock) (l : List SlotNo) :
    (b.settleAll c l).1.unmarked = b.unmarked :=
  Records.unmarked_of_lines (b.settleAll_settlesOnly c l).orders.lines

@[simp] theorem Records.retire_unmarked (c : Clock) (sl : SlotNo) (k : Booking) (why : Reason) :
    (b.retire c sl k why).1.unmarked = b.unmarked := by simp [Records.retire]

@[simp] theorem Records.updateBooking_unmarked (c : Clock) (sl : SlotNo) :
    (b.updateBooking c sl).unmarked = b.unmarked := by
  unfold Records.updateBooking
  split
  · rfl
  · split
    · simp
    · split <;> simp

@[simp] theorem Records.bringUp_unmarked (c : Clock) (r : RoomNo) : (b.bringUp c r).unmarked = b.unmarked :=
  (Records.foldl_unmarked (fun b sl => b.updateBooking_unmarked c sl) _ _).trans (b.clearTurnaround_unmarked _ r)

@[simp] theorem Records.bringUpAll_unmarked (c : Clock) (rs : List RoomNo) :
    (b.bringUpAll c rs).unmarked = b.unmarked :=
  Records.foldl_unmarked (fun b r => b.bringUp_unmarked c r) rs b

@[simp] theorem Records.bringUpSet_unmarked (c : Clock) (r : RoomNo) : (b.bringUpSet c r).unmarked = b.unmarked :=
  b.bringUpAll_unmarked c _

theorem Records.nameBooking_unmarked {b b' : Records} {c : Clock} {h : Handle} {x : Except Status (SlotNo × Booking)}
    (hn : b.nameBooking c h = (b', x)) : b'.unmarked = b.unmarked := by
  unfold Records.nameBooking at hn
  split at hn
  · cases hn; rfl
  · split at hn
    · cases hn; rfl
    · split at hn
      · cases hn; rfl
      · dsimp only at hn
        split at hn
        · split at hn <;> cases hn <;> exact b.bringUpSet_unmarked c _
        · cases hn; exact b.bringUpSet_unmarked c _

theorem Records.nameOrder_unmarked {b b' : Records} {c : Clock} {h : Handle} {closes : Bool}
    {x : Except Status (SlotNo × Order)} (hn : b.nameOrder c h closes = (b', x)) : b'.unmarked = b.unmarked := by
  unfold Records.nameOrder at hn
  split at hn
  · cases hn; rfl
  · split at hn
    · cases hn; rfl
    · split at hn
      · cases hn; rfl
      · dsimp only at hn
        split at hn <;> cases hn <;> exact b.bringUp_unmarked c _

theorem Records.allocate_unmarked {b b' : Records} {privileged : Bool} {body : SlotBody} {sl : SlotNo}
    (h : b.allocate privileged body = .ok (sl, b')) : b'.unmarked = b.unmarked := by
  obtain ⟨-, -, rest, -, hclaimed, -⟩ := Records.allocate_inv h
  exact Records.unmarked_of_lines hclaimed.lines

theorem Records.addBooking_unmarked {b b' : Records} {privileged : Bool} {k : Booking} {sl : SlotNo}
    (h : b.addBooking privileged k = .ok (sl, b')) : b'.unmarked = b.unmarked := by
  unfold Records.addBooking at h
  split at h
  · cases h
  · rename_i hall
    cases h
    exact (Records.link_unmarked _ _ _ _).trans (Records.allocate_unmarked hall)

@[simp] theorem Records.confirm_unmarked (c : Clock) (sl : SlotNo) (k : Booking) :
    (b.confirm c sl k).unmarked = b.unmarked := by
  simp [Records.confirm]

@[simp] theorem Records.applyAmend_unmarked (c : Clock) (sl : SlotNo) (k k' : Booking) :
    (b.applyAmend c sl k k').unmarked = b.unmarked := by
  simp only [Records.applyAmend, apply_ite Records.unmarked, Records.updateBooking_unmarked,
    Records.markShowing_unmarked, Records.link_unmarked, Records.setBody_unmarked, Records.unlink_unmarked, ite_self]

@[simp] theorem Records.checkInAt_unmarked (now : Nat) (x : Seen) : (b.checkInAt now x).unmarked = b.unmarked := by
  simp [Records.checkInAt]

@[simp] theorem Records.motionCheckIn_unmarked (now : Nat) (r : RoomNo) :
    (b.motionCheckIn now r).unmarked = b.unmarked := by
  unfold Records.motionCheckIn
  split
  · split <;> simp
  · rfl

@[simp] theorem Records.panelCheckIn_unmarked (c : Clock) (r : RoomNo) :
    (b.panelCheckIn c r).1.unmarked = b.unmarked := by
  unfold Records.panelCheckIn
  split <;> split <;> simp

@[simp] theorem Records.extendBooking_unmarked (c : Clock) (q : RoomNo) (sl : SlotNo) (k : Booking) :
    (b.extendBooking c q sl k).1.unmarked = b.unmarked := by
  unfold Records.extendBooking
  split
  · split
    · rfl
    · split <;> simp
  · rfl

@[simp] theorem Records.panelExtend_unmarked (c : Clock) (r : RoomNo) :
    (b.panelExtend c r).1.unmarked = b.unmarked := by
  unfold Records.panelExtend
  split
  · rfl
  · split
    · rfl
    · dsimp only
      split
      · split <;> simp
      · simp

@[simp] theorem Records.panelRelease_unmarked (c : Clock) (r : RoomNo) :
    (b.panelRelease c r).1.unmarked = b.unmarked := by
  unfold Records.panelRelease
  split
  · rfl
  · split <;> simp

@[simp] theorem Records.panelWalkUp_unmarked (c : Clock) (r : RoomNo) :
    (b.panelWalkUp c r).1.unmarked = b.unmarked := by
  unfold Records.panelWalkUp
  split
  · rfl
  · dsimp only
    split
    · rfl
    · split
      · simp
      · split
        · simp
        · rename_i hadd
          simp [Records.addBooking_unmarked hadd]

theorem Records.panelRequest_unmarked {act : Records → Records × PanelResult}
    (hact : ∀ b : Records, (act b).1.unmarked = b.unmarked) (c : Clock) (r : RoomNo) :
    (b.panelRequest c r act).1.unmarked = b.unmarked := by
  unfold Records.panelRequest
  split
  · split
    · rfl
    · split <;> simp [hact]
  · rfl

@[simp] theorem Records.closeStep_unmarked (c : Clock) (r : RoomNo) : (b.closeStep c r).unmarked = b.unmarked := by
  unfold Records.closeStep Records.closeDone
  dsimp only
  split
  · simp
  · split <;> simp

@[simp] theorem Records.setService_unmarked (r : RoomNo) (st : Service) :
    (b.setService r st).unmarked = b.unmarked := by
  unfold Records.setService
  split <;> simp

@[simp] theorem Records.judgeRoom_unmarked (now : Nat) (x : Scan) (r : RoomNo) :
    (b.judgeRoom now x r).1.unmarked = b.unmarked := by
  unfold Records.judgeRoom
  split <;> simp

@[simp] theorem Records.withAttrs_unmarked (r : RoomNo) (x : RoomAttrs) :
    (b.withAttrs r x).unmarked = b.unmarked := by rw [b.withAttrs_eq]; rfl

@[simp] theorem Records.writeRoom_unmarked (r : RoomNo) (x : RoomAttrs) :
    (b.writeRoom r x).unmarked = b.unmarked := by simp [Records.writeRoom]

@[simp] theorem Records.removeRoom_unmarked (r : RoomNo) : (b.removeRoom r).unmarked = b.unmarked := by
  simp [Records.removeRoom]

/-! ## Kitchens and orders -/

theorem Records.changeKitchen_lines (c : Clock) (k : KitchenNo) (x : Kitchen) :
    (b.changeKitchen c k x).lines = b.lines := by
  unfold Records.changeKitchen
  split <;> rfl

theorem Records.reformLevel_lines (c : Clock) (k : KitchenNo) (x : Kitchen) :
    (b.reformLevel c k x).lines = b.lines := by
  obtain ⟨-, -, -, -, heq⟩ := b.reformLevel_replaced c k x
  exact (congrArg Records.lines heq :)

@[simp] theorem Records.promotionTrigger_unmarked (c : Clock) (k : KitchenNo) :
    (b.promotionTrigger c k).unmarked = b.unmarked := by
  unfold Records.promotionTrigger
  split <;> rfl

@[simp] theorem Records.dispatchAll_unmarked (c : Clock) (l : List (SlotNo × Order)) :
    (b.dispatchAll c l).1.unmarked = b.unmarked := by
  induction l generalizing b with
  | nil => rfl
  | cons x rest ih => exact ih (b.dispatchOne c x)

@[simp] theorem Records.dispatch_unmarked (c : Clock) (k : KitchenNo) : (b.dispatch c k).unmarked = b.unmarked := by
  have h := b.dispatchAll_unmarked c (b.dispatchable k c.w0)
  unfold Records.dispatch
  split <;> rename_i e <;> rw [e] at h
  · simpa using h
  · exact h

@[simp] theorem Records.lapseAll_unmarked (w0 : Nat) (l : List SlotNo) :
    (b.lapseAll w0 l).unmarked = b.unmarked := by
  refine Records.foldl_unmarked (fun b sl => ?_) l b
  split
  · split <;> rfl
  · rfl

@[simp] theorem Records.roll_unmarked (c : Clock) (k : KitchenNo) (o n : Nat) :
    (b.roll c k o n).unmarked = b.unmarked := by
  unfold Records.roll
  split
  · rfl
  · dsimp only
    split <;> simp

@[simp] theorem Records.shedWindow_unmarked (c : Clock) (k : KitchenNo) (w : Nat) :
    (b.shedWindow c k w).unmarked = b.unmarked := by
  unfold Records.shedWindow
  dsimp only
  split
  · rfl
  · split <;> rfl

@[simp] theorem Records.sheddingStep_unmarked (c : Clock) (k : KitchenNo) (cursor : Nat) :
    (b.sheddingStep c k cursor).unmarked = b.unmarked := by
  simp only [Records.sheddingStep, apply_ite Records.unmarked, Records.setKitchen_unmarked,
    Records.shedWindow_unmarked, ite_self]

@[simp] theorem Records.examine_unmarked (c : Clock) (menu : Vector MenuClass 16) (sl : SlotNo) (o : Order) :
    (b.examine c menu sl o).unmarked = b.unmarked := by
  unfold Records.examine
  split
  · rfl
  · dsimp only
    split <;> rfl

@[simp] theorem Records.promotingStep_unmarked (c : Clock) (menu : Vector MenuClass 16) (k : KitchenNo)
    (cursor : Option WaitPlace) : (b.promotingStep c menu k cursor).unmarked = b.unmarked := by
  unfold Records.promotingStep
  dsimp only
  split
  · rfl
  · split
    · rfl
    · exact Records.examine_unmarked ..

@[simp] theorem Records.admitOrWait_unmarked (sl : SlotNo) (o : Order) (x : Load) :
    (b.admitOrWait sl o x).unmarked = b.unmarked := by
  unfold Records.admitOrWait
  dsimp only
  split
  · split <;> rfl
  · rfl

theorem Records.createOrder_unmarked {b b' : Records} {owner sl : SlotNo} {k : Booking} {o : Order} {x : Load}
    (h : b.createOrder owner k o x = .ok (sl, b')) : b'.unmarked = b.unmarked := by
  unfold Records.createOrder at h
  split at h
  · cases h
  · rename_i hall
    cases h
    simp [Records.allocate_unmarked hall]

theorem Records.amendOrderTo_unmarked {b b' : Records} {c : Clock} {sl : SlotNo} {o o' : Order} {x : Load}
    (h : b.amendOrderTo c sl o o' x = some b') : b'.unmarked = b.unmarked := by
  unfold Records.amendOrderTo Records.replaceLoad at h
  dsimp only at h
  split at h
  · cases h; simp
  · split at h <;> cases h
    split <;> simp

@[simp] theorem Records.leaveAnnex_unmarked (sl : SlotNo) (o : Order) :
    (b.leaveAnnex sl o).unmarked = b.unmarked := by
  unfold Records.leaveAnnex
  split <;> rfl

/-! ## The pool and the clock -/

@[simp] theorem Records.clearSlot_unmarked (c : Clock) (sl : SlotNo) :
    (b.clearSlot c sl).1.unmarked = b.unmarked := by
  unfold Records.clearSlot Records.clearBooking
  split
  · rfl
  · rename_i k _
    have horders : (b.clearOrders c k.annex).unmarked = b.unmarked :=
      Records.unmarked_of_lines (b.clearOrders_ordersOnly c k.annex).lines
    exact (Records.unlink_unmarked _ _ _).trans horders
  · split <;> rfl

@[simp] theorem Records.clockEnd_unmarked (v : Nat) : (b.clockEnd v).unmarked = b.unmarked := by
  unfold Records.clockEnd
  split <;> rfl

@[simp] theorem Records.beginClear_unmarked : b.beginClear.unmarked = b.unmarked :=
  Records.markAllPanels_unmarked _

@[simp] theorem Records.completeClear_unmarked : b.completeClear.unmarked = b.unmarked :=
  Records.markAllPanels_unmarked _

end Tables

end Sys2Proof.Machine

/-! The acts of the server commands and of the panel hand-offs that leave the lines but their stale flags. -/

namespace Sys2Proof.Machine

open Sys2Proof

theorem State.gated_unmarked {s : State} {k : State × Answer} (h : k.1.recs.unmarked = s.recs.unmarked) :
    (s.gated k).1.recs.unmarked = s.recs.unmarked := by
  unfold State.gated
  split
  · split
    · rfl
    · exact h
  · rfl

section Acts

variable (s : State)

/-! ## The clock, the pool, the rooms and the notices -/

theorem State.setClock_unmarked (v : Nat) : (s.setClock v).1.recs.unmarked = s.recs.unmarked := by
  unfold State.setClock
  dsimp only
  split
  · rfl
  · split
    · simp [State.startClock]
    · split
      · rfl
      · split
        · rfl
        · simp [State.jumpTo, State.advanceTo]
    · split <;> rfl

theorem State.setReserve_unmarked (floor : Nat) : (s.setReserve floor).1.recs.unmarked = s.recs.unmarked := by
  unfold State.setReserve
  split
  · rfl
  · exact Records.unmarked_of_lines (Records.judgeFloor_lines _)

theorem State.setHorizon_unmarked (days : Nat) : (s.setHorizon days).1.recs.unmarked = s.recs.unmarked := by
  unfold State.setHorizon
  split <;> rfl

theorem State.clearAll_unmarked : s.clearAll.1.recs.unmarked = s.recs.unmarked := by
  unfold State.clearAll
  split
  · exact s.recs.beginClear_unmarked
  · rfl

theorem State.writeRoom_unmarked (a : WriteRoomArgs) : (s.writeRoom a).1.recs.unmarked = s.recs.unmarked := by
  rcases s.writeRoom_recs a with e | ⟨r, x, -, e⟩ <;> rw [e]
  exact s.recs.writeRoom_unmarked r x

theorem State.writeRoomRemove_unmarked (n : Nat) : (s.writeRoomRemove n).1.recs.unmarked = s.recs.unmarked := by
  rcases s.writeRoomRemove_recs n with e | ⟨r, e⟩ <;> rw [e]
  exact s.recs.removeRoom_unmarked r

theorem State.readRoom_unmarked (room : Nat) : (s.readRoom room).1.recs.unmarked = s.recs.unmarked := by
  unfold State.readRoom
  split
  · rfl
  · exact s.recs.clearTurnaround_unmarked _ _

theorem State.setRoomService_unmarked (inService : Bool) (room : Nat) :
    (s.setRoomService inService room).1.recs.unmarked = s.recs.unmarked := by
  unfold State.setRoomService
  split
  · rfl
  · exact s.recs.setService_unmarked _ _

theorem State.closeAndCancel_unmarked (room : Nat) : (s.closeAndCancel room).1.recs.unmarked = s.recs.unmarked := by
  unfold State.closeAndCancel
  split
  · rfl
  · split
    · rfl
    · exact s.recs.setService_unmarked _ _

theorem State.readNotices_unmarked (indicator number : Nat) :
    (s.readNotices indicator number).1.recs.unmarked = s.recs.unmarked := by
  unfold State.readNotices
  split <;> rfl

theorem State.setNoticeMask_unmarked (masks : Vector Byte 18) :
    (s.setNoticeMask masks).1.recs.unmarked = s.recs.unmarked := by
  unfold State.setNoticeMask
  split <;> rfl

/-! ## Bookings -/

theorem State.makeBooking_unmarked (k : Booking) : (s.makeBooking k).1.recs.unmarked = s.recs.unmarked := by
  unfold State.makeBooking
  dsimp only
  split
  · simp
  · split
    · simp [refuse]
    · rename_i hadd
      simp [Records.addBooking_unmarked hadd]

theorem State.bookOrHold_unmarked (a : BookArgs) (holdTime : Option Nat) :
    (s.bookOrHold a holdTime).1.recs.unmarked = s.recs.unmarked := by
  refine State.gated_unmarked ?_
  split
  · rfl
  · exact s.makeBooking_unmarked _

theorem State.confirm_unmarked (h : Handle) (cls : Option Nat) :
    (s.confirm h cls).1.recs.unmarked = s.recs.unmarked := by
  refine State.gated_unmarked ?_
  split <;> rename_i hn <;> have hname := Records.nameBooking_unmarked hn
  · exact hname
  · split
    · exact hname
    · simpa using hname

theorem State.amendTo_unmarked (b : Records) (sl : SlotNo) (k k' : Booking) :
    (s.amendTo b sl k k').1.recs.unmarked = b.unmarked := by
  unfold State.amendTo
  dsimp only
  split
  · split <;> simp
  · split <;> simp

theorem State.amend_unmarked (a : AmendArgs) : (s.amend a).1.recs.unmarked = s.recs.unmarked := by
  refine State.gated_unmarked ?_
  split <;> rename_i hn <;> have hname := Records.nameBooking_unmarked hn
  · exact hname
  · split
    · exact hname
    · exact (s.amendTo_unmarked ..).trans hname

theorem State.cancel_unmarked (h : Handle) : (s.cancel h).1.recs.unmarked = s.recs.unmarked := by
  refine State.gated_unmarked ?_
  split <;> rename_i hn <;> have hname := Records.nameBooking_unmarked hn
  · exact hname
  · simpa using hname

/-! ## Kitchens and orders -/

theorem State.writeBanks_unmarked (kitchen : Nat) (banks : Vector Nat 8) :
    (s.writeBanks kitchen banks).1.recs.unmarked = s.recs.unmarked := by
  unfold State.writeBanks
  split
  · rfl
  · split
    · exact Records.unmarked_of_lines (Records.changeKitchen_lines ..)
    · rfl

theorem State.writeKitchen_unmarked (kitchen opens closes fallback : Nat) :
    (s.writeKitchen kitchen opens closes fallback).1.recs.unmarked = s.recs.unmarked := by
  unfold State.writeKitchen
  split
  · rfl
  · split
    · rfl
    · split
      · exact Records.unmarked_of_lines (Records.reformLevel_lines ..)
      · rfl

theorem State.setStaffing_unmarked (kitchen : Nat) (level : Option Nat) :
    (s.setStaffing kitchen level).1.recs.unmarked = s.recs.unmarked := by
  unfold State.setStaffing
  split
  · rfl
  · split
    · rfl
    · exact Records.unmarked_of_lines (Records.reformLevel_lines ..)

theorem State.readWindow_unmarked (kitchen window : Nat) :
    (s.readWindow kitchen window).1.recs.unmarked = s.recs.unmarked := by
  unfold State.readWindow
  split
  · rfl
  · split <;> rfl

theorem State.order_unmarked (h : Handle) (menuClass heads delivery : Nat) :
    (s.order h menuClass heads delivery).1.recs.unmarked = s.recs.unmarked := by
  refine State.gated_unmarked ?_
  split <;> rename_i hn <;> have hname := Records.nameBooking_unmarked hn
  · exact hname
  · split
    · exact hname
    · split
      · exact hname
      · rename_i hcreate
        exact (Records.createOrder_unmarked hcreate).trans hname

theorem State.amendOrder_unmarked (a : AmendOrderArgs) : (s.amendOrder a).1.recs.unmarked = s.recs.unmarked := by
  refine State.gated_unmarked ?_
  split <;> rename_i hn <;> have hname := Records.nameOrder_unmarked hn
  · exact hname
  · split
    · exact hname
    · split
      · exact hname
      · split
        · exact hname
        · rename_i hto
          exact (Records.amendOrderTo_unmarked hto).trans hname

theorem State.cancelOrder_unmarked (h : Handle) : (s.cancelOrder h).1.recs.unmarked = s.recs.unmarked := by
  refine State.gated_unmarked ?_
  split <;> rename_i hn <;> have hname := Records.nameOrder_unmarked hn
  · exact hname
  · simpa using hname

/-! ## Panel hand-offs -/

theorem State.takeMotion_unmarked (x : PanelHandoff) : (s.takeMotion x).recs.unmarked = s.recs.unmarked := by
  unfold State.takeMotion
  split
  · split <;> rfl
  · rfl
  · rfl

theorem State.takeMotionCheckIn_unmarked (x : PanelHandoff) :
    (s.takeMotionCheckIn x).recs.unmarked = s.recs.unmarked := by
  unfold State.takeMotionCheckIn
  split <;> simp

theorem State.takeRequest_unmarked {act : Records → Clock → RoomNo → Records × PanelResult}
    (hact : ∀ (b : Records) c r, (act b c r).1.unmarked = b.unmarked) (x : PanelHandoff) :
    (State.takeRequest act s x).recs.unmarked = s.recs.unmarked :=
  s.recs.panelRequest_unmarked (fun b => hact b _ _) _ _

end Acts

theorem State.takePanel_unmarked {s t : State} {l : LineNo} {n : NodeNo} {want : PanelItem → Bool}
    {act : State → PanelHandoff → State} (hact : ∀ s x, (act s x).recs.unmarked = s.recs.unmarked)
    (h : s.takePanel l n want act = .next t) : t.recs.unmarked = s.recs.unmarked := by
  unfold State.takePanel at h
  split at h
  · cases h; rfl
  · split at h <;> cases h
    · exact hact _ _
    · rfl

end Sys2Proof.Machine

/-! Lines and nodes keep their ranges and the law of SILENT through every step (R146, R147, R149, R157). -/

namespace Sys2Proof.Machine

open Sys2Proof

/-! ## One node (R147, R157) -/

/-- The laws of a node speak of its misses, its page age and its state alone. -/
theorem Node.Lawful.of_same {x y : Node} (h : x.Lawful) (hm : y.misses = x.misses) (ha : y.age = x.age)
    (hs : y.state = x.state) : y.Lawful := by
  unfold Node.Lawful
  rw [hm, ha, hs]
  exact h

theorem Node.restarted_lawful {x : Node} (h : x.Lawful) : x.restarted.Lawful := by
  obtain ⟨-, hage, -⟩ := h
  exact ⟨Nat.zero_le _, hage, by simp [Node.restarted]⟩

theorem Node.written_lawful (kind : NodeKind) : (Node.written kind).Lawful :=
  Node.reset_lawful.of_same rfl rfl rfl

theorem Node.paged_lawful {x : Node} (h : x.Lawful) (compact : Bool) (change : Option Nat) :
    (x.paged compact change).Lawful :=
  h.of_same rfl rfl rfl

theorem Node.aged_lawful {x : Node} (h : x.Lawful) (refresh now : Nat) : (x.aged refresh now).Lawful := by
  obtain ⟨hmisses, -, hsilent⟩ := h
  exact ⟨hmisses, Nat.min_le_left .., hsilent⟩

theorem Node.takes_lawful {x : Node} (h : x.Lawful) (r : ResultHandoff) : (x.takes r).Lawful := by
  unfold Node.takes
  split
  · exact h.of_same rfl rfl rfl
  · exact h

/-- An answer brings the node to ONLINE without a miss (R156). -/
theorem Node.afterAnswer_lawful {x : Node} (h : x.Lawful) (frame : FrameKind) : (x.afterAnswer frame).Lawful := by
  obtain ⟨-, hage, -⟩ := h
  rw [Node.afterAnswer_eq]
  refine ⟨Nat.zero_le _, ?_, by simp⟩
  dsimp only
  split
  · exact Nat.zero_le _
  · exact hage

/-- A loss counts a miss, and the third makes the node SILENT (R157). -/
theorem Node.afterLoss_lawful {x : Node} (h : x.Lawful) (frame : FrameKind) : (x.afterLoss frame).Lawful := by
  obtain ⟨hmisses, hage, hsilent⟩ := h
  rw [Node.afterLoss_eq]
  refine ⟨Nat.min_le_left .., hage, ?_⟩
  dsimp only
  by_cases hthird : x.misses = 2
  · simp [hthird]
  · rw [if_neg hthird, hsilent]
    omega

/-! ## One line (R146, R149) -/

namespace Line.Lawful

variable {l : Line} (h : l.Lawful)
include h

/-- A line within its ranges of which sweep, visit and nodes were changed. -/
theorem of_settings {l' : Line} (ht : l'.timeout = l.timeout) (hr : l'.refresh = l.refresh) (hc : l'.sweepCount ≤ 7)
    (hv : l'.running = false → l'.visit = none) (hn : ∀ n : NodeNo, (l'.node n).Lawful) : l'.Lawful := by
  obtain ⟨htlo, hthi, hrlo, hrhi, -, -, -⟩ := h
  refine ⟨?_, ?_, ?_, ?_, hc, hv, hn⟩ <;> omega

theorem sweepCount : l.sweepCount ≤ 7 := by
  obtain ⟨-, -, -, -, hc, -, -⟩ := h
  exact hc

theorem idle : l.running = false → l.visit = none := by
  obtain ⟨-, -, -, -, -, hv, -⟩ := h
  exact hv

theorem node (n : NodeNo) : (l.node n).Lawful := by
  obtain ⟨-, -, -, -, -, -, hn⟩ := h
  exact hn n

/-- The nodes of a line changed one by one. -/
theorem mapNodes {f : Node → Node} (hf : ∀ {x : Node}, x.Lawful → (f x).Lawful) :
    ({ l with nodes := l.nodes.map f } : Line).Lawful :=
  h.of_settings rfl rfl h.sweepCount h.idle fun n => by
    have hnode : ({ l with nodes := l.nodes.map f } : Line).node n = f (l.node n) := Vector.getElem_map ..
    rw [hnode]
    exact hf (h.node n)

theorem setNode (n : NodeNo) {x : Node} (hx : x.Lawful) : (l.setNode n x).Lawful :=
  h.of_settings rfl rfl h.sweepCount h.idle fun m => by
    by_cases hm : m = n
    · subst hm; rwa [Line.setNode_node_same]
    · rw [Line.setNode_node_other _ _ hm]; exact h.node m

theorem endSweep : l.endSweep.Lawful :=
  h.of_settings rfl rfl (Nat.le_of_lt_succ (Nat.mod_lt _ (by decide))) h.idle h.node

theorem chooseNext : l.chooseNext.1.Lawful := by
  unfold Line.chooseNext
  split
  · obtain ⟨j, -, hj, -⟩ := Line.choose_fst 8 l
    rw [hj]
    clear hj
    induction j with
    | zero => exact h
    | succ j ih => rw [Function.iterate_succ_apply']; exact ih.endSweep
  · exact h

theorem visitEnded : l.visitEnded.Lawful :=
  chooseNext (h.of_settings (l' := { l with visit := none }) rfl rfl h.sweepCount (fun _ => rfl) h.node)

/-- A visit begins on a RUNNING line alone (R154). -/
theorem beginVisit (hrun : l.running = true) (n : NodeNo) (kind : FrameKind) (payload : List Byte) :
    (l.beginVisit n kind payload).Lawful :=
  h.of_settings rfl rfl h.sweepCount (fun hoff => nomatch hrun.symm.trans hoff) h.node

theorem cleared : l.cleared.Lawful :=
  (h.mapNodes Node.restarted_lawful).of_settings (l' := l.cleared) rfl rfl h.sweepCount (fun _ => rfl)
    (h.mapNodes Node.restarted_lawful).node

theorem sweepAnew : l.sweepAnew.Lawful := by
  unfold Line.sweepAnew
  split
  · exact h.of_settings rfl rfl (Nat.zero_le _) h.idle h.node
  · exact h

theorem aged (now : Nat) : (l.aged now).Lawful :=
  h.mapNodes fun hx => by
    split
    · exact Node.aged_lawful hx _ _
    · exact hx

/-- New settings within the ranges that SET_LINE checks (R148). -/
theorem configuredWith {timeout refresh : Nat} (htlo : 1 ≤ timeout) (hthi : timeout ≤ 20) (hrlo : 10 ≤ refresh)
    (hrhi : refresh ≤ 110) : (l.configuredWith timeout refresh).Lawful := by
  have hmarked : ({ l with nodes := (l.configuredWith timeout refresh).nodes } : Line).Lawful := h.mapNodes fun hx => by
    split
    · exact hx.of_same rfl rfl rfl
    · exact hx
  exact ⟨htlo, hthi, hrlo, hrhi, h.sweepCount, h.idle, hmarked.node⟩

end Line.Lawful

/-- Stale flags have no part in the laws of a line. -/
theorem Line.unmarked_lawful (l : Line) : l.unmarked.Lawful ↔ l.Lawful := by
  simp only [Line.Lawful, Line.unmarked_node]
  rfl

/-! ## The line table -/

/-- Every line is lawful. -/
def Records.LinesLawful (b : Records) : Prop := ∀ l : LineNo, (b.line l).Lawful

namespace Records.LinesLawful

variable {b b' : Records} (h : b.LinesLawful)
include h

theorem of_unmarked (e : b'.unmarked = b.unmarked) : b'.LinesLawful := fun l => by
  rw [← Line.unmarked_lawful, ← Records.unmarked_line, e, Records.unmarked_line, Line.unmarked_lawful]
  exact h l

theorem of_lines (e : b'.lines = b.lines) : b'.LinesLawful := h.of_unmarked (Records.unmarked_of_lines e)

theorem setLine (l : LineNo) {x : Line} (hx : x.Lawful) : (b.setLine l x).LinesLawful := fun m => by
  by_cases hm : m = l
  · subst hm; rwa [Records.setLine_line_same]
  · rw [b.setLine_line_other _ hm]; exact h m

/-! ## The events of a line (chapter 9) -/

theorem goodAnswer (c : Clock) (l : LineNo) (v : Visit) (payload : List Byte) :
    (b.goodAnswer c l v payload).LinesLawful := by
  rw [b.goodAnswer_eq]
  have hnode := Node.afterAnswer_lawful ((h l).node v.node) v.frame
  exact (h.of_lines (b.heardFrom_lines c _ payload)).setLine l ((h l).setNode v.node hnode).visitEnded

theorem loss (c : Clock) (l : LineNo) (v : Visit) : (b.loss c l v).LinesLawful := by
  rw [b.loss_eq]
  have hnode := Node.afterLoss_lawful ((h l).node v.node) v.frame
  exact (h.of_lines (b.lostAt_lines c _)).setLine l ((h l).setNode v.node hnode).visitEnded

/-- A visit begun by a RUNNING line that has chosen its node, `ln` being the line after the choice (R153, R154). -/
theorem startVisit (c : Clock) (l : LineNo) {ln : Line} (hln : ln.Lawful) (hrun : ln.running = true) (n : NodeNo) :
    (b.startVisit c l ln n).LinesLawful := by
  have hvisit := hln.beginVisit hrun n
  unfold Records.startVisit
  split
  · exact h
  · split
    · exact (h.of_unmarked (b.clearTurnarounds_unmarked _ _)).setLine l
        ((hln.setNode n (Node.paged_lawful (hln.node n) _ _)).beginVisit hrun n .page _)
    · exact h.setLine l (hvisit .poll [])
  · exact (h.of_lines (b' := b.setInFlight _ _) rfl).setLine l (hvisit _ _)

theorem clearLine (c : Clock) (l : LineNo) : (b.clearLine c l).LinesLawful := fun m => by
  obtain ⟨hself, hother⟩ := b.clearLine_line c l
  by_cases hm : m = l
  · subst hm; rw [hself]; exact (h m).cleared
  · rw [hother m hm]; exact h m

theorem writeNode (c : Clock) (l : LineNo) (n : NodeNo) (kind : NodeKind) : (b.writeNode c l n kind).LinesLawful :=
  (h.setLine l ((h l).setNode n (Node.written_lawful kind))).of_lines
    (congrArg Records.lines (b.writeNode_eq c l n kind) :)

end Records.LinesLawful

/-! ## The acts on lines -/

section Acts

variable {s : State} (h : s.recs.LinesLawful)
include h

theorem State.lineFrame_linesLawful (l : LineNo) (frame : List Byte) : (s.lineFrame l frame).recs.LinesLawful := by
  unfold State.lineFrame
  split
  · exact h
  · dsimp only
    split
    · exact h.goodAnswer s.clk l _ _
    · exact h.loss s.clk l _

/-- A line made to enter a state: DISABLED it has no visit in flight (R149). -/
theorem State.enterLine_linesLawful (l : LineNo) (run : Bool) : (s.enterLine l run).recs.LinesLawful := by
  unfold State.enterLine
  dsimp only
  split
  · exact h
  · exact h
  · exact h.setLine l ((h l).of_settings rfl rfl (Nat.zero_le _) nofun (h l).node)
  · have hclear := h.clearLine s.clk l
    obtain ⟨hself, -⟩ := s.recs.clearLine_line s.clk l
    refine hclear.setLine l ((hclear l).of_settings rfl rfl (hclear l).sweepCount (fun _ => ?_) (hclear l).node)
    exact congrArg Line.visit hself

theorem State.setLineTo_linesLawful (line state timeout refresh : Nat) :
    (s.setLineTo line state timeout refresh).1.recs.LinesLawful := by
  unfold State.setLineTo
  split
  · exact h
  · rename_i l _
    split
    · rename_i hrange
      obtain ⟨-, htlo, hthi, hrlo, hrhi⟩ := hrange
      have hset := (h l).configuredWith htlo hthi hrlo hrhi
      exact State.enterLine_linesLawful (s := s.setLine l _) (h.setLine l hset) _ _
    · exact h

theorem State.restartLine_linesLawful (line : Nat) : (s.restartLine line).1.recs.LinesLawful := by
  unfold State.restartLine
  split
  · exact h
  · rename_i l _
    have hclear := h.clearLine s.clk l
    exact hclear.setLine l (hclear l).sweepAnew

theorem State.writeNode_linesLawful (line node kind target : Nat) :
    (s.writeNode line node kind target).1.recs.LinesLawful := by
  rcases s.writeNode_recs line node kind target with e | ⟨l, n, k, -, e⟩ <;> rw [e]
  · exact h
  · exact h.writeNode s.clk l n k

/-- A server command keeps the lines lawful when its owner's act does. -/
theorem State.serve_linesLawful {t : State} {cmd : Instr} {act : State → State × Answer}
    (hact : (act s).1.recs.LinesLawful) (hexec : s.serve cmd act = .next t) : t.recs.LinesLawful := by
  rcases State.serve_recs hexec with e | e <;> rw [e]
  · exact h
  · exact hact

theorem State.serve_marks {t : State} {cmd : Instr} {act : State → State × Answer}
    (hact : (act s).1.recs.unmarked = s.recs.unmarked) (hexec : s.serve cmd act = .next t) : t.recs.LinesLawful :=
  State.serve_linesLawful h (h.of_unmarked hact) hexec

theorem State.serve_reads {t : State} {cmd : Instr} {act : State → State × Answer} (hact : (act s).1 = s)
    (hexec : s.serve cmd act = .next t) : t.recs.LinesLawful :=
  State.serve_linesLawful (act := act) h (by rwa [hact]) hexec

theorem State.takePanel_linesLawful {t : State} {l : LineNo} {n : NodeNo} {want : PanelItem → Bool}
    {act : State → PanelHandoff → State} (hact : ∀ s x, (act s x).recs.unmarked = s.recs.unmarked)
    (hexec : s.takePanel l n want act = .next t) : t.recs.LinesLawful :=
  h.of_unmarked (State.takePanel_unmarked hact hexec)

end Acts

/-! ## Every command -/

theorem exec_keeps_lines {i : Instr} {s t : State} (hexec : exec i s = .next t) (h : s.recs.LinesLawful) :
    t.recs.LinesLawful := by
  cases i with
  | hardReset => cases hexec; exact fun l => resetStateIsLawful.lines l
  | poolInitComplete =>
    simp only [exec, execPoolInitComplete] at hexec
    split at hexec <;> cases hexec <;> exact h
  | elapsedSecond =>
    simp only [exec, execElapsedSecond] at hexec
    split at hexec
    · cases hexec; exact h
    · cases hexec; exact h
    · split at hexec
      · cases hexec; exact h
      · split at hexec <;> cases hexec
        · exact h
        · exact h.of_unmarked (s.recs.clockEnd_unmarked _)
  | secondPulse l =>
    simp only [exec, execSecondPulse] at hexec
    split at hexec <;> cases hexec
    · exact h
    · exact h.setLine l ((h l).aged _)
  | bkeMinuteAdvance =>
    simp only [exec, execBkeMinuteAdvance] at hexec
    split at hexec <;> cases hexec <;> exact h
  | minuteWalkStep =>
    simp only [exec, execMinuteWalkStep] at hexec
    split at hexec <;> cases hexec
    · exact h
    · exact h.of_unmarked (s.recs.bringUp_unmarked _ _)
  | windowRoll k =>
    simp only [exec, execWindowRoll] at hexec
    split at hexec <;> cases hexec
    · exact h
    · exact h.of_unmarked (s.recs.roll_unmarked _ _ _ _)
  | sheddingStep k =>
    simp only [exec, execSheddingStep] at hexec
    split at hexec <;> cases hexec
    · exact h.of_unmarked (s.recs.sheddingStep_unmarked _ _ _)
    · exact h
    · exact h
  | promotingStep k =>
    simp only [exec, execPromotingStep] at hexec
    split at hexec <;> cases hexec
    · exact h.of_unmarked (s.recs.promotingStep_unmarked _ _ _ _)
    · exact h
    · exact h
  | closeWalkStep r =>
    simp only [exec, execCloseWalkStep] at hexec
    split at hexec <;> cases hexec
    · exact h.of_unmarked (s.recs.closeStep_unmarked _ _)
    · exact h
  | clearSlotVisit =>
    simp only [exec, execClearSlotVisit] at hexec
    split at hexec
    · cases hexec; exact h
    · cases hexec; exact h
    · split at hexec <;> cases hexec
      · exact h
      · exact h.of_unmarked (s.recs.clearSlot_unmarked _ _)
  | clearAllComplete =>
    simp only [exec, execClearAllComplete] at hexec
    split at hexec
    · cases hexec; exact h
    · cases hexec; exact h
    · split at hexec <;> cases hexec
      · exact h
      · rw [State.finish_recs]; exact h.of_unmarked s.recs.completeClear_unmarked
  | findRoomsScanStep =>
    simp only [exec, execFindRoomsScanStep] at hexec
    split at hexec <;> cases hexec
    · exact h
    · rw [State.scanOn_recs]; exact h.of_unmarked (s.recs.judgeRoom_unmarked _ _ _)
  | visitStart l =>
    have hchosen := (h l).chooseNext
    have hfixture := (s.recs.line l).chooseNext_fixture
    simp only [exec, execVisitStart] at hexec
    split at hexec
    · rename_i hopen
      obtain ⟨hrun, -⟩ := Bool.and_eq_true_iff.mp hopen
      split at hexec <;> cases hexec
      · rename_i hchoose
        rw [hchoose] at hchosen hfixture
        exact h.startVisit s.clk l hchosen ((congrArg Line.Fixture.running hfixture).trans hrun) _
      · exact h
    · cases hexec; exact h
  | panelAnswer l frame => cases hexec; exact State.lineFrame_linesLawful h l frame
  | terminalAnswer l frame => cases hexec; exact State.lineFrame_linesLawful h l frame
  | badAnswer l frame => cases hexec; exact State.lineFrame_linesLawful h l frame
  | frameDiscarded l frame => cases hexec; exact State.lineFrame_linesLawful h l frame
  | visitTimeout l =>
    simp only [exec, execVisitTimeout] at hexec
    split at hexec <;> cases hexec
    · exact h
    · exact h.loss s.clk l _
  | motionReport l n => exact State.takePanel_linesLawful h State.takeMotion_unmarked hexec
  | motionCheckIn l n =>
    exact State.takePanel_linesLawful (want := fun x => decide (x = .motionCheckIn)) h State.takeMotionCheckIn_unmarked
      hexec
  | checkIn l n =>
    exact State.takePanel_linesLawful h (State.takeRequest_unmarked · Records.panelCheckIn_unmarked) hexec
  | extend l n =>
    exact State.takePanel_linesLawful h (State.takeRequest_unmarked · Records.panelExtend_unmarked) hexec
  | release l n =>
    exact State.takePanel_linesLawful h (State.takeRequest_unmarked · Records.panelRelease_unmarked) hexec
  | walkUp l n =>
    exact State.takePanel_linesLawful h (State.takeRequest_unmarked · Records.panelWalkUp_unmarked) hexec
  | requestResult l n =>
    simp only [exec, execRequestResult] at hexec
    split at hexec <;> cases hexec
    · exact h
    · exact h.setLine l ((h l).setNode n (Node.takes_lawful ((h l).node n) _))
  | terminalReport a =>
    cases hexec
    split
    · exact h.of_lines (Records.reformLevel_lines ..)
    · exact h
  | terminalLoss k => cases hexec; exact h.of_lines (Records.reformLevel_lines ..)
  | noticeRaise n => cases hexec; exact h
  | commandWrite bytes => cases hexec; rwa [s.transact_recs]
  | overrun bytes => cases hexec; rwa [s.transact_recs]
  | ignoredTransaction bytes => cases hexec; rwa [s.transact_recs]
  | readOut a => cases hexec; rwa [s.readOut_recs]
  | setClock tag v => exact State.serve_marks h (s.setClock_unmarked v) hexec
  | readClock tag => exact State.serve_reads (act := fun s => (s, .now .ok s.clk.readPayload)) h rfl hexec
  | poolStatus tag => exact State.serve_reads (act := fun s => (s, .now .ok s.recs.poolPayload)) h rfl hexec
  | noticeSummary tag => exact State.serve_reads (act := fun s => (s, .now .ok s.recs.notices.summary)) h rfl hexec
  | setReserve tag floor => exact State.serve_marks h (s.setReserve_unmarked floor) hexec
  | setHorizon tag days => exact State.serve_marks h (s.setHorizon_unmarked days) hexec
  | clearAll tag => exact State.serve_marks h s.clearAll_unmarked hexec
  | findRooms tag a => exact State.serve_marks h (congrArg Records.unmarked (s.findRooms_cases a).1) hexec
  | writeRoom tag a => exact State.serve_marks h (s.writeRoom_unmarked a) hexec
  | writeRoomRemove tag n => exact State.serve_marks h (s.writeRoomRemove_unmarked n) hexec
  | readRoom tag room => exact State.serve_marks h (s.readRoom_unmarked room) hexec
  | setRoomService tag up room => exact State.serve_marks h (s.setRoomService_unmarked up room) hexec
  | closeAndCancel tag room => exact State.serve_marks h (s.closeAndCancel_unmarked room) hexec
  | hold tag a ht => exact State.serve_marks h (s.bookOrHold_unmarked a (some ht)) hexec
  | book tag a => exact State.serve_marks h (s.bookOrHold_unmarked a none) hexec
  | confirm tag g cls => exact State.serve_marks h (s.confirm_unmarked g cls) hexec
  | amend tag a => exact State.serve_marks h (s.amend_unmarked a) hexec
  | cancel tag g => exact State.serve_marks h (s.cancel_unmarked g) hexec
  | readBooking tag g => exact State.serve_reads h (s.readBooking_self g) hexec
  | lookupAt tag room m => exact State.serve_reads h (s.lookupAt_self room m) hexec
  | listRoom tag room n a => exact State.serve_reads h (s.listRoom_self room n a) hexec
  | writeMenuClass tag c w u l =>
    exact State.serve_marks h (congrArg Records.unmarked (s.writeMenuClass_recs c w u l)) hexec
  | writeBanks tag k banks => exact State.serve_marks h (s.writeBanks_unmarked k banks) hexec
  | writeKitchen tag k o c f => exact State.serve_marks h (s.writeKitchen_unmarked k o c f) hexec
  | setStaffing tag k level => exact State.serve_marks h (s.setStaffing_unmarked k level) hexec
  | readKitchen tag k => exact State.serve_reads h (s.readKitchen_self k) hexec
  | readWindow tag k w => exact State.serve_marks h (s.readWindow_unmarked k w) hexec
  | order tag g m n d => exact State.serve_marks h (s.order_unmarked g m n d) hexec
  | amendOrder tag a => exact State.serve_marks h (s.amendOrder_unmarked a) hexec
  | cancelOrder tag g => exact State.serve_marks h (s.cancelOrder_unmarked g) hexec
  | readOrder tag g => exact State.serve_reads h (s.readOrder_self g) hexec
  | setLine tag l st m r => exact State.serve_linesLawful h (State.setLineTo_linesLawful h l st m r) hexec
  | restartLine tag l => exact State.serve_linesLawful h (State.restartLine_linesLawful h l) hexec
  | writeNode tag l n k g => exact State.serve_linesLawful h (State.writeNode_linesLawful h l n k g) hexec
  | readNode tag l n => exact State.serve_reads h (s.readNode_self l n) hexec
  | readNotices tag i n => exact State.serve_marks h (s.readNotices_unmarked i n) hexec
  | setNoticeMask tag m => exact State.serve_marks h (s.setNoticeMask_unmarked m) hexec

/-- Settles O10: every command keeps the lines lawful, by its own law for the events of a line and by the unmarked lines
for every other. -/
theorem stepKeepsLinesLawful : Obligations.StepKeepsLinesLawful := by
  intro s t h hstep
  rcases step_exec hstep with rfl | ⟨i, rest, hexec⟩
  · exact h
  · exact exec_keeps_lines hexec h

end Sys2Proof.Machine

/-! The page of a panel: its status, free-until minute and entries (R163, R165, R166), and the first minute at which it
differs through time alone (R168). -/

namespace Sys2Proof.Machine

open Sys2Proof

/-! ## The conditions of a status (R163) -/

theorem Records.someReported_iff (b : Records) (c : Clock) (r : RoomNo) (u : BookingState) :
    b.someReported c r u = true ↔
      ∃ x ∈ b.livingView c.minute r, reportedState c (b.room x.chainRoom).attrs x.booking = u := by
  simp [Records.someReported]

theorem Reason.showsRecent_iff (w : Reason) :
    w.showsRecent = true ↔ w = .noShow ∨ w = .vacated ∨ w = .doorRelease := by
  cases w <;> simp [Reason.showsRecent]

theorem Room.releasedRecently_iff (x : Room) (now : Nat) :
    x.releasedRecently now = true ↔ ∃ p, x.lastRelease = some p ∧
      (p.1 = .noShow ∨ p.1 = .vacated ∨ p.1 = .doorRelease) ∧ now < p.2 + 10 := by
  unfold Room.releasedRecently
  cases x.lastRelease <;> simp [Reason.showsRecent_iff]

theorem Room.inTurnaround_iff (x : Room) (now : Nat) :
    x.inTurnaround now = true ↔ ∃ t, x.turnaround = some t ∧ now < t := by
  unfold Room.inTurnaround
  cases x.turnaround <;> simp

/-- The statuses of a room IN_SERVICE once the clock is set, the first that holds (R163). -/
theorem Records.pageStatus_open {b : Records} {c : Clock} {r : RoomNo} (hset : c.state ≠ .unset)
    (hservice : (b.room r).service = .inService) :
    b.pageStatus c r =
      if b.someReported c r .inUse then .inUse
      else if b.someReported c r .arriving then .arriving
      else if (b.viewRooms r).any fun q => (b.room q).releasedRecently c.minute then .releasedRecent
      else if (b.conflictSet r).any fun q => (b.room q).inTurnaround c.minute then .turnaround
      else .free := by
  simp [Records.pageStatus, Records.inService, hset, hservice]

theorem Records.pageBody_entries_length (b : Records) (c : Clock) (r : RoomNo) (compact : Bool) :
    (b.pageBody c r compact).entries.length ≤ entryLimit compact := by
  have hentries : (b.pageBody c r compact).entries = if b.pageStatus c r = .standby then []
      else ((b.livingView c.minute r).take (entryLimit compact)).map fun x => x.booking.entry := rfl
  rw [hentries]
  split_ifs
  · exact Nat.zero_le _
  · rw [List.length_map]
    exact List.length_take_le ..

/-! ## Free-until (R165) -/

theorem PageStatus.showsFree_iff (st : PageStatus) : st.showsFree = true ↔ st = .free ∨ st = .releasedRecent := by
  cases st <;> simp [PageStatus.showsFree]

theorem Records.freeUntil_eq_some (b : Records) (now : Nat) (r : RoomNo) (st : PageStatus) (m : Int) :
    b.freeUntil now r st = some m ↔ (st = .free ∨ st = .releasedRecent) ∧
      ∃ x, (b.livingView now r).head? = some x ∧ x.booking.start ≤ now + 1440 ∧
        m = (x.booking.start : Int) - (b.gapOf r x.chainRoom : Nat) := by
  rw [← PageStatus.showsFree_iff]
  unfold Records.freeUntil
  split
  · cases (b.livingView now r).head? <;> simp [*, eq_comm]
  · simp [*]

theorem any_congr_mem {α : Type} {l : List α} {p q : α → Bool} (h : ∀ x ∈ l, p x = q x) : l.any p = l.any q := by
  rw [Bool.eq_iff_iff, List.any_eq_true, List.any_eq_true]
  exact exists_congr fun x => and_congr_right fun hx => by rw [h x hx]

/-! ## Between two minutes of the table nothing changes (R168)

`m + 1` is a minute outside the table, so what is read at `m + 1` is what is read at `m`. -/

section BetweenMinutes

variable {b : Records} {c : Clock} {r : RoomNo} {m : Nat}

theorem Booking.countsRetired_succ {k : Booking} (hstop : m + 1 ≠ k.stop) (hhold : m + 1 ∉ k.holdExpiry) :
    k.countsRetired (m + 1) = k.countsRetired m := by
  rw [Bool.eq_iff_iff, Booking.countsRetired_iff, Booking.countsRetired_iff]
  have hexpired : ∀ e, k.holdExpiry = some e → (e ≤ m + 1 ↔ e ≤ m) := by
    intro e he
    have hne : m + 1 ≠ e := fun h => hhold (h ▸ he)
    omega
  have hended : k.stop ≤ m + 1 ↔ k.stop ≤ m := by omega
  exact or_congr hended (and_congr_right' (exists_congr fun e => and_congr_right (hexpired e)))

theorem reportedState_succ {a : RoomAttrs} {k : Booking} (hlead : m + 1 ≠ k.start - a.lead) (hstart : m + 1 ≠ k.start) :
    reportedState { c with minute := m + 1 } a k = reportedState { c with minute := m } a k := by
  have harrives : k.start ≤ m + 1 + a.lead ↔ k.start ≤ m + a.lead := by omega
  have hbegins : k.start ≤ m + 1 ↔ k.start ≤ m := by omega
  simp only [reportedState, harrives, hbegins]

theorem Room.releasedRecently_succ {x : Room} (h : m + 1 ∉ x.changeMinutes) :
    x.releasedRecently (m + 1) = x.releasedRecently m := by
  unfold Room.releasedRecently
  cases hp : x.lastRelease with
  | none => rfl
  | some p =>
    have hne : m + 1 ≠ p.2 + 10 := fun e => h (by simp [Room.changeMinutes, hp, e])
    have hrecent : m + 1 < p.2 + 10 ↔ m < p.2 + 10 := by omega
    simp only [hrecent]

theorem Room.inTurnaround_succ {x : Room} (h : m + 1 ∉ x.changeMinutes) :
    x.inTurnaround (m + 1) = x.inTurnaround m := by
  unfold Room.inTurnaround
  cases ht : x.turnaround with
  | none => rfl
  | some t =>
    have hne : m + 1 ≠ t := fun e => h (by simp [Room.changeMinutes, ht, e])
    have hafter : m + 1 < t ↔ m < t := by omega
    simp only [hafter]

theorem Records.not_mem_changeMinutes (h : m ∉ b.changeMinutes r) :
    (∀ x ∈ b.view r, m ∉ b.bookingMinutes x) ∧
      ∀ q, q ∈ b.viewRooms r ∨ q ∈ b.conflictSet r → m ∉ (b.room q).changeMinutes := by
  simpa [Records.changeMinutes, or_imp, forall_and] using h

theorem Records.not_mem_bookingMinutes {x : Seen} (h : m ∉ b.bookingMinutes x) :
    m ≠ x.booking.start - (b.room x.chainRoom).attrs.lead ∧ m ≠ x.booking.start ∧ m ≠ x.booking.stop ∧
      m ≠ x.booking.start - 1440 ∧ m ∉ x.booking.holdExpiry := by
  simpa [Records.bookingMinutes] using h

theorem Records.livingView_succ (h : m + 1 ∉ b.changeMinutes r) : b.livingView (m + 1) r = b.livingView m r := by
  obtain ⟨hview, -⟩ := Records.not_mem_changeMinutes h
  refine List.filter_congr fun x hx => ?_
  obtain ⟨-, -, hstop, -, hhold⟩ := Records.not_mem_bookingMinutes (hview x hx)
  rw [Booking.countsRetired_succ hstop hhold]

theorem Records.someReported_succ (h : m + 1 ∉ b.changeMinutes r) (u : BookingState) :
    b.someReported { c with minute := m + 1 } r u = b.someReported { c with minute := m } r u := by
  obtain ⟨hview, -⟩ := Records.not_mem_changeMinutes h
  rw [Bool.eq_iff_iff, Records.someReported_iff, Records.someReported_iff, Records.livingView_succ h]
  refine exists_congr fun x => and_congr_right fun hx => ?_
  obtain ⟨hlead, hstart, -⟩ := Records.not_mem_bookingMinutes (hview x (List.mem_filter.mp hx).1)
  rw [reportedState_succ hlead hstart]

theorem Records.pageStatus_succ (h : m + 1 ∉ b.changeMinutes r) :
    b.pageStatus { c with minute := m + 1 } r = b.pageStatus { c with minute := m } r := by
  obtain ⟨-, hrooms⟩ := Records.not_mem_changeMinutes h
  have hrecent : ((b.viewRooms r).any fun q => (b.room q).releasedRecently (m + 1)) =
      (b.viewRooms r).any fun q => (b.room q).releasedRecently m :=
    any_congr_mem fun q hq => Room.releasedRecently_succ (hrooms q (.inl hq))
  have hturning : ((b.conflictSet r).any fun q => (b.room q).inTurnaround (m + 1)) =
      (b.conflictSet r).any fun q => (b.room q).inTurnaround m :=
    any_congr_mem fun q hq => Room.inTurnaround_succ (hrooms q (.inr hq))
  simp only [Records.pageStatus, Records.someReported_succ h, hrecent, hturning]

theorem Records.freeUntil_succ (h : m + 1 ∉ b.changeMinutes r) (st : PageStatus) :
    b.freeUntil (m + 1) r st = b.freeUntil m r st := by
  obtain ⟨hview, -⟩ := Records.not_mem_changeMinutes h
  ext u
  rw [Records.freeUntil_eq_some, Records.freeUntil_eq_some, Records.livingView_succ h]
  refine and_congr_right' (exists_congr fun x => and_congr_right fun hx => and_congr_left' ?_)
  obtain ⟨-, -, -, hday, -⟩ :=
    Records.not_mem_bookingMinutes (hview x (List.mem_filter.mp (List.mem_of_head? hx)).1)
  omega

theorem Records.pageBody_succ (h : m + 1 ∉ b.changeMinutes r) (compact : Bool) :
    b.pageBody { c with minute := m + 1 } r compact = b.pageBody { c with minute := m } r compact := by
  simp only [Records.pageBody, Records.pageStatus_succ h, Records.freeUntil_succ h, Records.livingView_succ h]

end BetweenMinutes

/-! ## The first minute of a change (R168) -/

theorem foldl_earlier_eq_min? (l : List Nat) : l.foldl earlier none = l.min? := by
  have hsome : ∀ (l : List Nat) (a : Nat), l.foldl earlier (some a) = some (l.foldl min a) := by
    intro l
    induction l with
    | nil => exact fun a => rfl
    | cons x xs ih => exact fun a => ih (min a x)
  cases l with
  | nil => rfl
  | cons x xs => exact hsome xs x

/-- A value that changes only at the minutes of a table has its first change at one of them. -/
theorem exists_first_change {α : Type} {f : Nat → α} {table : List Nat}
    (hsucc : ∀ m, m + 1 ∉ table → f (m + 1) = f m) {now m : Nat} (hm : now ≤ m) (hne : f m ≠ f now) :
    ∃ n ∈ table, now < n ∧ n ≤ m ∧ f n ≠ f now := by
  induction m, hm using Nat.le_induction with
  | base => exact absurd rfl hne
  | succ m hm ih =>
    by_cases hbefore : f m = f now
    · have hmem : m + 1 ∈ table := by
        by_contra hnot
        exact hne ((hsucc m hnot).trans hbefore)
      exact ⟨m + 1, hmem, Nat.lt_succ_of_le hm, le_rfl, hne⟩
    · obtain ⟨n, hmem, hlt, hle, hn⟩ := ih hbefore
      exact ⟨n, hmem, hlt, hle.trans (Nat.le_succ m), hn⟩

section TimeChange

variable {b : Records} {c : Clock} {r : RoomNo} {compact : Bool}

/-- The page composed at the minute `m` after now, from unchanged records, differs from the page of now (R168). -/
def Records.PageDiffers (b : Records) (c : Clock) (r : RoomNo) (compact : Bool) (m : Nat) : Prop :=
  c.minute < m ∧ m ≤ Config.maxMinute ∧ b.pageBody { c with minute := m } r compact ≠ b.pageBody c r compact

/-- The time-change minute is the least minute of the table of R168 at which the page differs. -/
theorem Records.timeChange_eq_some_iff_least (hrun : c.state = .running) (m : Nat) :
    b.timeChange c r compact = some m ↔
      (m ∈ b.changeMinutes r ∧ b.PageDiffers c r compact m) ∧
        ∀ n ∈ b.changeMinutes r, b.PageDiffers c r compact n → m ≤ n := by
  simp only [Records.timeChange, if_pos hrun, foldl_earlier_eq_min?, List.min?_eq_some_iff, List.mem_filter,
    Bool.and_eq_true, decide_eq_true_eq, Records.PageDiffers, and_assoc, and_imp]

/-- No minute before the least one of the table differs, since the first minute that does stands in the table. -/
theorem Records.timeChange_eq_some (hrun : c.state = .running) (m : Nat) :
    b.timeChange c r compact = some m ↔
      b.PageDiffers c r compact m ∧ ∀ n < m, ¬ b.PageDiffers c r compact n := by
  have hfirst : ∀ n, b.PageDiffers c r compact n →
      ∃ k ∈ b.changeMinutes r, k ≤ n ∧ b.PageDiffers c r compact k := by
    rintro n ⟨hafter, hrange, hdiff⟩
    obtain ⟨k, hmem, hk, hkn, hkdiff⟩ := exists_first_change
      (f := fun n => b.pageBody { c with minute := n } r compact)
      (fun n h => Records.pageBody_succ h compact) hafter.le hdiff
    exact ⟨k, hmem, hkn, hk, hkn.trans hrange, hkdiff⟩
  rw [Records.timeChange_eq_some_iff_least hrun]
  constructor
  · rintro ⟨⟨-, hdiff⟩, hleast⟩
    refine ⟨hdiff, fun n hnm hn => ?_⟩
    obtain ⟨k, hmem, hkn, hk⟩ := hfirst n hn
    exact absurd (hleast k hmem hk) (not_le.mpr (hkn.trans_lt hnm))
  · rintro ⟨hdiff, hbefore⟩
    obtain ⟨k, hmem, hkm, hk⟩ := hfirst m hdiff
    obtain rfl : k = m := hkm.eq_of_not_lt fun hlt => hbefore k hlt hk
    exact ⟨⟨hmem, hdiff⟩, fun n _ hn => not_lt.mp fun hlt => hbefore n hlt hn⟩

theorem Records.timeChange_eq_some_iff_first (hrun : c.state = .running) (m : Nat) :
    let page := fun n => b.pageBody { c with minute := n } r compact
    b.timeChange c r compact = some m ↔ c.minute < m ∧ m ≤ Config.maxMinute ∧ page m ≠ page c.minute ∧
      ∀ n, c.minute < n → n < m → page n = page c.minute := by
  intro page
  rw [Records.timeChange_eq_some hrun]
  constructor
  · rintro ⟨⟨hafter, hrange, hdiff⟩, hbefore⟩
    refine ⟨hafter, hrange, hdiff, fun n hn hnm => ?_⟩
    by_contra hne
    exact hbefore n hnm ⟨hn, hnm.le.trans hrange, hne⟩
  · rintro ⟨hafter, hrange, hdiff, hbefore⟩
    exact ⟨⟨hafter, hrange, hdiff⟩, fun n hnm ⟨hn, _, hne⟩ => hne (hbefore n hn hnm)⟩

end TimeChange

/-- Settles O53: the status condition by condition, the entries and free-until by their definitions, and the
time-change minute because the page changes only at the minutes of the table. -/
theorem pageFollowsStatusAndTime : Obligations.PageFollowsStatusAndTime := by
  intro b c r compact now st l shown recent turning open' page
  have hshown : ∀ u, shown u ↔ b.someReported c r u = true := fun u => (b.someReported_iff c r u).symm
  have hrecent : recent ↔ ((b.viewRooms r).any fun q => (b.room q).releasedRecently c.minute) = true := by
    simp only [List.any_eq_true, Room.releasedRecently_iff]; rfl
  have hturning : turning ↔ ((b.conflictSet r).any fun q => (b.room q).inTurnaround c.minute) = true := by
    simp only [List.any_eq_true, Room.inTurnaround_iff]; rfl
  simp only [hshown, hrecent, hturning]
  refine ⟨fun h => if_pos h, fun h hs => ?_, fun ⟨h, hs⟩ hi => ?_, fun ⟨h, hs⟩ hi ha => ?_, fun ⟨h, hs⟩ hi ha hr => ?_,
    fun ⟨h, hs⟩ hi ha hr ht => ?_, fun ⟨h, hs⟩ hi ha hr ht => ?_, rfl, ?_, fun h => if_pos h, fun h => if_neg h,
    b.freeUntil_eq_some now r st, fun h => if_neg h, Records.timeChange_eq_some_iff_first⟩
  · exact (if_neg h).trans (if_pos (decide_eq_false hs))
  · exact (Records.pageStatus_open h hs).trans (if_pos hi)
  · exact (Records.pageStatus_open h hs).trans ((if_neg hi).trans (if_pos ha))
  · exact (Records.pageStatus_open h hs).trans ((if_neg hi).trans ((if_neg ha).trans (if_pos hr)))
  · exact (Records.pageStatus_open h hs).trans
      ((if_neg hi).trans ((if_neg ha).trans ((if_neg hr).trans (if_pos ht))))
  · exact (Records.pageStatus_open h hs).trans
      ((if_neg hi).trans ((if_neg ha).trans ((if_neg hr).trans (if_neg ht))))
  · exact b.pageBody_entries_length c r compact

end Sys2Proof.Machine

/-! The coding of command frames: fields read back from a payload in the order in which they were written (R185, R186),
and the judgement of a sealed frame (R178, R184). -/

namespace Sys2Proof

/-! ## Fields of fixed length -/

@[simp] theorem be_length (len v : Nat) : (be len v).length = len := by
  induction len with
  | zero => rfl
  | succ len ih => simp [be, ih]

theorem ofBytes_foldl (bs : List Byte) (a : Nat) :
    bs.foldl (fun n b => n * 256 + b.toNat) a = a * 256 ^ bs.length + ofBytes bs := by
  unfold ofBytes
  induction bs generalizing a with
  | nil => simp
  | cons b bs ih => rw [List.foldl_cons, List.foldl_cons, ih, ih (0 * 256 + b.toNat), List.length_cons]; ring

theorem ofBytes_cons (b : Byte) (bs : List Byte) : ofBytes (b :: bs) = b.toNat * 256 ^ bs.length + ofBytes bs := by
  rw [ofBytes, List.foldl_cons, ofBytes_foldl, Nat.zero_mul, Nat.zero_add]

/-- The bytes of a number spell its rest by 256 ^ length. -/
theorem ofBytes_be (len v : Nat) : ofBytes (be len v) = v % 256 ^ len := by
  induction len with
  | zero => simp [be, ofBytes, Nat.mod_one]
  | succ len ih =>
    have hbyte : (BitVec.ofNat 8 (v / 256 ^ len)).toNat = v / 256 ^ len % 256 := BitVec.toNat_ofNat ..
    rw [be, ofBytes_cons, be_length, ih, hbyte, pow_succ, Nat.mod_mul, Nat.mul_comm, Nat.add_comm]

/-! ## Reading past a field -/

section Past

variable {pre rest : List Byte} {off : Nat}

theorem drop_past (h : pre.length ≤ off) : (pre ++ rest).drop off = rest.drop (off - pre.length) := by
  rw [List.drop_append, List.drop_eq_nil_of_le h, List.nil_append]

@[simp] theorem numAt_past (h : pre.length ≤ off) (len : Nat) :
    numAt (pre ++ rest) off len = numAt rest (off - pre.length) len := by
  rw [numAt, drop_past h, numAt]

@[simp] theorem byteAt_past (h : pre.length ≤ off) : byteAt (pre ++ rest) off = byteAt rest (off - pre.length) := by
  rw [byteAt, List.getD_append_right _ _ _ _ h, byteAt]

@[simp] theorem textAt_past (h : pre.length ≤ off) : textAt (pre ++ rest) off = textAt rest (off - pre.length) := by
  rw [textAt, drop_past h, textAt]

@[simp] theorem optAt_past (h : pre.length ≤ off) (len : Nat) :
    optAt (pre ++ rest) off len = optAt rest (off - pre.length) len := by
  have hsub : off + 1 - pre.length = off - pre.length + 1 := by omega
  rw [optAt, byteAt_past h, numAt_past (by omega), hsub, optAt]

end Past
/-! ## Reading a field where it stands -/

@[simp] theorem numAt_be {len v : Nat} (rest : List Byte) (h : v < 256 ^ len) : numAt (be len v ++ rest) 0 len = v := by
  rw [numAt, List.drop_zero, List.take_left' (be_length len v), ofBytes_be, Nat.mod_eq_of_lt h]

@[simp] theorem numAt_be_nil {len v : Nat} (h : v < 256 ^ len) : numAt (be len v) 0 len = v := by
  have hread := numAt_be [] h
  rwa [List.append_nil] at hread

/-- The first byte of a one-byte number, at the head of a payload. -/
@[simp] theorem byteAt_be_one (v : Nat) (rest : List Byte) : byteAt (be 1 v ++ rest) 0 = BitVec.ofNat 8 v := by
  simp [byteAt, be]

@[simp] theorem byteAt_cons_zero (b : Byte) (rest : List Byte) : byteAt (b :: rest) 0 = b := rfl

@[simp] theorem byteAt_cons_succ (b : Byte) (rest : List Byte) (off : Nat) :
    byteAt (b :: rest) (off + 1) = byteAt rest off :=
  rfl

@[simp] theorem numAt_cons_succ (b : Byte) (rest : List Byte) (off len : Nat) :
    numAt (b :: rest) (off + 1) len = numAt rest off len := rfl

@[simp] theorem textAt_cons_succ (b : Byte) (rest : List Byte) (off : Nat) :
    textAt (b :: rest) (off + 1) = textAt rest off :=
  rfl

@[simp] theorem textAt_toList (x : Text) (rest : List Byte) : textAt (x.toList ++ rest) 0 = x := by
  apply Vector.toList_inj.mp
  simp [textAt, textOf, Vector.toList]

@[simp] theorem textAt_toList_nil (x : Text) : textAt x.toList 0 = x := by
  have hread := textAt_toList x []
  rwa [List.append_nil] at hread

@[simp] theorem optBytes_length (len : Nat) (v : Option Nat) : (optBytes len v).length = len + 1 := by
  cases v <;> simp [optBytes]

theorem fitsIn_iff {bound : Nat} {v : Option Nat} : fitsIn bound v = true ↔ ∀ x, v = some x → x < bound := by
  cases v <;> simp [fitsIn]

@[simp] theorem optAt_optBytes {len : Nat} {v : Option Nat} (rest : List Byte) (h : fitsIn (256 ^ len) v = true) :
    optAt (optBytes len v ++ rest) 0 len = v := by
  cases v with
  | none => rfl
  | some x =>
    exact congrArg some (numAt_be rest (fitsIn_iff.mp h x rfl))

@[simp] theorem optAt_optBytes_nil {len : Nat} {v : Option Nat} (h : fitsIn (256 ^ len) v = true) :
    optAt (optBytes len v) 0 len = v := by
  have hread := optAt_optBytes [] h
  rwa [List.append_nil] at hread

@[simp] theorem handleBytes_length (h : Handle) : (handleBytes h).length = 4 := by simp [handleBytes]

@[simp] theorem handleAt_handleBytes {h : Handle} (rest : List Byte) (hfit : h.wellFormed = true) :
    handleAt (handleBytes h ++ rest) 0 = h := by
  have hslot : numAt (be 2 h.slot ++ rest) 0 2 = h.slot := numAt_be rest (of_decide_eq_true hfit)
  obtain ⟨kind, gen, slot⟩ := h
  exact congrArg (Handle.mk kind gen) hslot

@[simp] theorem handleAt_handleBytes_nil {h : Handle} (hfit : h.wellFormed = true) :
    handleAt (handleBytes h) 0 = h := by
  have hread := handleAt_handleBytes [] hfit
  rwa [List.append_nil] at hread

@[simp] theorem isPresent_zero : isPresent 0#8 = false := rfl

@[simp] theorem isPresent_one : isPresent 1#8 = true := rfl

/-! ## The operand groups of the longer commands (R186) -/

@[simp] theorem bookArgsBytes_length (a : BookArgs) : (bookArgsBytes a).length = 33 := by simp [bookArgsBytes]

theorem bookArgsOf_bytes {a : BookArgs} (rest : List Byte) (h : a.wellFormed = true) :
    bookArgsOf (bookArgsBytes a ++ rest) = a := by
  simp only [BookArgs.wellFormed, Bool.and_eq_true, decide_eq_true_eq] at h
  obtain ⟨⟨⟨⟨⟨hroom, hstart⟩, hstop⟩, hcls⟩, hattendees⟩, horganizer⟩ := h
  simp [bookArgsOf, bookArgsBytes, *]

theorem bookArgsOf_bytes_nil {a : BookArgs} (h : a.wellFormed = true) : bookArgsOf (bookArgsBytes a) = a := by
  have hread := bookArgsOf_bytes [] h
  rwa [List.append_nil] at hread

/-- A title that may be absent, as it travels (R186). -/
def optTextBytes (x : Option Text) : List Byte :=
  match x with
  | none => 0 :: List.replicate 16 0
  | some x => 1 :: x.toList

@[simp] theorem optTextBytes_length (x : Option Text) : (optTextBytes x).length = 17 := by
  cases x <;> simp [optTextBytes]

theorem optTextBytes_read (x : Option Text) :
    (if isPresent (byteAt (optTextBytes x) 0) then some (textAt (optTextBytes x) 1) else none) = x := by
  cases x with
  | none => rfl
  | some x => simp [optTextBytes]

theorem amendArgsOf_bytes {a : AmendArgs} (h : a.wellFormed = true) :
    amendArgsOf (handleBytes a.handle ++ optBytes 4 a.start ++ optBytes 4 a.stop ++ optBytes 2 a.attendees ++
      optTextBytes a.title) = a := by
  simp only [AmendArgs.wellFormed, Bool.and_eq_true] at h
  obtain ⟨⟨⟨hhandle, hstart⟩, hstop⟩, hattendees⟩ := h
  have htitle := optTextBytes_read a.title
  simp [amendArgsOf, *]

theorem findArgsOf_bytes {a : FindArgs} (h : a.wellFormed = true) :
    findArgsOf (be 1 (a.building.getD 255) ++ be 2 a.seats ++ be 4 a.start ++ be 4 a.stop ++ be 2 a.fromRoom ++
      [if a.combined then 1 else 0]) = a := by
  simp only [FindArgs.wellFormed, Bool.and_eq_true, decide_eq_true_eq] at h
  obtain ⟨⟨⟨⟨hbuilding, hseats⟩, hstart⟩, hstop⟩, hfrom⟩ := h
  obtain ⟨building, seats, start, stop, fromRoom, combined⟩ := a
  have hflag : ((if combined = true then 1#8 else 0#8) != 0#8) = combined := by cases combined <;> rfl
  cases building with
  | none => simp [findArgsOf, *]
  | some n =>
    have hn : n < 255 := fitsIn_iff.mp hbuilding n rfl
    have hbyte : n < 256 := Nat.lt_succ_of_lt hn
    have hany : BitVec.ofNat 8 n ≠ 255#8 := by
      intro h
      simpa [Nat.mod_eq_of_lt hbyte, hn.ne] using congrArg BitVec.toNat h
    simp [findArgsOf, *]

theorem amendOrderArgsOf_bytes {a : AmendOrderArgs} (h : a.wellFormed = true) :
    amendOrderArgsOf (handleBytes a.handle ++ optBytes 2 a.headcount ++ optBytes 1 a.menuClass ++
      optBytes 4 a.delivery) = a := by
  simp only [AmendOrderArgs.wellFormed, Bool.and_eq_true] at h
  obtain ⟨⟨⟨hhandle, hheadcount⟩, hclass⟩, hdelivery⟩ := h
  simp [amendOrderArgsOf, *]

theorem vector4_eq {α : Type} (v : Vector α 4) : #v[v[0], v[1], v[2], v[3]] = v := by
  ext i hi; interval_cases i <;> rfl

theorem vector8_eq {α : Type} (v : Vector α 8) : #v[v[0], v[1], v[2], v[3], v[4], v[5], v[6], v[7]] = v := by
  ext i hi; interval_cases i <;> rfl

theorem vector18_eq {α : Type} (v : Vector α 18) :
    #v[v[0], v[1], v[2], v[3], v[4], v[5], v[6], v[7], v[8], v[9], v[10], v[11], v[12], v[13], v[14], v[15], v[16],
      v[17]] = v := by
  ext i hi; interval_cases i <;> rfl

theorem byteAt_toList {n i : Nat} (v : Vector Byte n) (hi : i < n) : byteAt v.toList i = v[i] := by
  simp [byteAt, hi]

@[simp] theorem writeRoomArgsBytes_length (a : WriteRoomArgs) : (writeRoomArgsBytes a).length = 38 := by
  simp [writeRoomArgsBytes, List.length_flatMap]

theorem writeRoomArgsOf_bytes {a : WriteRoomArgs} (h : a.wellFormed = true) :
    writeRoomArgsOf (writeRoomArgsBytes a) = a := by
  simp only [WriteRoomArgs.wellFormed, Bool.and_eq_true, decide_eq_true_eq, List.all_eq_true] at h
  obtain ⟨⟨⟨⟨⟨⟨⟨⟨⟨hroom, hbuilding⟩, hseats⟩, hkitchen⟩, hgap⟩, hlead⟩, hgrace⟩, hvacate⟩, hcount⟩, hmembers⟩ := h
  have hmember : ∀ i (hi : i < 4), a.memberFields[i] < 65536 := fun i hi => hmembers _ (by simp)
  have hfields : a.memberFields.toList = [a.memberFields[0], a.memberFields[1], a.memberFields[2], a.memberFields[3]] :=
    congrArg Vector.toList (vector4_eq a.memberFields).symm
  simp [writeRoomArgsOf, writeRoomArgsBytes, vector4_eq, *]

/-! ## Every command (R186) -/

theorem form_length {p : List Byte} {n : Nat} (h : p.length = n) (c : Instr) : form p n c = .command c := if_pos h

/-- The payload of a well-formed server command is decoded to the command: the fields of the shorter payloads are read
one after another, the groups of the longer ones by their own lemmas. -/
theorem decodeCommand_wire {c : Instr} {w : Byte × Byte × List Byte} (hfit : c.wellFormed = true)
    (hwire : c.wire = some w) : decodeCommand w.1 w.2.1 w.2.2 = .command c := by
  cases c with
  | setClock | readClock | poolStatus | setReserve | setHorizon | clearAll | writeRoomRemove | readRoom | closeAndCancel
  | confirm | cancel | readBooking | lookupAt | listRoom | writeMenuClass | writeKitchen | readKitchen | readWindow
  | order | cancelOrder | readOrder | setLine | restartLine | writeNode | readNode | readNotices | noticeSummary =>
    cases hwire
    simp_all [decodeCommand, form_length, Instr.wellFormed]
  | setRoomService t up r =>
    cases up <;> cases hwire <;> simp_all [decodeCommand, form_length, Instr.wellFormed]
  | setStaffing t k v =>
    cases v <;> cases hwire <;> simp_all [decodeCommand, form_length, Instr.wellFormed, fitsIn_iff]
  | hold t a h =>
    cases hwire
    simp_all [decodeCommand, form_length, Instr.wellFormed, bookArgsOf_bytes]
  | book t a =>
    cases hwire
    simpa [decodeCommand, form_length] using bookArgsOf_bytes_nil hfit
  | writeRoom t a =>
    cases hwire
    have hform : numAt (writeRoomArgsBytes a) 0 1 = 0 := by simp [writeRoomArgsBytes]
    simpa [decodeCommand, form_length, hform] using writeRoomArgsOf_bytes hfit
  | amend t a =>
    cases hwire
    exact (form_length (by cases a.title <;> simp) _).trans
      (congrArg (Judged.command ∘ Instr.amend t) (amendArgsOf_bytes hfit))
  | findRooms t a =>
    cases hwire
    exact (form_length (by simp) _).trans (congrArg (Judged.command ∘ Instr.findRooms t) (findArgsOf_bytes hfit))
  | amendOrder t a =>
    cases hwire
    exact (form_length (by simp) _).trans (congrArg (Judged.command ∘ Instr.amendOrder t) (amendOrderArgsOf_bytes hfit))
  | writeBanks t k b =>
    cases hwire
    simp only [Instr.wellFormed, Bool.and_eq_true, decide_eq_true_eq, List.all_eq_true] at hfit
    obtain ⟨hk, hbanks⟩ := hfit
    have hbank : ∀ i (hi : i < 8), b[i] < 65536 := fun i hi => hbanks _ (by simp)
    have hlist : b.toList = [b[0], b[1], b[2], b[3], b[4], b[5], b[6], b[7]] :=
      congrArg Vector.toList (vector8_eq b).symm
    simp [decodeCommand, form_length, vector8_eq, *]
  | setNoticeMask t m =>
    cases hwire
    simp [decodeCommand, form_length, byteAt_toList, vector18_eq]
  | _ => cases hwire

/-- The length of a payload stands in the two bytes that the frame gives it. -/
theorem wire_length_lt {c : Instr} {w : Byte × Byte × List Byte} (hwire : c.wire = some w) : w.2.2.length < 65536 := by
  cases c with
  | setRoomService t up r => cases up <;> cases hwire <;> simp
  | setStaffing t k v => cases v <;> cases hwire <;> simp
  | amend t a => cases hwire; cases a.title <;> simp
  | _ => cases hwire <;> simp

/-- The judgement of a frame that bears its check: its code and payload decoded (R178). -/
theorem judgeFrame_sealFrame (lead code tag : Byte) {p : List Byte} (hlen : p.length < 65536) :
    judgeFrame (sealFrame lead (code :: tag :: be 2 p.length ++ p)) = decodeCommand code tag p := by
  obtain ⟨high, low, hbe⟩ : ∃ high low, be 2 p.length = [high, low] := ⟨_, _, rfl⟩
  have hof : ofBytes [high, low] = p.length := by
    rw [← hbe, ofBytes_be]
    exact Nat.mod_eq_of_lt hlen
  have hcrc : (crcBytes (code :: tag :: high :: low :: p)).length = 2 := be_length 2 _
  simp [judgeFrame, sealFrame, hbe, hof, hcrc]

theorem judgeFrame_encodeFrame {c : Instr} {bytes : List Byte} (hfit : c.wellFormed = true)
    (henc : encodeFrame c = some bytes) : judgeFrame bytes = .command c := by
  obtain ⟨w, hwire, rfl⟩ := Option.map_eq_some_iff.mp henc
  rw [judgeFrame_sealFrame _ _ _ (wire_length_lt hwire), decodeCommand_wire hfit hwire]

/-- Settles O2: a sealed frame is judged by its payload, and the payload of a well-formed command is read back field by
field. -/
theorem commandFrameRoundTrip : Obligations.CommandFrameRoundTrip := fun _ _ => judgeFrame_encodeFrame

end Sys2Proof

/-! The port around a server command: no owner reads the port, so the owner's event answers what the command's row
answers in IDLE (R177, R179, R180). -/

namespace Sys2Proof.Machine

open Sys2Proof

/-! ## Owners that do not read the port -/

/-- A state with the items of R177 (port state, buffer and READY) taken from another port. -/
@[reducible] def State.withPort (s : State) (p : Port) : State :=
  { s with port := { s.port with state := p.state, buffer := p.buffer, ready := p.ready } }

/-- What an owner does and answers, seen from another port state. -/
def State.atPort (k : State × Answer) (p : Port) : State × Answer := (k.1.withPort p, k.2)

/-- The owner's act neither reads nor changes the port. -/
def PortBlind (act : State → State × Answer) : Prop :=
  ∀ (s : State) (p : Port), act (s.withPort p) = State.atPort (act s) p

theorem gated_portBlind {act : State → State × Answer} (h : PortBlind act) :
    PortBlind fun s => s.gated (act s) := by
  intro s p
  simp only [State.gated, h s p]
  split_ifs <;> rfl

theorem reads_portBlind (st : Status) (payload : Records → Clock → List Byte) :
    PortBlind fun s => (s, .now st (payload s.recs s.clk)) := fun _ _ => rfl

theorem State.setClock_portBlind (v : Nat) : PortBlind (State.setClock v) := by
  intro s p
  unfold State.setClock
  dsimp only [State.withPort]
  split
  · rfl
  · split
    · rfl
    · split_ifs <;> rfl
    · split_ifs <;> rfl

theorem State.setReserve_portBlind (floor : Nat) : PortBlind (State.setReserve floor) := by
  intro s p
  unfold State.setReserve
  split <;> rfl

theorem State.setHorizon_portBlind (days : Nat) : PortBlind (State.setHorizon days) := by
  intro s p
  unfold State.setHorizon
  split <;> rfl

theorem State.clearAll_portBlind : PortBlind (State.clearAll) := by
  intro s p
  unfold State.clearAll
  dsimp only [State.withPort]
  split <;> rfl

theorem State.writeRoom_portBlind (a : WriteRoomArgs) : PortBlind (State.writeRoom a) := by
  intro s p
  unfold State.writeRoom
  dsimp only [State.withPort]
  split <;> rfl

theorem State.writeRoomRemove_portBlind (room : Nat) : PortBlind (State.writeRoomRemove room) := by
  intro s p
  unfold State.writeRoomRemove
  dsimp only [State.withPort]
  split
  · rfl
  · split
    · rfl
    · split_ifs
      · rfl
      · split <;> rfl

theorem State.readRoom_portBlind (room : Nat) : PortBlind (State.readRoom room) := by
  intro s p
  unfold State.readRoom
  split <;> rfl

theorem State.setRoomService_portBlind (up : Bool) (room : Nat) : PortBlind (State.setRoomService up room) := by
  intro s p
  unfold State.setRoomService
  dsimp only [State.withPort]
  split <;> rfl

theorem State.closeAndCancel_portBlind (room : Nat) : PortBlind (State.closeAndCancel room) := by
  intro s p
  unfold State.closeAndCancel
  dsimp only [State.withPort]
  split_ifs
  · rfl
  · split <;> rfl

theorem State.makeBooking_portBlind (k : Booking) : PortBlind (State.makeBooking · k) := by
  intro s p
  unfold State.makeBooking
  dsimp only [State.withPort]
  split
  · rfl
  · split <;> rfl

theorem State.bookOrHold_portBlind (a : BookArgs) (holdTime : Option Nat) :
    PortBlind (State.bookOrHold a holdTime) := by
  refine gated_portBlind fun s p => ?_
  have hjudge : (s.withPort p).judgeBook a holdTime = s.judgeBook a holdTime := rfl
  simp only [hjudge]
  split
  · rfl
  · exact State.makeBooking_portBlind _ s p

theorem State.confirm_portBlind (h : Handle) (cls : Option Nat) : PortBlind (State.confirm h cls) := by
  refine gated_portBlind fun s p => ?_
  dsimp only [State.withPort]
  split
  · rfl
  · split <;> rfl

theorem State.amendTo_portBlind (b : Records) (sl : SlotNo) (k k' : Booking) :
    PortBlind fun s => s.amendTo b sl k k' := by
  intro s p
  unfold State.amendTo
  dsimp only
  generalize (if k'.start ≠ k.start ∨ k'.stop ≠ k.stop then _ else _ : Option Obstacle) = found
  cases found <;> rfl

theorem State.amend_portBlind (a : AmendArgs) : PortBlind (State.amend a) := by
  refine gated_portBlind fun s p => ?_
  have hjudge : ∀ b k k', (s.withPort p).judgeAmend b a k k' = s.judgeAmend b a k k' := fun _ _ _ => rfl
  simp only [hjudge]
  split
  · rfl
  · split
    · rfl
    · exact State.amendTo_portBlind _ _ _ _ s p

theorem State.cancel_portBlind (h : Handle) : PortBlind (State.cancel h) := by
  refine gated_portBlind fun s p => ?_
  dsimp only [State.withPort]
  split <;> rfl

theorem State.readBooking_portBlind (h : Handle) : PortBlind (State.readBooking h) := by
  intro s p
  unfold State.readBooking
  dsimp only [State.withPort]
  split_ifs
  · split
    · rfl
    · split
      · rfl
      · split_ifs <;> rfl
  · rfl

theorem State.lookupAt_portBlind (room minute : Nat) : PortBlind (State.lookupAt room minute) := by
  intro s p
  unfold State.lookupAt
  dsimp only [State.withPort]
  split_ifs
  · split <;> rfl
  · split <;> rfl
  · rfl

theorem State.listRoom_portBlind (room count : Nat) (after : Option Nat) :
    PortBlind (State.listRoom room count after) := by
  intro s p
  unfold State.listRoom
  dsimp only [State.withPort]
  split_ifs
  · split
    · rfl
    · split <;> rfl
  · rfl

theorem State.findRooms_portBlind (a : FindArgs) : PortBlind (State.findRooms a) := by
  refine gated_portBlind fun s p => ?_
  have hjudge : (s.withPort p).judgeFind a = s.judgeFind a := rfl
  simp only [hjudge]
  split <;> rfl

theorem State.writeMenuClass_portBlind (cls weight setup lead : Nat) :
    PortBlind (State.writeMenuClass cls weight setup lead) := by
  intro s p
  unfold State.writeMenuClass
  split
  · rfl
  · split_ifs <;> rfl

theorem State.writeBanks_portBlind (kitchen : Nat) (banks : Vector Nat 8) :
    PortBlind (State.writeBanks kitchen banks) := by
  intro s p
  unfold State.writeBanks
  dsimp only [State.withPort]
  split
  · rfl
  · split_ifs <;> rfl

theorem State.writeKitchen_portBlind (kitchen opens closes fallback : Nat) :
    PortBlind (State.writeKitchen kitchen opens closes fallback) := by
  intro s p
  unfold State.writeKitchen
  dsimp only [State.withPort]
  split
  · rfl
  · split
    · rfl
    · split_ifs <;> rfl

theorem State.setStaffing_portBlind (kitchen : Nat) (level : Option Nat) :
    PortBlind (State.setStaffing kitchen level) := by
  intro s p
  unfold State.setStaffing
  dsimp only [State.withPort]
  split
  · rfl
  · split <;> rfl

theorem State.readKitchen_portBlind (kitchen : Nat) : PortBlind (State.readKitchen kitchen) := by
  intro s p
  unfold State.readKitchen
  split <;> rfl

theorem State.readWindow_portBlind (kitchen window : Nat) : PortBlind (State.readWindow kitchen window) := by
  intro s p
  unfold State.readWindow
  dsimp only [State.withPort]
  split
  · rfl
  · split_ifs <;> rfl

theorem State.order_portBlind (h : Handle) (menuClass headcount delivery : Nat) :
    PortBlind (State.order h menuClass headcount delivery) := by
  refine gated_portBlind fun s p => ?_
  have hjudge : ∀ b k, (s.withPort p).judgeOrder b h k menuClass headcount delivery =
      s.judgeOrder b h k menuClass headcount delivery := fun _ _ => rfl
  simp only [hjudge]
  split
  · rfl
  · split
    · rfl
    · split <;> rfl

theorem State.amendOrder_portBlind (a : AmendOrderArgs) : PortBlind (State.amendOrder a) := by
  refine gated_portBlind fun s p => ?_
  have hjudge : ∀ b o k, (s.withPort p).judgeAmendOrder b a o k = s.judgeAmendOrder b a o k := fun _ _ _ => rfl
  simp only [hjudge]
  split
  · rfl
  · split
    · rfl
    · split
      · rfl
      · split <;> rfl

theorem State.cancelOrder_portBlind (h : Handle) : PortBlind (State.cancelOrder h) := by
  refine gated_portBlind fun s p => ?_
  dsimp only [State.withPort]
  split <;> rfl

theorem State.readOrder_portBlind (h : Handle) : PortBlind (State.readOrder h) := by
  intro s p
  unfold State.readOrder
  dsimp only [State.withPort]
  split_ifs
  · split
    · rfl
    · split <;> rfl
  · rfl

theorem State.enterLine_withPort (s : State) (p : Port) (l : LineNo) (run : Bool) :
    (s.withPort p).enterLine l run = (s.enterLine l run).withPort p := by
  unfold State.enterLine
  dsimp only [State.withPort]
  split <;> rfl

theorem State.setLineTo_portBlind (line state timeout refresh : Nat) :
    PortBlind (State.setLineTo line state timeout refresh) := by
  intro s p
  unfold State.setLineTo
  split
  · rfl
  · split_ifs
    · exact congrArg (fun t : State => (t, Answer.now .ok (t.recs.line _).payload))
        (State.enterLine_withPort (s.setLine _ _) p _ _)
    · rfl

theorem State.restartLine_portBlind (line : Nat) : PortBlind (State.restartLine line) := by
  intro s p
  unfold State.restartLine
  split <;> rfl

theorem State.writeNode_portBlind (line node kind target : Nat) :
    PortBlind (State.writeNode line node kind target) := by
  intro s p
  unfold State.writeNode
  dsimp only [State.withPort]
  split
  · rfl
  · split <;> rfl

theorem State.readNode_portBlind (line node : Nat) : PortBlind (State.readNode line node) := by
  intro s p
  unfold State.readNode
  split <;> rfl

theorem State.readNotices_portBlind (indicator number : Nat) : PortBlind (State.readNotices indicator number) := by
  intro s p
  unfold State.readNotices
  split <;> rfl

theorem State.setNoticeMask_portBlind (masks : Vector Byte 18) : PortBlind (State.setNoticeMask masks) := by
  intro s p
  unfold State.setNoticeMask
  split <;> rfl

/-! ## Every server command -/

/-- A server command is served by an owner that does not read the port (R177, R179). -/
theorem exec_serves {c : Instr} (h : c.wire.isSome = true) :
    ∃ act : State → State × Answer, PortBlind act ∧ ∀ s, exec c s = s.serve c act := by
  cases c with
  | setClock tag v => exact ⟨_, State.setClock_portBlind v, fun _ => rfl⟩
  | setReserve tag floor => exact ⟨_, State.setReserve_portBlind floor, fun _ => rfl⟩
  | setHorizon tag days => exact ⟨_, State.setHorizon_portBlind days, fun _ => rfl⟩
  | clearAll tag => exact ⟨_, State.clearAll_portBlind, fun _ => rfl⟩
  | writeRoom tag a => exact ⟨_, State.writeRoom_portBlind a, fun _ => rfl⟩
  | writeRoomRemove tag room => exact ⟨_, State.writeRoomRemove_portBlind room, fun _ => rfl⟩
  | readRoom tag room => exact ⟨_, State.readRoom_portBlind room, fun _ => rfl⟩
  | setRoomService tag up room => exact ⟨_, State.setRoomService_portBlind up room, fun _ => rfl⟩
  | closeAndCancel tag room => exact ⟨_, State.closeAndCancel_portBlind room, fun _ => rfl⟩
  | hold tag a t => exact ⟨_, State.bookOrHold_portBlind a (some t), fun _ => rfl⟩
  | book tag a => exact ⟨_, State.bookOrHold_portBlind a none, fun _ => rfl⟩
  | confirm tag g cls => exact ⟨_, State.confirm_portBlind g cls, fun _ => rfl⟩
  | amend tag a => exact ⟨_, State.amend_portBlind a, fun _ => rfl⟩
  | cancel tag g => exact ⟨_, State.cancel_portBlind g, fun _ => rfl⟩
  | readBooking tag g => exact ⟨_, State.readBooking_portBlind g, fun _ => rfl⟩
  | lookupAt tag room m => exact ⟨_, State.lookupAt_portBlind room m, fun _ => rfl⟩
  | listRoom tag room n a => exact ⟨_, State.listRoom_portBlind room n a, fun _ => rfl⟩
  | findRooms tag a => exact ⟨_, State.findRooms_portBlind a, fun _ => rfl⟩
  | writeMenuClass tag c w u l => exact ⟨_, State.writeMenuClass_portBlind c w u l, fun _ => rfl⟩
  | writeBanks tag k b => exact ⟨_, State.writeBanks_portBlind k b, fun _ => rfl⟩
  | writeKitchen tag k o c f => exact ⟨_, State.writeKitchen_portBlind k o c f, fun _ => rfl⟩
  | setStaffing tag k v => exact ⟨_, State.setStaffing_portBlind k v, fun _ => rfl⟩
  | readKitchen tag k => exact ⟨_, State.readKitchen_portBlind k, fun _ => rfl⟩
  | readWindow tag k w => exact ⟨_, State.readWindow_portBlind k w, fun _ => rfl⟩
  | order tag g m n d => exact ⟨_, State.order_portBlind g m n d, fun _ => rfl⟩
  | amendOrder tag a => exact ⟨_, State.amendOrder_portBlind a, fun _ => rfl⟩
  | cancelOrder tag g => exact ⟨_, State.cancelOrder_portBlind g, fun _ => rfl⟩
  | readOrder tag g => exact ⟨_, State.readOrder_portBlind g, fun _ => rfl⟩
  | setLine tag l st m r => exact ⟨_, State.setLineTo_portBlind l st m r, fun _ => rfl⟩
  | restartLine tag l => exact ⟨_, State.restartLine_portBlind l, fun _ => rfl⟩
  | writeNode tag l n k g => exact ⟨_, State.writeNode_portBlind l n k g, fun _ => rfl⟩
  | readNode tag l n => exact ⟨_, State.readNode_portBlind l n, fun _ => rfl⟩
  | readNotices tag i n => exact ⟨_, State.readNotices_portBlind i n, fun _ => rfl⟩
  | setNoticeMask tag m => exact ⟨_, State.setNoticeMask_portBlind m, fun _ => rfl⟩
  | readClock tag => exact ⟨_, reads_portBlind .ok fun _ c => c.readPayload, fun _ => rfl⟩
  | poolStatus tag => exact ⟨_, reads_portBlind .ok fun b _ => b.poolPayload, fun _ => rfl⟩
  | noticeSummary tag => exact ⟨_, reads_portBlind .ok fun b _ => b.notices.summary, fun _ => rfl⟩
  | _ => cases h

/-- An owner leaves port state, buffer and READY as they are. -/
theorem PortBlind.port {act : State → State × Answer} (h : PortBlind act) (s : State) :
    (act s).1.port.state = s.port.state ∧ (act s).1.port.buffer = s.port.buffer ∧
      (act s).1.port.ready = s.port.ready := by
  have hself : (act s).1 = (act s).1.withPort s.port := congrArg Prod.fst (h s s.port)
  rw [hself]
  exact ⟨rfl, rfl, rfl⟩

/-- A command that a command write has handed on is taken as its row takes it in IDLE, and the response or the state
EXECUTING that follows covers what the write left at the port (R177; log entry 6). -/
theorem State.serve_handed {s : State} {c : Instr} {act : State → State × Answer} (hact : PortBlind act)
    (hidle : s.port.state = .idle) :
    State.serve { s with port := { s.port with state := .executing c false } } c act = s.serve c act := by
  have hstate : ({ s with port := { s.port with state := .executing c false } } : State) =
      s.withPort { s.port with state := .executing c false } := rfl
  have htakes : Port.takes { s.port with state := .executing c false } c = true := by simp [Port.takes]
  have htakesIdle : s.port.takes c = true := by simp [Port.takes, hidle]
  have hplain : act s = State.atPort (act s) s.port := hact s s.port
  rw [hstate, State.serve, State.serve, if_pos htakes, if_pos htakesIdle, hact, hplain]
  rcases act s with ⟨s', st, p | _⟩ <;> rfl

/-- A server command on a port that is neither IDLE nor holding it for its owner is discarded (R180; log entry 6). -/
theorem Port.takes_eq_false {p : Port} {c : Instr} (hidle : p.state ≠ .idle) (hheld : p.state ≠ .executing c false) :
    p.takes c = false := by
  unfold Port.takes
  split
  · contradiction
  · rename_i x taken hx
    cases taken
    · simpa [hx] using hheld
    · simp
  · rfl

theorem exec_discarded {s : State} {c : Instr} (hc : c.wire.isSome = true) (hidle : s.port.state ≠ .idle)
    (hheld : s.port.state ≠ .executing c false) :
    exec c s = .next { s with port := { s.port with overrun := true } } := by
  obtain ⟨act, -, hexec⟩ := exec_serves hc
  rw [hexec, State.serve_busy (Port.takes_eq_false hidle hheld)]

/-! ## A command write -/

theorem State.commandWrite_idle {s : State} (hidle : s.port.state = .idle) (bytes : List Byte) :
    s.commandWrite bytes = s.judgeWrite bytes := by
  simp only [State.commandWrite, hidle]

theorem State.commandWrite_busy {s : State} (hidle : s.port.state ≠ .idle) (bytes : List Byte) :
    s.commandWrite bytes = { s with port := { s.port with overrun := true } } := by
  unfold State.commandWrite
  split
  · contradiction
  · rfl
  · rfl

/-- A transaction that begins with the command marker is a command write (R177). -/
theorem State.transact_marker (s : State) (rest : List Byte) :
    s.transact (165 :: rest) = s.commandWrite (165 :: rest) := rfl

theorem encodeFrame_eq_some {c : Instr} {bytes : List Byte} (h : encodeFrame c = some bytes) :
    c.wire.isSome = true ∧ ∃ rest, bytes = 165 :: rest := by
  obtain ⟨w, hwire, rfl⟩ := Option.map_eq_some_iff.mp h
  exact ⟨by rw [hwire]; rfl, _, rfl⟩

/-- Settles O3: the frame is judged to be its command, and no owner sees that the port has handed it on. -/
theorem writtenCommandReachesOwner : Obligations.WrittenCommandReachesOwner := by
  intro c bytes s hfit henc hidle
  obtain ⟨hserver, rest, rfl⟩ := encodeFrame_eq_some henc
  obtain ⟨act, hblind, hexec⟩ := exec_serves hserver
  constructor
  · have hjudged := judgeFrame_encodeFrame hfit henc
    simp only [exec, execCommandWrite, State.transact_marker, State.commandWrite_idle hidle, State.judgeWrite, hjudged]
  · rw [hexec, hexec, State.serve_handed hblind hidle]

end Sys2Proof.Machine

/-! The judgement of a command frame by its faults, in the order of R178. -/

namespace Sys2Proof

/-! ## Codes and payload lengths (R178) -/

/-- A frame of at least five bytes is judged by its length and check, then by its code and payload. -/
theorem judgeFrame_cons (lead code tag high low : Byte) (rest : List Byte) :
    judgeFrame (lead :: code :: tag :: high :: low :: rest) =
      if rest.length = high.toNat * 256 + low.toNat + 2 ∧ rest.drop (high.toNat * 256 + low.toNat) =
          crcBytes (code :: tag :: high :: low :: rest.take (high.toNat * 256 + low.toNat)) then
        decodeCommand code tag (rest.take (high.toNat * 256 + low.toNat))
      else .badFrame := by
  simp only [judgeFrame, Machine.ofBytes_pair]

theorem form_eq_badFrame {p : List Byte} {n : Nat} (h : p.length ≠ n) (i : Instr) : form p n i = .badFrame := if_neg h

theorem decodeCommand_unknown {code : Byte} (tag : Byte) (p : List Byte)
    (h : code.toNat ∉ [1, 2, 16, 17, 18, 19, 32, 33, 34, 48, 49, 50, 51, 52, 53, 64, 65, 66, 80, 81, 82, 83, 84, 85, 96,
      97, 98, 99, 112, 113, 114, 115, 128, 129, 130]) : decodeCommand code tag p = .badCommand := by
  unfold decodeCommand
  split
  pick_goal -1
  · rfl
  all_goals
    rename_i hcode
    exact absurd (by simp [hcode]) h

/-- The codes whose payload has one length, with that length (R186). -/
def fixedForms : List (Nat × Nat) :=
  [(1, 4), (2, 0), (16, 0), (17, 2), (18, 1), (19, 0), (33, 2), (48, 34), (49, 33), (50, 6), (51, 34), (52, 4),
    (53, 4), (64, 6), (65, 8), (66, 14), (80, 4), (81, 17), (82, 6), (83, 3), (84, 1), (85, 4), (96, 11), (97, 14),
    (98, 4), (99, 4), (112, 4), (113, 1), (114, 5), (115, 2), (128, 3), (129, 18), (130, 0)]

theorem decodeCommand_fixedForm {code : Byte} (tag : Byte) (p : List Byte) {q : Nat × Nat} (hq : q ∈ fixedForms)
    (hcode : code.toNat = q.1) : ∃ i, decodeCommand code tag p = form p q.2 i := by
  fin_cases hq <;> exact ⟨_, by simp only [decodeCommand, hcode]; rfl⟩

/-- The first byte of a payload chooses the form of WRITE_ROOM and of SET_ROOM_SERVICE (R186). -/
theorem numAt_head_eq {b : Byte} {p : List Byte} {n : Nat} (hn : n < 256) :
    numAt (b :: p) 0 1 = n ↔ (b :: p).head? = some (BitVec.ofNat 8 n) := by
  have hnum : numAt (b :: p) 0 1 = b.toNat := by simp [numAt, ofBytes]
  rw [hnum, List.head?_cons, Option.some_inj, BitVec.toNat_eq, BitVec.toNat_ofNat, Nat.mod_eq_of_lt hn]

/-- WRITE_ROOM in neither of its two forms (R33, R37, R186). -/
theorem decodeCommand_writeRoom_badFrame (tag : Byte) {p : List Byte} (h0 : p.length ≠ 38 ∨ p.head? ≠ some 0)
    (h1 : p.length ≠ 3 ∨ p.head? ≠ some 1) : decodeCommand 32 tag p = .badFrame := by
  cases p with
  | nil => rfl
  | cons b p =>
    have hcode : (32 : Byte).toNat = 32 := rfl
    simp only [decodeCommand, hcode]
    split <;> rename_i hfirst
    · exact form_eq_badFrame (h0.resolve_right (not_not.mpr ((numAt_head_eq (by decide)).mp hfirst))) _
    · exact form_eq_badFrame (h1.resolve_right (not_not.mpr ((numAt_head_eq (by decide)).mp hfirst))) _
    · rfl

/-- SET_ROOM_SERVICE in none of its three forms (R43, R186). -/
theorem decodeCommand_setRoomService_badFrame (tag : Byte) {p : List Byte}
    (h : p.length ≠ 3 ∨ (p.head? ≠ some 0 ∧ p.head? ≠ some 1 ∧ p.head? ≠ some 2)) :
    decodeCommand 34 tag p = .badFrame := by
  cases p with
  | nil => rfl
  | cons b p =>
    have hcode : (34 : Byte).toNat = 34 := rfl
    simp only [decodeCommand, hcode]
    split <;> rename_i hfirst
    · exact form_eq_badFrame (h.resolve_right fun h => h.1 ((numAt_head_eq (by decide)).mp hfirst)) _
    · exact form_eq_badFrame (h.resolve_right fun h => h.2.1 ((numAt_head_eq (by decide)).mp hfirst)) _
    · exact form_eq_badFrame (h.resolve_right fun h => h.2.2 ((numAt_head_eq (by decide)).mp hfirst)) _
    · rfl

end Sys2Proof

namespace Sys2Proof.Machine

open Sys2Proof

/-- A frame in IDLE whose judgement is a refusal is answered at once with the code and tag received (R178). -/
theorem exec_commandWrite_rejected {s : State} (hidle : s.port.state = .idle) (code tag high low : Byte)
    (rest : List Byte) {st : Status}
    (h : judgeFrame (165 :: code :: tag :: high :: low :: rest) = .badFrame ∧ st = .badFrame ∨
      judgeFrame (165 :: code :: tag :: high :: low :: rest) = .badCommand ∧ st = .badCommand) :
    exec (.commandWrite (165 :: code :: tag :: high :: low :: rest)) s =
      .next { s.respond code tag st [] with freeDraws := s.freeDraws + 3 } := by
  rcases h with ⟨h, rfl⟩ | ⟨h, rfl⟩ <;>
  · simp only [exec, execCommandWrite, State.transact_marker, State.commandWrite_idle hidle, State.judgeWrite, h]
    rfl

/-- Settles O4: the judgement case by case, by length and check, then code, then the length of the command's form. -/
theorem failedFrameAnsweredAtOnce : Obligations.FailedFrameAnsweredAtOnce := by
  intro s code tag high low rest hidle len good rejected
  have hjudge : judgeFrame (165 :: code :: tag :: high :: low :: rest) =
      if good then decodeCommand code tag (rest.take len) else .badFrame := judgeFrame_cons ..
  have hbad : judgeFrame (165 :: code :: tag :: high :: low :: rest) = .badFrame → rejected .badFrame := fun h =>
    exec_commandWrite_rejected hidle _ _ _ _ _ (.inl ⟨h, rfl⟩)
  refine ⟨fun h => hbad (hjudge.trans (if_neg h)), fun h => ?_⟩
  rw [if_pos h] at hjudge
  obtain ⟨hlen, -⟩ := h
  have hpayload : (rest.take len).length = len := by simp [hlen]
  have hhead : ∀ b, (rest.take len).head? = some b → rest.head? = some b := by
    intro b hb
    rw [List.head?_take] at hb
    split at hb
    · cases hb
    · exact hb
  refine ⟨fun hcode => ?_, fun q hq hcode hne => hbad ?_, fun hcode h0 h1 => hbad ?_, fun hcode hform => hbad ?_⟩
  · exact exec_commandWrite_rejected hidle _ _ _ _ _ (.inr ⟨hjudge.trans (decodeCommand_unknown tag _ hcode), rfl⟩)
  · obtain ⟨i, hform⟩ := decodeCommand_fixedForm tag (rest.take len) hq hcode
    rw [hjudge, hform, form_eq_badFrame (by rwa [hpayload])]
  · subst hcode
    rw [hjudge, decodeCommand_writeRoom_badFrame tag (h0.imp hpayload.trans_ne (mt (hhead 0)))
      (h1.imp hpayload.trans_ne (mt (hhead 1)))]
  · subst hcode
    rw [hjudge, decodeCommand_setRoomService_badFrame tag (hform.imp hpayload.trans_ne
      fun ⟨h0, h1, h2⟩ => ⟨mt (hhead 0) h0, mt (hhead 1) h1, mt (hhead 2) h2⟩)]

/-! ## Read-outs (R177, R180) -/

theorem State.outgoing_response {s : State} {r : Response} (hready : s.port.state = .answerReady)
    (hbuffer : s.port.buffer = some r) :
    s.outgoing = responseFrame r.code r.tag r.status.code s.headerFlags r.payload := by
  simp only [State.outgoing, hready, hbuffer]

/-- Outside ANSWER_READY a filler is sent. -/
theorem State.outgoing_filler {s : State} (hready : s.port.state ≠ .answerReady) :
    s.outgoing = responseFrame 0 0 0 s.headerFlags [] := by
  unfold State.outgoing
  split
  · contradiction
  · contradiction
  · rfl
  · rfl

section ReadOut

variable {s : State} {n : Nat} (lost : Bool)

/-- A read-out that clocks every byte of the response empties the buffer and leaves the port IDLE. -/
theorem State.readOut_complete (hready : s.port.state = .answerReady) (hn : 0 < n) (hlen : s.outgoing.length ≤ n) :
    s.readOut { clocked := n, discarded := lost } =
      { s with port :=
        { s.port with state := .idle, buffer := none, ready := false, overrun := lost, miso := s.outgoing } } := by
  simp only [State.readOut, hn.ne', if_false, hready, if_pos hlen, List.take_of_length_le hlen, Port.readComplete]

/-- A shorter read-out of the response clears nothing. -/
theorem State.readOut_short (hready : s.port.state = .answerReady) (hn : 0 < n) (hlen : n < s.outgoing.length) :
    s.readOut { clocked := n, discarded := lost } =
      { s with port := { s.port with miso := s.outgoing.take n, overrun := s.port.overrun || lost } } := by
  simp only [State.readOut, hn.ne', if_false, hready, if_neg (Nat.not_le.mpr hlen)]

/-- A read-out of a filler clears nothing; in IDLE no frame is discarded meanwhile. -/
theorem State.readOut_filler (hready : s.port.state ≠ .answerReady) (hn : 0 < n) :
    s.readOut { clocked := n, discarded := lost } =
      { s with port := { s.port with
        miso := s.outgoing.take n
        overrun := s.port.overrun || (lost && decide (s.port.state ≠ .idle)) } } := by
  cases hstate : s.port.state with
  | answerReady => contradiction
  | idle => simp [State.readOut, hn.ne', hstate]
  | executing c taken => simp [State.readOut, hn.ne', hstate]

end ReadOut

/-- A transaction that begins with neither marker is ignored (R177). -/
theorem State.transact_ignored (s : State) {first : Byte} (rest : List Byte) (hwrite : first ≠ 165)
    (hread : first ≠ 60) : s.transact (first :: rest) = s := by
  simp only [State.transact, if_neg hwrite, if_neg hread]

/-- Settles O5: a command that meets a busy port by the port state, a read-out by the frame it sends and the bytes it
clocks. -/
theorem portTransactionsByState : Obligations.PortTransactionsByState := by
  intro s discarded flags
  refine ⟨fun hbusy => ⟨fun rest => ?_, fun rest => ?_, fun c hc hheld => exec_discarded hc hbusy hheld⟩,
    fun n lost r hn hready hbuffer => ?_, fun n lost hn hready => ?_, fun first rest hwrite hread => ?_⟩
  · exact congrArg Host.Outcome.next (State.commandWrite_busy hbusy _)
  · exact congrArg Host.Outcome.next (State.commandWrite_busy hbusy _)
  · intro frame
    have hframe : s.outgoing = frame := State.outgoing_response hready hbuffer
    rw [← hframe]
    exact ⟨fun hlen => congrArg Host.Outcome.next (State.readOut_complete lost hready hn hlen),
      fun hlen => congrArg Host.Outcome.next (State.readOut_short lost hready hn hlen)⟩
  · have hframe : s.outgoing = sealFrame 90 [0, 0, 0, flags, 0, 0] := State.outgoing_filler hready
    rw [← hframe]
    exact congrArg Host.Outcome.next (State.readOut_filler lost hready hn)
  · exact congrArg Host.Outcome.next (s.transact_ignored rest hwrite hread)

end Sys2Proof.Machine

/-! READY and the buffer follow the port state through every step (R177). -/

namespace Sys2Proof.Machine

open Sys2Proof

/-! ## The port states and what they hold -/

namespace Port.Lawful

variable {p q : Port} (h : p.Lawful)
include h

/-- The law of R177 speaks of state, buffer and READY alone. -/
theorem of_same (hstate : q.state = p.state) (hbuffer : q.buffer = p.buffer) (hready : q.ready = p.ready) :
    q.Lawful := by
  unfold Port.Lawful
  rw [hstate, hbuffer, hready]
  exact h

/-- A port that holds no response may go to EXECUTING: READY is low and the buffer is empty before and after. -/
theorem executing (hstate : p.state ≠ .answerReady) (c : Instr) (taken : Bool) :
    ({ p with state := .executing c taken } : Port).Lawful := by
  obtain ⟨hready, hbuffer⟩ := h
  exact ⟨by simpa [hstate] using hready, by simpa [hstate] using hbuffer⟩

end Port.Lawful

theorem State.respond_lawful (s : State) (c t : Byte) (st : Status) (p : List Byte) :
    (s.respond c t st p).port.Lawful := by simp [Port.Lawful]

/-- A port that takes a command holds no response. -/
theorem Port.not_answerReady_of_takes {p : Port} {c : Instr} (h : p.takes c = true) : p.state ≠ .answerReady := by
  intro hstate
  simp [Port.takes, hstate] at h

section Acts

variable {s : State} (h : s.port.Lawful)
include h

/-- A server command whose owner does not read the port: discarded, answered, or left EXECUTING. -/
theorem State.serve_portLawful {t : State} {c : Instr} {act : State → State × Answer} (hact : PortBlind act)
    (hexec : s.serve c act = .next t) : t.port.Lawful := by
  obtain ⟨hstate, hbuffer, hready⟩ := hact.port s
  rcases State.serve_cases hexec with rfl | ⟨htakes, ⟨_, _, _, _, rfl⟩ | ⟨-, rfl⟩⟩
  · exact h.of_same rfl rfl rfl
  · exact State.respond_lawful ..
  · refine (h.of_same hstate hbuffer hready).executing ?_ c true
    rw [hstate]
    exact Port.not_answerReady_of_takes htakes

theorem State.finish_portLawful (st : Status) (p : List Byte) : (s.finish st p).port.Lawful := by
  unfold State.finish
  split
  · exact State.respond_lawful ..
  · exact h
  · exact h

theorem State.scanOn_portLawful (x : Scan) : (s.scanOn x).port.Lawful := by
  unfold State.scanOn
  split
  · split
    · exact h
    · exact State.finish_portLawful (s := { s with scan := none }) h _ _
  · exact State.finish_portLawful (s := { s with scan := none }) h _ _

theorem State.commandWrite_portLawful (bytes : List Byte) : (s.commandWrite bytes).port.Lawful := by
  by_cases hidle : s.port.state = .idle
  · rw [State.commandWrite_idle hidle]
    unfold State.judgeWrite
    split
    · exact State.respond_lawful ..
    · exact State.respond_lawful ..
    · exact h.executing (by rw [hidle]; exact nofun) _ _
  · rw [State.commandWrite_busy hidle]
    exact h.of_same rfl rfl rfl

theorem State.readOut_portLawful (a : ReadOutArgs) : (s.readOut a).port.Lawful := by
  unfold State.readOut
  split
  · exact h
  · dsimp only
    split
    · split
      · simp [Port.Lawful, Port.readComplete]
      · exact h.of_same rfl rfl rfl
    · exact h.of_same rfl rfl rfl
    · exact h.of_same rfl rfl rfl

theorem State.transact_portLawful (bytes : List Byte) : (s.transact bytes).port.Lawful := by
  unfold State.transact
  split
  · exact h
  · split
    · exact State.commandWrite_portLawful h _
    · split
      · exact State.readOut_portLawful h _
      · exact h

end Acts

/-! ## The events that leave the port -/

theorem State.lineFrame_port (s : State) (l : LineNo) (frame : List Byte) : (s.lineFrame l frame).port = s.port := by
  unfold State.lineFrame
  split
  · rfl
  · dsimp only
    split <;> rfl

theorem State.takePanel_port {s t : State} {l : LineNo} {n : NodeNo} {want : PanelItem → Bool}
    {act : State → PanelHandoff → State} (hact : ∀ s x, (act s x).port = s.port)
    (h : s.takePanel l n want act = .next t) : t.port = s.port := by
  unfold State.takePanel at h
  split at h
  · cases h; rfl
  · split at h <;> cases h
    · exact hact _ _
    · rfl

theorem State.takeMotion_port (s : State) (x : PanelHandoff) : (s.takeMotion x).port = s.port := by
  unfold State.takeMotion
  split
  · split <;> rfl
  · rfl
  · rfl

theorem State.takeMotionCheckIn_port (s : State) (x : PanelHandoff) : (s.takeMotionCheckIn x).port = s.port := by
  unfold State.takeMotionCheckIn
  split <;> rfl

theorem State.takeRequest_port (act : Records → Clock → RoomNo → Records × PanelResult) (s : State)
    (x : PanelHandoff) : (State.takeRequest act s x).port = s.port := rfl

/-! ## Every command -/

/-- The part's own steps, and the events of its pins and lines, keep the law: those that leave the port, the two that
end a time-taking command, and the transactions of the port. -/
theorem exec_keeps_port_of_own {i : Instr} {s t : State} (hown : i.wire.isSome = false) (h : s.port.Lawful)
    (hexec : exec i s = .next t) : t.port.Lawful := by
  have hstands : t.port = s.port → t.port.Lawful := fun e => e ▸ h
  cases i with
  | hardReset => cases hexec; exact Port.reset_lawful
  | poolInitComplete => simp only [exec, execPoolInitComplete] at hexec; split at hexec <;> cases hexec <;> exact h
  | elapsedSecond =>
    simp only [exec, execElapsedSecond] at hexec
    split at hexec
    · cases hexec; exact h
    · cases hexec; exact h
    · split at hexec
      · cases hexec; exact h
      · split at hexec <;> cases hexec <;> exact h
  | secondPulse l => simp only [exec, execSecondPulse] at hexec; split at hexec <;> cases hexec <;> exact h
  | bkeMinuteAdvance => simp only [exec, execBkeMinuteAdvance] at hexec; split at hexec <;> cases hexec <;> exact h
  | minuteWalkStep => simp only [exec, execMinuteWalkStep] at hexec; split at hexec <;> cases hexec <;> exact h
  | windowRoll k => simp only [exec, execWindowRoll] at hexec; split at hexec <;> cases hexec <;> exact h
  | sheddingStep k => simp only [exec, execSheddingStep] at hexec; split at hexec <;> cases hexec <;> exact h
  | promotingStep k => simp only [exec, execPromotingStep] at hexec; split at hexec <;> cases hexec <;> exact h
  | closeWalkStep r => simp only [exec, execCloseWalkStep] at hexec; split at hexec <;> cases hexec <;> exact h
  | clearSlotVisit =>
    simp only [exec, execClearSlotVisit] at hexec
    split at hexec
    · cases hexec; exact h
    · cases hexec; exact h
    · split at hexec <;> cases hexec <;> exact h
  | clearAllComplete =>
    simp only [exec, execClearAllComplete] at hexec
    split at hexec
    · cases hexec; exact h
    · cases hexec; exact h
    · split at hexec <;> cases hexec
      · exact h
      · exact State.finish_portLawful (by exact h) _ _
  | findRoomsScanStep =>
    simp only [exec, execFindRoomsScanStep] at hexec
    split at hexec <;> cases hexec
    · exact h
    · exact State.scanOn_portLawful (by exact h) _
  | visitStart l =>
    simp only [exec, execVisitStart] at hexec
    split at hexec
    · split at hexec <;> cases hexec <;> exact h
    · cases hexec; exact h
  | panelAnswer l frame => cases hexec; exact hstands (s.lineFrame_port ..)
  | terminalAnswer l frame => cases hexec; exact hstands (s.lineFrame_port ..)
  | badAnswer l frame => cases hexec; exact hstands (s.lineFrame_port ..)
  | frameDiscarded l frame => cases hexec; exact hstands (s.lineFrame_port ..)
  | visitTimeout l => simp only [exec, execVisitTimeout] at hexec; split at hexec <;> cases hexec <;> exact h
  | motionReport l n => exact hstands (State.takePanel_port State.takeMotion_port hexec)
  | motionCheckIn l n =>
    exact hstands
      (State.takePanel_port (want := fun x => decide (x = .motionCheckIn)) State.takeMotionCheckIn_port hexec)
  | checkIn l n => exact hstands (State.takePanel_port (State.takeRequest_port _) hexec)
  | extend l n => exact hstands (State.takePanel_port (State.takeRequest_port _) hexec)
  | release l n => exact hstands (State.takePanel_port (State.takeRequest_port _) hexec)
  | walkUp l n => exact hstands (State.takePanel_port (State.takeRequest_port _) hexec)
  | requestResult l n => simp only [exec, execRequestResult] at hexec; split at hexec <;> cases hexec <;> exact h
  | terminalReport a => cases hexec; split <;> exact h
  | terminalLoss k => cases hexec; exact h
  | noticeRaise n => cases hexec; exact h
  | commandWrite bytes => cases hexec; exact State.transact_portLawful h _
  | overrun bytes => cases hexec; exact State.transact_portLawful h _
  | readOut a => cases hexec; exact State.readOut_portLawful h _
  | ignoredTransaction bytes => cases hexec; exact State.transact_portLawful h _
  | setRoomService tag up room => cases up <;> cases hown
  | setStaffing tag k level => cases level <;> cases hown
  | _ => cases hown

theorem exec_keeps_port {i : Instr} {s t : State} (h : s.port.Lawful) (hexec : exec i s = .next t) : t.port.Lawful := by
  cases hserver : i.wire.isSome with
  | true =>
    obtain ⟨act, hblind, hserves⟩ := exec_serves hserver
    exact State.serve_portLawful h hblind (hserves s ▸ hexec)
  | false => exact exec_keeps_port_of_own hserver h hexec

/-- Settles O6: a server command by what its owner can answer, every other command by `exec_keeps_port_of_own`. -/
theorem stepKeepsPortLawful : Obligations.StepKeepsPortLawful := by
  intro s t h hstep
  rcases step_exec hstep with rfl | ⟨i, rest, hexec⟩
  · exact h
  · exact exec_keeps_port (s := { s with pending := rest }) h hexec

end Sys2Proof.Machine

/-! The notice sets and the NOTICE line: what raising, reading and masking leave of them (R181 to R183). -/

namespace Sys2Proof.Machine

open Sys2Proof

/-! ## One set (R181; log entry 33) -/

theorem RoomNotice.mem_all (k : RoomNotice) : k ∈ RoomNotice.all := by cases k <;> decide

theorem KitchenNotice.mem_all (k : KitchenNotice) : k ∈ KitchenNotice.all := by cases k <;> decide

theorem PartNotice.mem_all (k : PartNotice) : k ∈ PartNotice.all := by cases k <;> decide

section AddKind

variable {α : Type} [DecidableEq α] {all : List α}

/-- A kind added to its set: the kinds present and that one. -/
theorem mem_addKind_iff {k' : α} (hall : k' ∈ all) (k : α) (set : List α) :
    k' ∈ addKind all k set ↔ k' = k ∨ k' ∈ set := by
  simp [addKind, hall]

/-- A set formed from the table's kinds in their order keeps that order. -/
theorem addKind_ordered {num : α → Fin 18} (hall : (all.map num).Pairwise fun x y => x < y) (k : α) (set : List α) :
    ((addKind all k set).map num).Pairwise fun x y => x < y :=
  hall.sublist (List.filter_sublist.map num)

end AddKind

/-! ## The level of NOTICE (R181) -/

theorem Notices.unmasked_iff (n : Notices) (x : Fin 18) : n.unmasked x = true ↔ n.masks[x.val] = false := by
  simp [Notices.unmasked]

/-- Some set of a table holds an unmasked kind. -/
theorem any_sets_iff {α : Type} {m : Nat} (sets : Vector (List α) m) (p : α → Bool) :
    sets.toList.any (fun l => l.any p) = true ↔ ∃ (i : Fin m) (x : α), x ∈ sets[i.val] ∧ p x = true := by
  simp only [List.any_eq_true, Vector.mem_toList_iff, Vector.mem_iff_getElem]
  constructor
  · rintro ⟨_, ⟨i, hi, rfl⟩, x, hx, hp⟩
    exact ⟨⟨i, hi⟩, x, hx, hp⟩
  · rintro ⟨i, x, hx, hp⟩
    exact ⟨_, ⟨i.val, i.isLt, rfl⟩, x, hx, hp⟩

namespace Notices

/-- NOTICE formed afresh obeys its law (R181). -/
theorem form_lawful (n : Notices) : n.form.Lawful := by
  unfold Notices.Lawful
  rw [Notices.form_line, Notices.level, Bool.or_eq_true, Bool.or_eq_true, any_sets_iff, any_sets_iff, List.any_eq_true,
    or_assoc]
  simp only [Notices.unmasked_iff]
  rfl

variable (n : Notices)

theorem raise_lawful (x : RaisedNotice) : (n.raise x).Lawful := by
  cases x <;> exact Notices.form_lawful _

theorem empty_lawful (t : NoticeTarget) : (n.empty t).Lawful := by
  cases t <;> exact Notices.form_lawful _

/-! ## The order of the kinds (log entry 33) -/

namespace Ordered

variable {n} (h : n.Ordered)
include h

theorem setRoom (r : RoomNo) {l : List RoomNotice} (hl : (l.map RoomNotice.num).Pairwise fun x y => x < y) :
    ({ n with rooms := n.rooms.set r.val l } : Notices).Ordered := by
  obtain ⟨hrooms, hkitchens, hpart⟩ := h
  refine ⟨fun q => ?_, hkitchens, hpart⟩
  dsimp only
  rw [Vector.getElem_set]
  split
  · exact hl
  · exact hrooms q

theorem setKitchen (k : KitchenNo) {l : List KitchenNotice}
    (hl : (l.map KitchenNotice.num).Pairwise fun x y => x < y) :
    ({ n with kitchens := n.kitchens.set k.val l } : Notices).Ordered := by
  obtain ⟨hrooms, hkitchens, hpart⟩ := h
  refine ⟨hrooms, fun q => ?_, hpart⟩
  dsimp only
  rw [Vector.getElem_set]
  split
  · exact hl
  · exact hkitchens q

theorem setPart {l : List PartNotice} (hl : (l.map PartNotice.num).Pairwise fun x y => x < y) :
    ({ n with part := l } : Notices).Ordered := by
  obtain ⟨hrooms, hkitchens, -⟩ := h
  exact ⟨hrooms, hkitchens, hl⟩

theorem raise (x : RaisedNotice) : (n.raise x).Ordered := by
  cases x with
  | room r k => exact h.setRoom r (addKind_ordered (by decide) k _)
  | kitchen c k => exact h.setKitchen c (addKind_ordered (by decide) k _)
  | part k => exact h.setPart (addKind_ordered (by decide) k _)

theorem empty (t : NoticeTarget) : (n.empty t).Ordered := by
  cases t with
  | room r => exact h.setRoom r .nil
  | kitchen c => exact h.setKitchen c .nil
  | part => exact h.setPart .nil

/-- The kinds that READ_NOTICES returns ascend (R182). -/
theorem kinds (t : NoticeTarget) : (n.kinds t).Pairwise fun x y => x < y := by
  obtain ⟨hrooms, hkitchens, hpart⟩ := h
  cases t with
  | room r => exact hrooms r
  | kitchen c => exact hkitchens c
  | part => exact hpart

end Ordered

theorem emptied_ordered : n.emptied.Ordered := by
  simp [Notices.emptied, Notices.form, Notices.Ordered]

/-! ## The set that a notice is raised in -/

theorem mem_raise_room (r : RoomNo) (k k' : RoomNotice) :
    k' ∈ (n.raise (.room r k)).rooms[r.val] ↔ k' = k ∨ k' ∈ n.rooms[r.val] := by
  have hset : (n.raise (.room r k)).rooms[r.val] = addKind RoomNotice.all k n.rooms[r.val] :=
    Vector.getElem_set_self ..
  rw [hset, mem_addKind_iff (RoomNotice.mem_all k')]

theorem raise_room_other {r q : RoomNo} (k : RoomNotice) (h : q ≠ r) :
    (n.raise (.room r k)).rooms[q.val] = n.rooms[q.val] :=
  Vector.getElem_set_ne r.isLt q.isLt fun e => h (Fin.ext e.symm)

end Notices

/-! ## READ_NOTICES and SET_NOTICE_MASK (R182, R183) -/

section Commands

variable {s : State}

/-- READ_NOTICES in IDLE, its target refused. -/
theorem exec_readNotices_refused {i x : Nat} {st : Status} (hidle : s.port.state = .idle)
    (htarget : noticeTarget i x = .error st) (tag : Byte) :
    exec (.readNotices tag i x) s = .next (s.respond 128 tag st []) :=
  State.serve_idle_now hidle (by rw [State.readNotices, htarget]; rfl)

/-- READ_NOTICES in IDLE: the kinds of the set named, and the set emptied. -/
theorem exec_readNotices_ok {i x : Nat} {t : NoticeTarget} (hidle : s.port.state = .idle)
    (htarget : noticeTarget i x = .ok t) (tag : Byte) :
    exec (.readNotices tag i x) s =
      .next ((s.withRecs { s.recs with notices := s.recs.notices.empty t }).respond 128 tag .ok
        (kindBytes (s.recs.notices.kinds t))) :=
  State.serve_idle_now hidle (by rw [State.readNotices, htarget])

theorem noticeTarget_badValue {i : Nat} (hi : 2 < i) (x : Nat) : noticeTarget i x = .error .badValue := by
  rw [noticeTarget, if_neg (by omega), if_neg (by omega), if_neg (by omega)]

theorem noticeTarget_badRoom {x : Nat} (hx : 384 ≤ x) : noticeTarget 0 x = .error .badRoom := by
  rw [noticeTarget, if_pos rfl, roomNo?, dif_neg (by omega)]

theorem noticeTarget_badKitchen {x : Nat} (hx : 8 ≤ x) : noticeTarget 1 x = .error .badKitchen := by
  rw [noticeTarget, if_neg (by decide), if_pos rfl, kitchenNo?, dif_neg (by omega)]

theorem noticeTarget_room (r : RoomNo) : noticeTarget 0 r.val = .ok (.room r) := by
  rw [noticeTarget, if_pos rfl, roomNo?, dif_pos r.isLt]

theorem noticeTarget_kitchen (c : KitchenNo) : noticeTarget 1 c.val = .ok (.kitchen c) := by
  rw [noticeTarget, if_neg (by decide), if_pos rfl, kitchenNo?, dif_pos c.isLt]

theorem noticeTarget_part (x : Nat) : noticeTarget 2 x = .ok .part := rfl

/-- The masks that were written are the bytes sent back (R183). -/
theorem Notices.maskBytes_written {masks : Vector Byte 18} (hmasks : ∀ m ∈ masks.toList, m = 0 ∨ m = 1) (n : Notices) :
    ({ n with masks := masks.map fun m => decide (m = 1) } : Notices).maskBytes = masks.toList := by
  have hbyte : ∀ m ∈ masks.toList, yesNo (decide (m = 1)) = [m] := fun m hm => by
    rcases hmasks m hm with rfl | rfl <;> rfl
  rw [Notices.maskBytes, Vector.toList_map, List.flatMap_map, List.flatMap_congr hbyte, List.flatMap_singleton']

/-- SET_NOTICE_MASK in IDLE with a mask that is neither 0 nor 1. -/
theorem exec_setNoticeMask_refused (hidle : s.port.state = .idle) (tag : Byte) {masks : Vector Byte 18}
    (hbad : ∃ m ∈ masks.toList, m ≠ 0 ∧ m ≠ 1) :
    exec (.setNoticeMask tag masks) s = .next (s.respond 129 tag .badValue []) := by
  obtain ⟨m, hm, h0, h1⟩ := hbad
  have hall : ¬ (masks.toList.all fun m => decide (m = 0 ∨ m = 1)) = true := fun h =>
    (of_decide_eq_true (List.all_eq_true.mp h m hm)).elim h0 h1
  exact State.serve_idle_now hidle (by rw [State.setNoticeMask, if_neg hall]; rfl)

/-- SET_NOTICE_MASK in IDLE: every mask replaced, the sets kept, NOTICE formed afresh. -/
theorem exec_setNoticeMask_ok (hidle : s.port.state = .idle) (tag : Byte) {masks : Vector Byte 18}
    (hmasks : ∀ m ∈ masks.toList, m = 0 ∨ m = 1) :
    let n := ({ s.recs.notices with masks := masks.map fun m => decide (m = 1) } : Notices).form
    exec (.setNoticeMask tag masks) s = .next ((s.withRecs { s.recs with notices := n }).respond 129 tag .ok
      (masks.toList ++ [if n.line then 1 else 0])) := by
  have hall : (masks.toList.all fun m => decide (m = 0 ∨ m = 1)) = true :=
    List.all_eq_true.mpr fun m hm => decide_eq_true (hmasks m hm)
  refine State.serve_idle_now hidle ?_
  rw [State.setNoticeMask, if_pos hall]
  exact Prod.ext rfl (congrArg (fun l => Answer.now .ok (l ++ _)) (Notices.maskBytes_written hmasks s.recs.notices))

end Commands

/-- Settles O60: the laws of raising, emptying and masking, with the answers of the two commands. -/
theorem noticesRaisedReadAndMasked : Obligations.NoticesRaisedReadAndMasked := by
  intro tag s n now
  have hread : s.port.state = .idle → ∀ {i x : Nat} {t : NoticeTarget}, noticeTarget i x = .ok t →
      exec (.readNotices tag i x) s = .next ((now (n.empty t)).respond 128 tag .ok (kindBytes (n.kinds t))) ∧
        (n.empty t).Lawful ∧
        (n.Ordered → ((n.kinds t).Pairwise fun x y => x < y) ∧ (n.empty t).Ordered) :=
    fun hidle _ _ t ht =>
      ⟨exec_readNotices_ok hidle ht tag, n.empty_lawful t, fun h => ⟨h.kinds t, h.empty t⟩⟩
  refine ⟨fun r k => ⟨n.raise (.room r k), rfl, n.raise_lawful _, fun h => h.raise _, n.mem_raise_room r k,
      fun q => n.raise_room_other k, rfl, rfl, rfl⟩,
    fun c k => ⟨n.raise (.kitchen c k), rfl, n.raise_lawful _, fun h => h.raise _,
      fun k' => (n.raise_kitchen_same c k k').trans or_comm, fun q => n.raise_kitchen_other k, rfl, rfl, rfl⟩,
    fun k => ⟨n.raise (.part k), rfl, n.raise_lawful _, fun h => h.raise _,
      fun k' => mem_addKind_iff (PartNotice.mem_all k') k n.part, rfl, rfl, rfl⟩,
    fun hidle => ⟨fun i x hi => exec_readNotices_refused hidle (noticeTarget_badValue hi x) tag,
      fun x hx => exec_readNotices_refused hidle (noticeTarget_badRoom hx) tag,
      fun x hx => exec_readNotices_refused hidle (noticeTarget_badKitchen hx) tag, fun r => ?_, fun c => ?_,
      fun x => ?_, fun masks hbad => exec_setNoticeMask_refused hidle tag hbad, fun masks hmasks => ?_⟩⟩
  · obtain ⟨hexec, hlawful, hordered⟩ := hread hidle (noticeTarget_room r)
    exact ⟨_, hexec, hlawful, hordered, rfl⟩
  · obtain ⟨hexec, hlawful, hordered⟩ := hread hidle (noticeTarget_kitchen c)
    exact ⟨_, hexec, hlawful, hordered, rfl⟩
  · obtain ⟨hexec, hlawful, hordered⟩ := hread hidle (noticeTarget_part x)
    exact ⟨_, hexec, hlawful, hordered, rfl⟩
  · exact ⟨_, exec_setNoticeMask_ok hidle tag hmasks, Notices.form_lawful _, rfl⟩

end Sys2Proof.Machine

/-! What each operation on the records leaves of the notices: the sets stay in the table's order and NOTICE follows
them, since every change of the notices raises a kind (R181). -/

namespace Sys2Proof.Machine

open Sys2Proof

/-! ## Keeping the laws of the notices -/

/-- From `n` to `m` the laws of the NOTICE line and of the order of the sets are kept (R181; log entry 33). -/
structure Notices.Keeps (n m : Notices) : Prop where
  line : n.Lawful → m.Lawful
  order : n.Ordered → m.Ordered

/-- From `b` to `b'` the laws of the notices are kept. -/
def Records.KeepsNotices (b b' : Records) : Prop := b.notices.Keeps b'.notices

namespace Records.KeepsNotices

variable {b b' b'' : Records}

theorem of_eq (h : b'.notices = b.notices) : b.KeepsNotices b' := by
  unfold Records.KeepsNotices
  rw [h]
  exact ⟨id, id⟩

theorem refl (b : Records) : b.KeepsNotices b := of_eq rfl

theorem trans (h : b.KeepsNotices b') (h' : b'.KeepsNotices b'') : b.KeepsNotices b'' :=
  ⟨fun hl => h'.line (h.line hl), fun ho => h'.order (h.order ho)⟩

/-- An operation that leaves the notices may follow. -/
theorem quiet (h : b.KeepsNotices b') (e : b''.notices = b'.notices) : b.KeepsNotices b'' := h.trans (of_eq e)

/-- An operation that leaves the notices may precede. -/
theorem after_quiet (h : b'.KeepsNotices b'') (e : b'.notices = b.notices) : b.KeepsNotices b'' := (of_eq e).trans h

theorem raise (h : b.KeepsNotices b') (x : RaisedNotice) : b.KeepsNotices (b'.raise x) :=
  h.trans ⟨fun _ => b'.notices.raise_lawful x, fun ho => ho.raise x⟩

theorem foldl {α : Type} {f : Records → α → Records} (hf : ∀ (b : Records) (x : α), b.KeepsNotices (f b x))
    (l : List α) (b : Records) : b.KeepsNotices (l.foldl f b) := by
  induction l generalizing b with
  | nil => exact refl b
  | cons x xs ih => exact (hf b x).trans (ih _)

end Records.KeepsNotices

section Operations

variable (b : Records)

/-! ## Rooms and bookings (chapters 3 and 4) -/

@[simp] theorem Records.clearTurnarounds_notices (now : Nat) (rs : List RoomNo) :
    (b.clearTurnarounds now rs).notices = b.notices := by rw [b.clearTurnarounds_eq]

@[simp] theorem Records.clearTurnaround_notices (now : Nat) (r : RoomNo) :
    (b.clearTurnaround now r).notices = b.notices := b.clearTurnarounds_notices now [r]

@[simp] theorem Records.readTurnarounds_notices (now : Nat) (r : RoomNo) :
    (b.readTurnarounds now r).notices = b.notices := b.clearTurnarounds_notices now _

@[simp] theorem Records.link_notices (r : RoomNo) (sl : SlotNo) (start : Nat) :
    (b.link r sl start).notices = b.notices := rfl

@[simp] theorem Records.unlink_notices (r : RoomNo) (sl : SlotNo) : (b.unlink r sl).notices = b.notices := rfl

@[simp] theorem Records.settleOrder_notices (c : Clock) (sl : SlotNo) : (b.settleOrder c sl).1.notices = b.notices :=
  (b.settleOrder_settlesOnly c sl).orders.notices

@[simp] theorem Records.settleAll_notices (c : Clock) (l : List SlotNo) : (b.settleAll c l).1.notices = b.notices :=
  (b.settleAll_settlesOnly c l).orders.notices

theorem Records.retire_keepsNotices (c : Clock) (sl : SlotNo) (k : Booking) (why : Reason) :
    b.KeepsNotices (b.retire c sl k why).1 := by
  have hsettled : b.KeepsNotices ((b.unlink k.room sl).settleAll c k.annex).1 := .of_eq (by simp)
  unfold Records.retire Records.raiseRoom?
  dsimp only
  split
  · exact (hsettled.quiet (by simp)).raise _
  · exact hsettled.quiet (by simp)

theorem Records.updateBooking_keepsNotices (c : Clock) (sl : SlotNo) : b.KeepsNotices (b.updateBooking c sl) := by
  unfold Records.updateBooking
  split
  · exact .refl b
  · split
    · exact b.retire_keepsNotices ..
    · split <;> exact .of_eq rfl

theorem Records.bringUp_keepsNotices (c : Clock) (r : RoomNo) : b.KeepsNotices (b.bringUp c r) :=
  .trans (.of_eq (b.clearTurnaround_notices c.minute r))
    (.foldl (fun b sl => b.updateBooking_keepsNotices c sl) _ _)

theorem Records.bringUpAll_keepsNotices (c : Clock) (rs : List RoomNo) : b.KeepsNotices (b.bringUpAll c rs) :=
  .foldl (fun b r => b.bringUp_keepsNotices c r) rs b

theorem Records.bringUpSet_keepsNotices (c : Clock) (r : RoomNo) : b.KeepsNotices (b.bringUpSet c r) :=
  b.bringUpAll_keepsNotices c _

theorem Records.nameBooking_keepsNotices {b b' : Records} {c : Clock} {h : Handle}
    {x : Except Status (SlotNo × Booking)} (hn : b.nameBooking c h = (b', x)) : b.KeepsNotices b' := by
  unfold Records.nameBooking at hn
  split at hn
  · cases hn; exact .refl b
  · split at hn
    · cases hn; exact .refl b
    · split at hn
      · cases hn; exact .refl b
      · dsimp only at hn
        split at hn
        · split at hn <;> cases hn <;> exact b.bringUpSet_keepsNotices c _
        · cases hn; exact b.bringUpSet_keepsNotices c _

theorem Records.nameOrder_keepsNotices {b b' : Records} {c : Clock} {h : Handle} {closes : Bool}
    {x : Except Status (SlotNo × Order)} (hn : b.nameOrder c h closes = (b', x)) : b.KeepsNotices b' := by
  unfold Records.nameOrder at hn
  split at hn
  · cases hn; exact .refl b
  · split at hn
    · cases hn; exact .refl b
    · split at hn
      · cases hn; exact .refl b
      · dsimp only at hn
        split at hn <;> cases hn <;> exact b.bringUp_keepsNotices c _

/-- A claim may raise POOL_LOW and no other notice (R20). -/
theorem Records.allocate_keepsNotices {b b' : Records} {privileged : Bool} {body : SlotBody} {sl : SlotNo}
    (h : b.allocate privileged body = .ok (sl, b')) : b.KeepsNotices b' := by
  obtain ⟨-, -, rest, -, -, rfl⟩ := Records.allocate_inv h
  rw [Records.lowAfterAllocation_eq]
  split
  · exact (Records.KeepsNotices.refl b).raise (.part .poolLow)
  · exact .of_eq rfl

theorem Records.addBooking_keepsNotices {b b' : Records} {privileged : Bool} {k : Booking} {sl : SlotNo}
    (h : b.addBooking privileged k = .ok (sl, b')) : b.KeepsNotices b' := by
  unfold Records.addBooking at h
  split at h
  · cases h
  · rename_i hall
    cases h
    exact (Records.allocate_keepsNotices hall).quiet rfl

theorem Records.confirm_keepsNotices (c : Clock) (sl : SlotNo) (k : Booking) : b.KeepsNotices (b.confirm c sl k) :=
  .after_quiet (Records.updateBooking_keepsNotices _ c sl) rfl

theorem Records.applyAmend_keepsNotices (c : Clock) (sl : SlotNo) (k k' : Booking) :
    b.KeepsNotices (b.applyAmend c sl k k') := by
  have hwritten : b.KeepsNotices (if k'.start ≠ k.start then
      ((b.unlink k.room sl).setBody sl (.booking k')).link k.room sl k'.start
      else b.setBody sl (.booking k')) := by split <;> exact .of_eq rfl
  unfold Records.applyAmend
  dsimp only
  generalize (if k'.start ≠ k.start then _ else _ : Records) = b₁ at hwritten ⊢
  have hmarked : b.KeepsNotices (if k' = k then b₁ else b₁.markShowing k.room) := by
    split
    · exact hwritten
    · exact hwritten.quiet rfl
  split
  · exact hmarked.trans (Records.updateBooking_keepsNotices ..)
  · exact hmarked

/-! ## Panel requests and motion (R79 to R86) -/

theorem Records.motionCheckIn_keepsNotices (now : Nat) (r : RoomNo) : b.KeepsNotices (b.motionCheckIn now r) := by
  unfold Records.motionCheckIn
  split
  · split <;> exact .of_eq rfl
  · exact .refl b

theorem Records.panelCheckIn_keepsNotices (c : Clock) (r : RoomNo) : b.KeepsNotices (b.panelCheckIn c r).1 := by
  unfold Records.panelCheckIn
  split <;> split <;> exact .of_eq rfl

theorem Records.extendBooking_keepsNotices (c : Clock) (q : RoomNo) (sl : SlotNo) (k : Booking) :
    b.KeepsNotices (b.extendBooking c q sl k).1 := by
  unfold Records.extendBooking
  split
  · split
    · exact .refl b
    · split
      · exact .refl b
      · exact .raise (.of_eq rfl) _
  · exact .refl b

theorem Records.panelExtend_keepsNotices (c : Clock) (r : RoomNo) : b.KeepsNotices (b.panelExtend c r).1 := by
  unfold Records.panelExtend
  split
  · exact .refl b
  · split
    · exact .refl b
    · have hup := fun rs => b.bringUpAll_keepsNotices c rs
      dsimp only
      split
      · split
        · exact (hup _).trans (Records.extendBooking_keepsNotices ..)
        · exact hup _
      · exact hup _

theorem Records.panelRelease_keepsNotices (c : Clock) (r : RoomNo) : b.KeepsNotices (b.panelRelease c r).1 := by
  unfold Records.panelRelease
  split
  · exact .refl b
  · split
    · exact .refl b
    · exact b.retire_keepsNotices ..

theorem Records.panelWalkUp_keepsNotices (c : Clock) (r : RoomNo) : b.KeepsNotices (b.panelWalkUp c r).1 := by
  have hread : b.KeepsNotices (b.readTurnarounds c.minute r) := .of_eq (b.readTurnarounds_notices _ _)
  unfold Records.panelWalkUp
  split
  · exact .refl b
  · dsimp only
    split
    · exact .refl b
    · split
      · exact hread
      · split
        · exact hread
        · rename_i hadd
          exact (hread.trans (Records.addBooking_keepsNotices hadd)).raise _

theorem Records.panelRequest_keepsNotices {act : Records → Records × PanelResult}
    (hact : ∀ b : Records, b.KeepsNotices (act b).1) (c : Clock) (r : RoomNo) :
    b.KeepsNotices (b.panelRequest c r act).1 := by
  unfold Records.panelRequest
  split
  · split
    · exact .refl b
    · split
      · exact (b.bringUpSet_keepsNotices c r).trans (hact _)
      · exact .refl b
  · exact .refl b

/-! ## The rooms and the finder (R33, R37, R43 to R46, R97) -/

theorem Records.closeStep_keepsNotices (c : Clock) (r : RoomNo) : b.KeepsNotices (b.closeStep c r) := by
  have hup := b.bringUp_keepsNotices c r
  unfold Records.closeStep Records.closeDone
  dsimp only
  split
  · exact .quiet (hup.raise (.room r .closeDone)) rfl
  · split
    · exact hup.trans (Records.retire_keepsNotices ..)
    · exact hup

theorem Records.setService_keepsNotices (r : RoomNo) (st : Service) : b.KeepsNotices (b.setService r st) := by
  unfold Records.setService
  split <;> exact .of_eq rfl

theorem Records.judgeRoom_keepsNotices (now : Nat) (x : Scan) (r : RoomNo) :
    b.KeepsNotices (b.judgeRoom now x r).1 := by
  unfold Records.judgeRoom
  split
  · exact .of_eq (b.clearTurnarounds_notices _ _)
  · exact .refl b

@[simp] theorem Records.withAttrs_notices (r : RoomNo) (x : RoomAttrs) : (b.withAttrs r x).notices = b.notices := by
  rw [b.withAttrs_eq]

/-! ## Kitchens and orders (chapters 6 to 8) -/

theorem Records.promotionTrigger_keepsNotices (c : Clock) (k : KitchenNo) :
    b.KeepsNotices (b.promotionTrigger c k) := by
  unfold Records.promotionTrigger
  split <;> exact .of_eq rfl

theorem Records.changeKitchen_keepsNotices (c : Clock) (k : KitchenNo) (x : Kitchen) :
    b.KeepsNotices (b.changeKitchen c k x) := by
  unfold Records.changeKitchen
  split <;> exact .of_eq rfl

theorem Records.reformLevel_keepsNotices (c : Clock) (k : KitchenNo) (x : Kitchen) :
    b.KeepsNotices (b.reformLevel c k x) := by
  have hchange := b.changeKitchen_keepsNotices c k { x with active := x.formLevel }
  unfold Records.reformLevel
  dsimp only
  split
  · exact hchange
  · exact hchange.raise _

theorem Records.dispatchAll_keepsNotices (c : Clock) (l : List (SlotNo × Order)) :
    b.KeepsNotices (b.dispatchAll c l).1 := by
  induction l generalizing b with
  | nil => exact .refl b
  | cons x rest ih => exact (ih (b.dispatchOne c x)).after_quiet rfl

theorem Records.dispatch_keepsNotices (c : Clock) (k : KitchenNo) : b.KeepsNotices (b.dispatch c k) := by
  have hall := b.dispatchAll_keepsNotices c (b.dispatchable k c.w0)
  unfold Records.dispatch
  split <;> rename_i e <;> rw [e] at hall
  · exact hall.trans (Records.promotionTrigger_keepsNotices ..)
  · exact hall

theorem Records.lapse_keepsNotices (sl : SlotNo) (o : Order) : b.KeepsNotices (b.lapse sl o) := .raise (.of_eq rfl) _

theorem Records.lapseAll_keepsNotices (w0 : Nat) (l : List SlotNo) : b.KeepsNotices (b.lapseAll w0 l) := by
  refine .foldl (fun b sl => ?_) l b
  split
  · split
    · exact b.lapse_keepsNotices ..
    · exact .refl b
  · exact .refl b

theorem Records.roll_keepsNotices (c : Clock) (k : KitchenNo) (o n : Nat) : b.KeepsNotices (b.roll c k o n) := by
  have hring : b.KeepsNotices (b.setKitchen k ((b.kitchen k).rolled c.w0)) := .of_eq rfl
  unfold Records.roll
  split
  · exact .refl b
  · dsimp only
    split
    · exact hring
    · exact hring.trans ((Records.dispatch_keepsNotices _ c k).trans (Records.lapseAll_keepsNotices _ _ _))

theorem Records.shedWindow_keepsNotices (c : Clock) (k : KitchenNo) (w : Nat) :
    b.KeepsNotices (b.shedWindow c k w) := by
  unfold Records.shedWindow
  dsimp only
  split
  · exact .of_eq rfl
  · split
    · exact .of_eq rfl
    · exact .raise (.of_eq rfl) _

theorem Records.sheddingStep_keepsNotices (c : Clock) (k : KitchenNo) (cursor : Nat) :
    b.KeepsNotices (b.sheddingStep c k cursor) := by
  unfold Records.sheddingStep
  dsimp only
  generalize (if _ ≤ c.w0 then c.w0 + 1 else _) = w
  split
  · exact .of_eq rfl
  · exact (Records.shedWindow_keepsNotices _ c k w).after_quiet rfl

theorem Records.examine_keepsNotices (c : Clock) (menu : Vector MenuClass 16) (sl : SlotNo) (o : Order) :
    b.KeepsNotices (b.examine c menu sl o) := by
  unfold Records.examine
  split
  · exact b.lapse_keepsNotices ..
  · dsimp only
    split
    · exact .raise (.of_eq rfl) _
    · exact .of_eq rfl

theorem Records.promotingStep_keepsNotices (c : Clock) (menu : Vector MenuClass 16) (k : KitchenNo)
    (cursor : Option WaitPlace) : b.KeepsNotices (b.promotingStep c menu k cursor) := by
  unfold Records.promotingStep
  dsimp only
  split
  · exact .of_eq rfl
  · split
    · exact .of_eq rfl
    · exact .after_quiet (Records.examine_keepsNotices ..) rfl

theorem Records.admitOrWait_notices (sl : SlotNo) (o : Order) (x : Load) :
    (b.admitOrWait sl o x).notices = b.notices := by
  unfold Records.admitOrWait
  dsimp only
  split
  · split <;> rfl
  · rfl

theorem Records.createOrder_keepsNotices {b b' : Records} {owner sl : SlotNo} {k : Booking} {o : Order} {x : Load}
    (h : b.createOrder owner k o x = .ok (sl, b')) : b.KeepsNotices b' := by
  unfold Records.createOrder at h
  split at h
  · cases h
  · rename_i hall
    cases h
    exact (Records.allocate_keepsNotices hall).quiet (Records.admitOrWait_notices ..)

theorem Records.amendOrderTo_keepsNotices {b b' : Records} {c : Clock} {sl : SlotNo} {o o' : Order} {x : Load}
    (h : b.amendOrderTo c sl o o' x = some b') : b.KeepsNotices b' := by
  unfold Records.amendOrderTo Records.replaceLoad at h
  dsimp only at h
  split at h
  · cases h
    exact .after_quiet (Records.promotionTrigger_keepsNotices ..) rfl
  · split at h <;> cases h
    split
    · exact .after_quiet (Records.promotionTrigger_keepsNotices ..) rfl
    · exact .of_eq rfl

theorem Records.leaveAnnex_notices (sl : SlotNo) (o : Order) : (b.leaveAnnex sl o).notices = b.notices := by
  unfold Records.leaveAnnex
  split <;> rfl

/-! ## Tickets and reports (R141 to R143) -/

theorem Records.settleAnswer_notices (k : KitchenNo) : (b.settleAnswer k).notices = b.notices := by
  unfold Records.settleAnswer Records.joinVoid
  dsimp only
  split
  · rfl
  · split <;> rfl
  · split
    · rfl
    · split
      · split
        · rfl
        · split <;> rfl
      · rfl

theorem Records.settleLoss_notices (k : KitchenNo) : (b.settleLoss k).notices = b.notices := by rw [b.settleLoss_eq]

theorem Records.takeReport_keepsNotices (k : KitchenNo) (x : Report) : b.KeepsNotices (b.takeReport k x) := by
  unfold Records.takeReport
  split
  · exact .refl b
  · split
    · exact .refl b
    · split
      · split
        · exact .refl b
        · dsimp only
          split
          · exact .raise (.of_eq rfl) _
          · exact .of_eq rfl
      · exact .refl b

theorem Records.terminalAnswered_keepsNotices (k : KitchenNo) (payload : List Byte) :
    b.KeepsNotices (b.terminalAnswered k payload) :=
  .trans (.of_eq (b.settleAnswer_notices k)) (.foldl (fun b r => b.takeReport_keepsNotices k r) _ _)

/-! ## Lines (chapter 9) -/

theorem Records.raiseBack_keepsNotices (x : Node) : b.KeepsNotices (b.raiseBack x) := by
  have hself := Records.KeepsNotices.refl b
  unfold Records.raiseBack
  split
  · split
    · exact hself
    · exact hself.raise _
    · exact hself.raise _
  · exact hself

theorem Records.raiseSilent_keepsNotices (x : Node) : b.KeepsNotices (b.raiseSilent x) := by
  have hself := Records.KeepsNotices.refl b
  unfold Records.raiseSilent
  split
  · split
    · exact hself
    · exact hself.raise _
    · exact hself.raise _
  · exact hself

theorem Records.lossOf_keepsNotices (c : Clock) (x : Node) : b.KeepsNotices (b.lossOf c x) := by
  unfold Records.lossOf
  split
  · split
    · exact b.reformLevel_keepsNotices ..
    · exact .refl b
  · exact .refl b

theorem Records.settleFrame_notices (l : LineNo) (v : Visit) : (b.settleFrame l v).notices = b.notices := by
  unfold Records.settleFrame
  dsimp only
  split
  · rfl
  · split <;> rfl
  · exact b.settleLoss_notices _

theorem Records.heardFrom_keepsNotices (c : Clock) (x : Node) (payload : List Byte) :
    b.KeepsNotices (b.heardFrom c x payload) := by
  have hback := b.raiseBack_keepsNotices x
  unfold Records.heardFrom
  split
  · exact hback
  · exact hback
  · exact hback.trans ((Records.terminalAnswered_keepsNotices ..).trans (Records.reformLevel_keepsNotices ..))

theorem Records.goodAnswer_keepsNotices (c : Clock) (l : LineNo) (v : Visit) (payload : List Byte) :
    b.KeepsNotices (b.goodAnswer c l v payload) := by
  rw [b.goodAnswer_eq]
  exact (b.heardFrom_keepsNotices c _ payload).quiet rfl

theorem Records.lostAt_keepsNotices (c : Clock) (x : Node) : b.KeepsNotices (b.lostAt c x) := by
  have hticket : b.KeepsNotices (b.ticketLost x) := by
    unfold Records.ticketLost
    split
    · exact .refl b
    · exact .refl b
    · exact .of_eq (b.settleLoss_notices _)
  exact (hticket.trans (Records.raiseSilent_keepsNotices _ x)).trans (Records.lossOf_keepsNotices _ c x)

theorem Records.loss_keepsNotices (c : Clock) (l : LineNo) (v : Visit) : b.KeepsNotices (b.loss c l v) := by
  rw [b.loss_eq]
  exact (b.lostAt_keepsNotices c _).quiet rfl

theorem Records.clearLine_keepsNotices (c : Clock) (l : LineNo) : b.KeepsNotices (b.clearLine c l) := by
  have hlosses : ∀ (b₁ : Records) (lost : List KitchenNo), b₁.KeepsNotices
      (lost.foldl (fun x k => x.terminalLost c k) (b₁.setLine l (b₁.line l).cleared)) := fun b₁ lost =>
    .after_quiet (.foldl (fun b k => b.reformLevel_keepsNotices c k _) _ _) rfl
  unfold Records.clearLine
  dsimp only
  split
  · exact .trans (.of_eq (b.settleFrame_notices l _)) (hlosses _ _)
  · exact hlosses b _

theorem Records.startVisit_keepsNotices (c : Clock) (l : LineNo) (ln : Line) (n : NodeNo) :
    b.KeepsNotices (b.startVisit c l ln n) := by
  unfold Records.startVisit
  split
  · exact .refl b
  · split
    · exact .quiet (.of_eq (b.clearTurnarounds_notices _ _)) rfl
    · exact .of_eq rfl
  · exact .of_eq rfl

theorem Records.nameTerminal_keepsNotices (c : Clock) (kind : NodeKind) (t : Option (LineNo × NodeNo)) :
    b.KeepsNotices (b.nameTerminal c kind t) := by
  unfold Records.nameTerminal
  split
  · exact .refl b
  · exact .refl b
  · exact b.reformLevel_keepsNotices ..

theorem Records.writeNode_keepsNotices (c : Clock) (l : LineNo) (n : NodeNo) (kind : NodeKind) :
    b.KeepsNotices (b.writeNode c l n kind) := by
  have hnode : b.KeepsNotices (b.withNode l n kind) := .of_eq rfl
  by_cases hsame : ((b.line l).node n).kind = kind
  · rw [b.writeNode_same c hsame]
    exact hnode.trans (Records.nameTerminal_keepsNotices ..)
  · rw [b.writeNode_moved c hsame]
    exact (hnode.trans (Records.nameTerminal_keepsNotices ..)).trans (Records.nameTerminal_keepsNotices ..)

/-! ## The pool and the clock (chapters 1 and 2) -/

theorem Records.clockEnd_keepsNotices (v : Nat) : b.KeepsNotices (b.clockEnd v) := by
  have hself := Records.KeepsNotices.refl b
  unfold Records.clockEnd
  split
  · exact hself
  · exact hself.raise _

theorem Records.judgeFloor_keepsNotices : b.KeepsNotices b.judgeFloor := by
  unfold Records.judgeFloor
  dsimp only
  split
  · exact .raise (.of_eq rfl) _
  · split <;> exact .of_eq rfl

/-- CLEAR_ALL empties every set and forms NOTICE afresh (R24). -/
theorem Records.beginClear_keepsNotices : b.KeepsNotices b.beginClear :=
  ⟨fun _ => Notices.form_lawful _, fun _ => b.notices.emptied_ordered⟩

end Operations

end Sys2Proof.Machine

/-! NOTICE follows the unmasked kinds and the sets keep the order of the table, through every step (R181). -/

namespace Sys2Proof.Machine

open Sys2Proof

theorem State.gated_keepsNotices {s : State} {k : State × Answer} (h : s.recs.KeepsNotices k.1.recs) :
    s.recs.KeepsNotices (s.gated k).1.recs := by
  unfold State.gated
  split
  · split
    · exact .refl _
    · exact h
  · exact .refl _

section Acts

variable (s : State)

/-! ## The clock, the pool, the rooms and the notices -/

theorem State.setClock_keepsNotices (v : Nat) : s.recs.KeepsNotices (s.setClock v).1.recs := by
  unfold State.setClock
  dsimp only
  split
  · exact .refl _
  · split
    · exact .after_quiet (s.recs.markAllPanels.clockEnd_keepsNotices v) rfl
    · split
      · exact .refl _
      · split
        · exact .refl _
        · exact s.recs.clockEnd_keepsNotices v
    · split <;> exact .refl _

theorem State.setReserve_keepsNotices (floor : Nat) : s.recs.KeepsNotices (s.setReserve floor).1.recs := by
  unfold State.setReserve
  split
  · exact .refl _
  · exact .after_quiet (Records.judgeFloor_keepsNotices _) rfl

theorem State.setHorizon_keepsNotices (days : Nat) : s.recs.KeepsNotices (s.setHorizon days).1.recs := by
  unfold State.setHorizon
  split <;> exact .of_eq rfl

theorem State.clearAll_keepsNotices : s.recs.KeepsNotices s.clearAll.1.recs := by
  unfold State.clearAll
  split
  · exact s.recs.beginClear_keepsNotices
  · exact .refl _

theorem State.writeRoom_keepsNotices (a : WriteRoomArgs) : s.recs.KeepsNotices (s.writeRoom a).1.recs := by
  rcases s.writeRoom_recs a with e | ⟨r, x, -, e⟩ <;> rw [e]
  · exact .refl _
  · exact .of_eq (s.recs.withAttrs_notices r x)

theorem State.writeRoomRemove_keepsNotices (n : Nat) : s.recs.KeepsNotices (s.writeRoomRemove n).1.recs := by
  rcases s.writeRoomRemove_recs n with e | ⟨r, e⟩ <;> rw [e]
  · exact .refl _
  · exact .of_eq (s.recs.withAttrs_notices r _)

theorem State.readRoom_keepsNotices (room : Nat) : s.recs.KeepsNotices (s.readRoom room).1.recs := by
  unfold State.readRoom
  split
  · exact .refl _
  · exact .of_eq (s.recs.clearTurnaround_notices ..)

theorem State.setRoomService_keepsNotices (inService : Bool) (room : Nat) :
    s.recs.KeepsNotices (s.setRoomService inService room).1.recs := by
  unfold State.setRoomService
  split
  · exact .refl _
  · exact s.recs.setService_keepsNotices ..

theorem State.closeAndCancel_keepsNotices (room : Nat) : s.recs.KeepsNotices (s.closeAndCancel room).1.recs := by
  unfold State.closeAndCancel
  split
  · exact .refl _
  · split
    · exact .refl _
    · exact s.recs.setService_keepsNotices ..

theorem State.readNotices_keepsNotices (indicator number : Nat) :
    s.recs.KeepsNotices (s.readNotices indicator number).1.recs := by
  unfold State.readNotices
  split
  · exact .refl _
  · exact ⟨fun _ => Notices.empty_lawful _ _, fun ho => ho.empty _⟩

/-- New masks leave the sets, and NOTICE is formed afresh (R183). -/
theorem State.setNoticeMask_keepsNotices (masks : Vector Byte 18) :
    s.recs.KeepsNotices (s.setNoticeMask masks).1.recs := by
  unfold State.setNoticeMask
  split
  · exact ⟨fun _ => Notices.form_lawful _, id⟩
  · exact .refl _

/-! ## Bookings -/

theorem State.makeBooking_keepsNotices (k : Booking) : s.recs.KeepsNotices (s.makeBooking k).1.recs := by
  have hread := (s.recs.bringUpSet_keepsNotices s.clk k.room).quiet
    (Records.readTurnarounds_notices _ s.clk.minute k.room)
  unfold State.makeBooking
  dsimp only
  split
  · exact hread
  · split
    · exact hread
    · rename_i hadd
      exact (hread.trans (Records.addBooking_keepsNotices hadd)).trans (Records.updateBooking_keepsNotices ..)

theorem State.bookOrHold_keepsNotices (a : BookArgs) (holdTime : Option Nat) :
    s.recs.KeepsNotices (s.bookOrHold a holdTime).1.recs := by
  refine State.gated_keepsNotices ?_
  split
  · exact .refl _
  · exact s.makeBooking_keepsNotices _

theorem State.confirm_keepsNotices (h : Handle) (cls : Option Nat) :
    s.recs.KeepsNotices (s.confirm h cls).1.recs := by
  refine State.gated_keepsNotices ?_
  split <;> rename_i hn <;> have hname := Records.nameBooking_keepsNotices hn
  · exact hname
  · split
    · exact hname
    · exact hname.trans (Records.confirm_keepsNotices ..)

theorem State.amendTo_keepsNotices (b : Records) (sl : SlotNo) (k k' : Booking) :
    b.KeepsNotices (s.amendTo b sl k k').1.recs := by
  have hread : b.KeepsNotices (if k'.start ≠ k.start then b.readTurnarounds s.clk.minute k.room else b) := by
    split
    · exact .of_eq (b.readTurnarounds_notices ..)
    · exact .refl b
  unfold State.amendTo
  dsimp only
  split
  · exact hread
  · exact hread.trans (Records.applyAmend_keepsNotices ..)

theorem State.amend_keepsNotices (a : AmendArgs) : s.recs.KeepsNotices (s.amend a).1.recs := by
  refine State.gated_keepsNotices ?_
  split <;> rename_i hn <;> have hname := Records.nameBooking_keepsNotices hn
  · exact hname
  · split
    · exact hname
    · exact hname.trans (s.amendTo_keepsNotices ..)

theorem State.cancel_keepsNotices (h : Handle) : s.recs.KeepsNotices (s.cancel h).1.recs := by
  refine State.gated_keepsNotices ?_
  split <;> rename_i hn <;> have hname := Records.nameBooking_keepsNotices hn
  · exact hname
  · exact hname.trans (Records.retire_keepsNotices ..)

/-! ## Kitchens and orders -/

theorem State.writeBanks_keepsNotices (kitchen : Nat) (banks : Vector Nat 8) :
    s.recs.KeepsNotices (s.writeBanks kitchen banks).1.recs := by
  unfold State.writeBanks
  split
  · exact .refl _
  · split
    · exact s.recs.changeKitchen_keepsNotices ..
    · exact .refl _

theorem State.writeKitchen_keepsNotices (kitchen opens closes fallback : Nat) :
    s.recs.KeepsNotices (s.writeKitchen kitchen opens closes fallback).1.recs := by
  unfold State.writeKitchen
  split
  · exact .refl _
  · split
    · exact .refl _
    · split
      · exact s.recs.reformLevel_keepsNotices ..
      · exact .refl _

theorem State.setStaffing_keepsNotices (kitchen : Nat) (level : Option Nat) :
    s.recs.KeepsNotices (s.setStaffing kitchen level).1.recs := by
  unfold State.setStaffing
  split
  · exact .refl _
  · split
    · exact .refl _
    · exact s.recs.reformLevel_keepsNotices ..

theorem State.readWindow_keepsNotices (kitchen window : Nat) :
    s.recs.KeepsNotices (s.readWindow kitchen window).1.recs := by
  unfold State.readWindow
  split
  · exact .refl _
  · split <;> exact .of_eq rfl

theorem State.order_keepsNotices (h : Handle) (menuClass heads delivery : Nat) :
    s.recs.KeepsNotices (s.order h menuClass heads delivery).1.recs := by
  refine State.gated_keepsNotices ?_
  split <;> rename_i hn <;> have hname := Records.nameBooking_keepsNotices hn
  · exact hname
  · split
    · exact hname
    · split
      · exact hname
      · rename_i hcreate
        exact hname.trans (Records.createOrder_keepsNotices hcreate)

theorem State.amendOrder_keepsNotices (a : AmendOrderArgs) : s.recs.KeepsNotices (s.amendOrder a).1.recs := by
  refine State.gated_keepsNotices ?_
  split <;> rename_i hn <;> have hname := Records.nameOrder_keepsNotices hn
  · exact hname
  · split
    · exact hname
    · split
      · exact hname
      · split
        · exact hname
        · rename_i hto
          exact hname.trans (Records.amendOrderTo_keepsNotices hto)

theorem State.cancelOrder_keepsNotices (h : Handle) : s.recs.KeepsNotices (s.cancelOrder h).1.recs := by
  refine State.gated_keepsNotices ?_
  split <;> rename_i hn <;> have hname := Records.nameOrder_keepsNotices hn
  · exact hname
  · exact hname.quiet ((Records.settleOrder_notices ..).trans (Records.leaveAnnex_notices ..))

/-! ## Lines -/

theorem State.lineFrame_keepsNotices (l : LineNo) (frame : List Byte) :
    s.recs.KeepsNotices (s.lineFrame l frame).recs := by
  unfold State.lineFrame
  split
  · exact .refl _
  · dsimp only
    split
    · exact s.recs.goodAnswer_keepsNotices ..
    · exact s.recs.loss_keepsNotices ..

theorem State.enterLine_keepsNotices (l : LineNo) (run : Bool) : s.recs.KeepsNotices (s.enterLine l run).recs := by
  unfold State.enterLine
  dsimp only
  split
  · exact .refl _
  · exact .refl _
  · exact .of_eq rfl
  · exact (s.recs.clearLine_keepsNotices s.clk l).quiet rfl

theorem State.setLineTo_keepsNotices (line state timeout refresh : Nat) :
    s.recs.KeepsNotices (s.setLineTo line state timeout refresh).1.recs := by
  unfold State.setLineTo
  split
  · exact .refl _
  · split
    · exact .after_quiet ((s.setLine _ _).enterLine_keepsNotices _ _) rfl
    · exact .refl _

theorem State.restartLine_keepsNotices (line : Nat) : s.recs.KeepsNotices (s.restartLine line).1.recs := by
  unfold State.restartLine
  split
  · exact .refl _
  · exact (s.recs.clearLine_keepsNotices s.clk _).quiet rfl

theorem State.writeNode_keepsNotices (line node kind target : Nat) :
    s.recs.KeepsNotices (s.writeNode line node kind target).1.recs := by
  rcases s.writeNode_recs line node kind target with e | ⟨l, n, k, -, e⟩ <;> rw [e]
  · exact .refl _
  · exact s.recs.writeNode_keepsNotices ..

/-! ## Panel hand-offs -/

theorem State.takeMotion_keepsNotices (x : PanelHandoff) : s.recs.KeepsNotices (s.takeMotion x).recs := by
  unfold State.takeMotion
  split
  · split <;> exact .of_eq rfl
  · exact .refl _
  · exact .refl _

theorem State.takeMotionCheckIn_keepsNotices (x : PanelHandoff) :
    s.recs.KeepsNotices (s.takeMotionCheckIn x).recs := by
  unfold State.takeMotionCheckIn
  split
  · exact (s.recs.bringUpSet_keepsNotices ..).trans (Records.motionCheckIn_keepsNotices ..)
  · exact .refl _

theorem State.takeRequest_keepsNotices {act : Records → Clock → RoomNo → Records × PanelResult}
    (hact : ∀ (b : Records) c r, b.KeepsNotices (act b c r).1) (x : PanelHandoff) :
    s.recs.KeepsNotices (State.takeRequest act s x).recs :=
  s.recs.panelRequest_keepsNotices (fun b => hact b _ _) _ _

end Acts

theorem State.takePanel_keepsNotices {s t : State} {l : LineNo} {n : NodeNo} {want : PanelItem → Bool}
    {act : State → PanelHandoff → State} (hact : ∀ (s : State) x, s.recs.KeepsNotices (act s x).recs)
    (h : s.takePanel l n want act = .next t) : s.recs.KeepsNotices t.recs := by
  unfold State.takePanel at h
  split at h
  · cases h; exact .refl _
  · split at h <;> cases h
    · rename_i x rest _ _
      exact hact { s with mail := { s.mail with panel := rest } } x
    · exact .refl _

/-- A server command keeps the laws of the notices when its owner's act does. -/
theorem State.serve_keepsNotices {s t : State} {cmd : Instr} {act : State → State × Answer}
    (hact : s.recs.KeepsNotices (act s).1.recs) (hexec : s.serve cmd act = .next t) : s.recs.KeepsNotices t.recs := by
  rcases State.serve_recs hexec with e | e <;> rw [e]
  · exact .refl _
  · exact hact

theorem State.serve_reads_keepsNotices {s t : State} {cmd : Instr} {act : State → State × Answer}
    (hact : (act s).1 = s) (hexec : s.serve cmd act = .next t) : s.recs.KeepsNotices t.recs :=
  State.serve_keepsNotices (act := act) (by rw [hact]; exact .refl _) hexec

/-! ## Every command -/

theorem exec_keepsNotices {i : Instr} {s t : State} (hexec : exec i s = .next t) : s.recs.KeepsNotices t.recs := by
  have hself : s.recs.KeepsNotices s.recs := .refl _
  cases i with
  | hardReset => cases hexec; exact ⟨fun _ => Notices.reset_lawful, fun _ => Notices.reset_ordered⟩
  | poolInitComplete =>
    simp only [exec, execPoolInitComplete] at hexec
    split at hexec <;> cases hexec <;> exact .of_eq rfl
  | elapsedSecond =>
    simp only [exec, execElapsedSecond] at hexec
    split at hexec
    · cases hexec; exact hself
    · cases hexec; exact hself
    · split at hexec
      · cases hexec; exact hself
      · split at hexec <;> cases hexec
        · exact hself
        · exact s.recs.clockEnd_keepsNotices _
  | secondPulse l =>
    simp only [exec, execSecondPulse] at hexec
    split at hexec <;> cases hexec <;> exact .of_eq rfl
  | bkeMinuteAdvance =>
    simp only [exec, execBkeMinuteAdvance] at hexec
    split at hexec <;> cases hexec <;> exact hself
  | minuteWalkStep =>
    simp only [exec, execMinuteWalkStep] at hexec
    split at hexec <;> cases hexec
    · exact hself
    · exact s.recs.bringUp_keepsNotices ..
  | windowRoll k =>
    simp only [exec, execWindowRoll] at hexec
    split at hexec <;> cases hexec
    · exact hself
    · exact s.recs.roll_keepsNotices ..
  | sheddingStep k =>
    simp only [exec, execSheddingStep] at hexec
    split at hexec <;> cases hexec
    · exact s.recs.sheddingStep_keepsNotices ..
    · exact hself
    · exact hself
  | promotingStep k =>
    simp only [exec, execPromotingStep] at hexec
    split at hexec <;> cases hexec
    · exact s.recs.promotingStep_keepsNotices ..
    · exact hself
    · exact hself
  | closeWalkStep r =>
    simp only [exec, execCloseWalkStep] at hexec
    split at hexec <;> cases hexec
    · exact s.recs.closeStep_keepsNotices ..
    · exact hself
  | clearSlotVisit =>
    simp only [exec, execClearSlotVisit] at hexec
    split at hexec
    · cases hexec; exact hself
    · cases hexec; exact hself
    · split at hexec <;> cases hexec
      · exact hself
      · obtain ⟨hnotices, -⟩ := s.recs.clearSlot_frame s.clk _
        exact .of_eq hnotices
  | clearAllComplete =>
    simp only [exec, execClearAllComplete] at hexec
    split at hexec
    · cases hexec; exact hself
    · cases hexec; exact hself
    · split at hexec <;> cases hexec
      · exact hself
      · rw [State.finish_recs]; exact .of_eq rfl
  | findRoomsScanStep =>
    simp only [exec, execFindRoomsScanStep] at hexec
    split at hexec <;> cases hexec
    · exact hself
    · rw [State.scanOn_recs]; exact s.recs.judgeRoom_keepsNotices ..
  | visitStart l =>
    simp only [exec, execVisitStart] at hexec
    split at hexec
    · split at hexec <;> cases hexec
      · exact s.recs.startVisit_keepsNotices ..
      · exact hself
    · cases hexec; exact hself
  | panelAnswer l frame => cases hexec; exact s.lineFrame_keepsNotices l frame
  | terminalAnswer l frame => cases hexec; exact s.lineFrame_keepsNotices l frame
  | badAnswer l frame => cases hexec; exact s.lineFrame_keepsNotices l frame
  | frameDiscarded l frame => cases hexec; exact s.lineFrame_keepsNotices l frame
  | visitTimeout l =>
    simp only [exec, execVisitTimeout] at hexec
    split at hexec <;> cases hexec
    · exact hself
    · exact s.recs.loss_keepsNotices ..
  | motionReport l n => exact State.takePanel_keepsNotices State.takeMotion_keepsNotices hexec
  | motionCheckIn l n =>
    exact State.takePanel_keepsNotices (want := fun x => decide (x = .motionCheckIn))
      State.takeMotionCheckIn_keepsNotices hexec
  | checkIn l n =>
    exact State.takePanel_keepsNotices (State.takeRequest_keepsNotices · Records.panelCheckIn_keepsNotices) hexec
  | extend l n =>
    exact State.takePanel_keepsNotices (State.takeRequest_keepsNotices · Records.panelExtend_keepsNotices) hexec
  | release l n =>
    exact State.takePanel_keepsNotices (State.takeRequest_keepsNotices · Records.panelRelease_keepsNotices) hexec
  | walkUp l n =>
    exact State.takePanel_keepsNotices (State.takeRequest_keepsNotices · Records.panelWalkUp_keepsNotices) hexec
  | requestResult l n =>
    simp only [exec, execRequestResult] at hexec
    split at hexec <;> cases hexec <;> exact .of_eq rfl
  | terminalReport a =>
    cases hexec
    split
    · exact s.recs.reformLevel_keepsNotices ..
    · exact hself
  | terminalLoss k => cases hexec; exact s.recs.reformLevel_keepsNotices ..
  | noticeRaise n => cases hexec; exact hself.raise n
  | commandWrite bytes => cases hexec; rwa [s.transact_recs]
  | overrun bytes => cases hexec; rwa [s.transact_recs]
  | ignoredTransaction bytes => cases hexec; rwa [s.transact_recs]
  | readOut a => cases hexec; rwa [s.readOut_recs]
  | setClock tag v => exact State.serve_keepsNotices (s.setClock_keepsNotices v) hexec
  | readClock tag => exact State.serve_reads_keepsNotices (act := fun s => (s, .now .ok s.clk.readPayload)) rfl hexec
  | poolStatus tag =>
    exact State.serve_reads_keepsNotices (act := fun s => (s, .now .ok s.recs.poolPayload)) rfl hexec
  | noticeSummary tag =>
    exact State.serve_reads_keepsNotices (act := fun s => (s, .now .ok s.recs.notices.summary)) rfl hexec
  | setReserve tag floor => exact State.serve_keepsNotices (s.setReserve_keepsNotices floor) hexec
  | setHorizon tag days => exact State.serve_keepsNotices (s.setHorizon_keepsNotices days) hexec
  | clearAll tag => exact State.serve_keepsNotices s.clearAll_keepsNotices hexec
  | findRooms tag a =>
    obtain ⟨hrecs, -⟩ := s.findRooms_cases a
    exact State.serve_keepsNotices (act := State.findRooms a) (by rw [hrecs]; exact hself) hexec
  | writeRoom tag a => exact State.serve_keepsNotices (s.writeRoom_keepsNotices a) hexec
  | writeRoomRemove tag n => exact State.serve_keepsNotices (s.writeRoomRemove_keepsNotices n) hexec
  | readRoom tag room => exact State.serve_keepsNotices (s.readRoom_keepsNotices room) hexec
  | setRoomService tag up room => exact State.serve_keepsNotices (s.setRoomService_keepsNotices up room) hexec
  | closeAndCancel tag room => exact State.serve_keepsNotices (s.closeAndCancel_keepsNotices room) hexec
  | hold tag a ht => exact State.serve_keepsNotices (s.bookOrHold_keepsNotices a (some ht)) hexec
  | book tag a => exact State.serve_keepsNotices (s.bookOrHold_keepsNotices a none) hexec
  | confirm tag g cls => exact State.serve_keepsNotices (s.confirm_keepsNotices g cls) hexec
  | amend tag a => exact State.serve_keepsNotices (s.amend_keepsNotices a) hexec
  | cancel tag g => exact State.serve_keepsNotices (s.cancel_keepsNotices g) hexec
  | readBooking tag g => exact State.serve_reads_keepsNotices (s.readBooking_self g) hexec
  | lookupAt tag room m => exact State.serve_reads_keepsNotices (s.lookupAt_self room m) hexec
  | listRoom tag room n a => exact State.serve_reads_keepsNotices (s.listRoom_self room n a) hexec
  | writeMenuClass tag c w u l =>
    exact State.serve_keepsNotices (act := State.writeMenuClass c w u l)
      (by rw [s.writeMenuClass_recs c w u l]; exact hself) hexec
  | writeBanks tag k banks => exact State.serve_keepsNotices (s.writeBanks_keepsNotices k banks) hexec
  | writeKitchen tag k o c f => exact State.serve_keepsNotices (s.writeKitchen_keepsNotices k o c f) hexec
  | setStaffing tag k level => exact State.serve_keepsNotices (s.setStaffing_keepsNotices k level) hexec
  | readKitchen tag k => exact State.serve_reads_keepsNotices (s.readKitchen_self k) hexec
  | readWindow tag k w => exact State.serve_keepsNotices (s.readWindow_keepsNotices k w) hexec
  | order tag g m n d => exact State.serve_keepsNotices (s.order_keepsNotices g m n d) hexec
  | amendOrder tag a => exact State.serve_keepsNotices (s.amendOrder_keepsNotices a) hexec
  | cancelOrder tag g => exact State.serve_keepsNotices (s.cancelOrder_keepsNotices g) hexec
  | readOrder tag g => exact State.serve_reads_keepsNotices (s.readOrder_self g) hexec
  | setLine tag l st m r => exact State.serve_keepsNotices (s.setLineTo_keepsNotices l st m r) hexec
  | restartLine tag l => exact State.serve_keepsNotices (s.restartLine_keepsNotices l) hexec
  | writeNode tag l n k g => exact State.serve_keepsNotices (s.writeNode_keepsNotices l n k g) hexec
  | readNode tag l n => exact State.serve_reads_keepsNotices (s.readNode_self l n) hexec
  | readNotices tag i n => exact State.serve_keepsNotices (s.readNotices_keepsNotices i n) hexec
  | setNoticeMask tag m => exact State.serve_keepsNotices (s.setNoticeMask_keepsNotices m) hexec

/-- Settles O11: every command keeps the laws of the notices, since it raises, empties or masks them or leaves them. -/
theorem stepKeepsNoticeLine : Obligations.StepKeepsNoticeLine := by
  intro s t hstep
  rcases step_exec hstep with rfl | ⟨i, rest, hexec⟩
  · exact ⟨id, id⟩
  · obtain ⟨hline, horder⟩ := exec_keepsNotices (s := { s with pending := rest }) hexec
    exact ⟨hline, horder⟩

end Sys2Proof.Machine
